-- ==== Sys2Proof/Word.lean ====
section
/-! DEFINITION. The word types of the JK-340's records, frames and counters (Conventions of 00_scope.md, R164). -/

namespace Sys2Proof

/-- One byte of the link or of a line frame. -/
abbrev Byte := BitVec 8

/-- An order identifier; 0 means "no order" (Tags and their comparison, 00_scope.md; R7). -/
abbrev Tag := BitVec 16

/-- A house address or a site code (Houses, groups and values, 00_scope.md). -/
abbrev Addr := BitVec 24

/-- A reading of a phase's half-cycle counter, which wraps modulo 2^32 (R132). -/
abbrev Hc := BitVec 32

end Sys2Proof
end

