-- ==== Sys2Proof/Syntax.lean ====
section
/-! DEFINITION. The commands: one constructor of `Instr` for each row of spec/opcode_table.json, with its operands.

A request row carries the fields of its request body as they arrive on the link (Table 11-4), so a field may hold any
value of its width. An event row names the phase, group or tag it concerns; an event whose moment the part measures
carries the reading of the 1 µs timebase at that moment. -/

namespace Sys2Proof

/-- The three mains phases (00_scope.md). -/
inductive Phase where
  | a | b | c
deriving DecidableEq, Repr

/-- A completed link record as the receiver hands it on (R142, R143). -/
inductive Record where
  /-- A record that its length byte, 0 or 251 to 255, completed at once. -/
  | badLength (len : Byte)
  /-- A record of a type byte, a body and the CRC received; its length byte is one more than the body's length. -/
  | whole (type : Byte) (body : List Byte) (crc : BitVec 16)
deriving DecidableEq, Repr

/-- A received line frame as a front-end delivers it (R88). `cuts` is the phase's count of discarded receptions as it stood
when the reception of this frame began: a frame begun before the last discard belongs to what was discarded (R82, R83). -/
structure RxFrame where
  bytes : List Byte
  crcGood : Bool
  quality : Byte
  cuts : Nat
deriving DecidableEq, Repr

/-- Body of HOUSE_PUT (Table 11-6). -/
structure PutFields where
  index : BitVec 16
  address : Addr
  phase : Byte
  groups : BitVec 16
  routeCount : Byte
  hop1 : BitVec 16
  hop2 : BitVec 16
deriving DecidableEq, Repr

/-- Body of ORDER_SUBMIT (Table 11-5). -/
structure SubmitFields where
  kind : Byte
  group : Byte
  target : BitVec 16
  value : Byte
  restore : BitVec 16
  priority : Byte
  effFlag : Byte
  effective : BitVec 32
  expiry : BitVec 32
  repeats : Byte
  policy : Byte
  retryLimit : Byte
  direction : Byte
deriving DecidableEq, Repr

/-- The requests of Table 8-3, with the fields of their bodies (Table 11-4). -/
inductive Request where
  | getStatus
  | getIdentity
  | setTime (seconds : BitVec 32)
  | getTime
  | setConfig (id : Byte) (value : BitVec 16)
  | getConfig (id : Byte)
  | writeSite (code : Addr)
  | housePut (f : PutFields)
  | houseGet (index : BitVec 16)
  | houseRemove (index : BitVec 16)
  | houseFind (address : Addr)
  | freeze (first last : BitVec 16) (mode : Byte)
  | thaw (first last : BitVec 16)
  | orderSubmit (f : SubmitFields)
  | orderRead (tag : Tag) (sect : Byte)
  | orderCancel (tag : Tag)
  | orderRelease (tag : Tag)
  | orderList
  | setFloor (floor : Byte)
  | phaseHold (phase : Byte)
  | phaseResume (phase : Byte)
  | phaseStats (phase clear : Byte)
  | standingRead (group : Byte)
  | reset
deriving DecidableEq, Repr

/-- The commands of the block. -/
inductive Instr where
  /-- POWER_UP: POR_IN is released, with QUIET_IN sampled asserted or not; `touched` says whether a programming of the
  site code that the power-up interrupts had changed any cell (R160, R163). -/
  | powerUp (quiet touched : Bool)
  /-- RECORD_COMPLETE: a record completes on the link (R145). -/
  | recordComplete (r : Record)
  /-- LINK_GAP_TIMEOUT (R143). -/
  | linkGapTimeout
  /-- BYTE_WITHOUT_STOP_BIT (R143). -/
  | byteWithoutStopBit
  /-- HOLDING_PLACE_TAKEN (R145). -/
  | holdingPlaceTaken
  /-- SEND_REPLY (R149). -/
  | sendReply
  /-- SEND_NOTICE (R149). -/
  | sendNotice
  /-- TRANSMIT_END: the last byte of the record being sent leaves (R149). -/
  | transmitEnd
  /-- GET_STATUS (R152). -/
  | getStatus
  /-- GET_IDENTITY (R153). -/
  | getIdentity
  /-- SET_TIME (R138). -/
  | setTime (seconds : BitVec 32)
  /-- GET_TIME (R139). -/
  | getTime
  /-- SET_CONFIG (R156). -/
  | setConfig (id : Byte) (value : BitVec 16)
  /-- GET_CONFIG (R157). -/
  | getConfig (id : Byte)
  /-- WRITE_SITE (R161). -/
  | writeSite (code : Addr)
  /-- WRITE_SITE_COMPLETE: programming ends, with the code read back equal or not (R161, R162). -/
  | writeSiteComplete (equal : Bool)
  /-- HOUSE_PUT (R37). -/
  | housePut (f : PutFields)
  /-- HOUSE_GET (R41). -/
  | houseGet (index : BitVec 16)
  /-- HOUSE_REMOVE (R39). -/
  | houseRemove (index : BitVec 16)
  /-- HOUSE_FIND (R42). -/
  | houseFind (address : Addr)
  /-- FREEZE (R44). -/
  | freeze (first last : BitVec 16) (mode : Byte)
  /-- THAW (R45). -/
  | thaw (first last : BitVec 16)
  /-- ORDER_SUBMIT (R9). -/
  | orderSubmit (f : SubmitFields)
  /-- ORDER_READ (R23). -/
  | orderRead (tag : Tag) (sect : Byte)
  /-- ORDER_CANCEL (R20). -/
  | orderCancel (tag : Tag)
  /-- ORDER_RELEASE (R21). -/
  | orderRelease (tag : Tag)
  /-- ORDER_LIST (R24). -/
  | orderList
  /-- SET_FLOOR (R25). -/
  | setFloor (floor : Byte)
  /-- PHASE_HOLD (R86). -/
  | phaseHold (phase : Byte)
  /-- HOLD_TAKES_EFFECT (R86). -/
  | holdTakesEffect (p : Phase)
  /-- PHASE_RESUME (R87). -/
  | phaseResume (phase : Byte)
  /-- PHASE_STATS (R92). -/
  | phaseStats (phase clear : Byte)
  /-- STANDING_READ (R127). -/
  | standingRead (group : Byte)
  /-- RESET (R154). -/
  | reset
  /-- ORDER_CLOSING_END (R16). -/
  | orderClosingEnd (tag : Tag)
  /-- CLOCK_INCREMENT (R137). -/
  | clockIncrement
  /-- ORDER_EXPIRY (R19). -/
  | orderExpiry
  /-- ADOPTION: the adoption check of one order (R118, R119). -/
  | adoption (tag : Tag)
  /-- SELF_RESTORE: the restore check of one group (R120). -/
  | selfRestore (g : Fin 16)
  /-- REFRESH_TIMER_FIRE: the timer check of one group (R122). -/
  | refreshTimerFire (g : Fin 16)
  /-- ZERO_CROSSING: an edge on a phase's input at timebase reading `at_` (R131). -/
  | zeroCrossing (p : Phase) (at_ : Nat)
  /-- PHASE_RETURN (R135). -/
  | phaseReturn (p : Phase)
  /-- PHASE_LOST (R134). -/
  | phaseLost (p : Phase)
  /-- QUIET_ASSERT: QUIET_IN is asserted at timebase reading `at_` (R140). -/
  | quietAssert (at_ : Nat)
  /-- QUIET_INPUT_RELEASE: QUIET_IN is released at timebase reading `at_` (R140). -/
  | quietInputRelease (at_ : Nat)
  /-- QUIET_RELEASE_TIMEOUT (R140). -/
  | quietReleaseTimeout
  /-- GUARD_END (R51). -/
  | guardEnd (p : Phase)
  /-- SEND_COMPLETE (R51). -/
  | sendComplete (p : Phase)
  /-- RELAY_END (R52). -/
  | relayEnd (p : Phase)
  /-- SLOT_PLANNED_END (R55). -/
  | slotPlannedEnd (p : Phase)
  /-- LINE_FRAME_TAKEN: a frame is taken at the present crossing, its completion crossing (R88). -/
  | lineFrameTaken (p : Phase) (f : RxFrame)
  /-- LINK_BYTE_RECEIVED (R143). -/
  | linkByteReceived (b : Byte)
  /-- FRONT_END_FRAME_COMPLETE: a frame completes between crossings and waits (R88). -/
  | frontEndFrameComplete (p : Phase) (f : RxFrame)
  /-- SUBCOUNT_ADVANCE (R137). -/
  | subcountAdvance
deriving DecidableEq, Repr

end Sys2Proof
end

