-- ==== Sys2Proof/Config.lean ====
section
/-! DEFINITION. What one manufacture of the part fixes, the capacities and limits the rules state as numbers, and the
free values. A free value has no body, so nothing can be proved about it and a claim holds whatever it is. -/

namespace Sys2Proof.Config

/-- The number behind the design level, fixed for a given manufacture of the part (R153). Free value. -/
opaque designSeed : Nat

/-- The design level GET_IDENTITY reports: 1 to 255, otherwise unstated (R153). -/
def designLevel : Nat := designSeed % 255 + 1

/-- The `n`-th choice among orders of events that the rules leave open with the words "either may be taken first" or by
stating no order (R91, R119, R120). Free value. -/
opaque freePick : Nat → Nat

/-- Capacity of the order table (R1). -/
def orderCapacity : Nat := 32
/-- Entries of the directory (R27). -/
def houseCapacity : Nat := 480
/-- Number of groups (00_scope.md). -/
def groupCount : Nat := 16
/-- Ranges of the freeze table (R43). -/
def freezeCapacity : Nat := 4
/-- Records of a miss list (R5). -/
def missCapacity : Nat := 24
/-- Notices of the notice queue (R150). -/
def noticeCapacity : Nat := 16
/-- Greatest reading of the seconds clock, and the bound of every stored clock value (R137). -/
def maxSeconds : Nat := 4294967295
/-- Greatest distance of a stored expiry from now (R11). -/
def maxExpiryAhead : Nat := 604800
/-- Greatest value of a 16-bit statistics count or delay field (R66, R92). -/
def maxCount : Nat := 65535
/-- Shortest and longest interval in range, in µs (R131). -/
def minInterval : Nat := 8000
def maxInterval : Nat := 12500
/-- Time without an accepted crossing after which a PRESENT phase is LOST, in µs (R134). -/
def lossLimit : Nat := 25000
/-- In-range intervals in a row that a return needs (R135). -/
def returnGoal : Nat := 64
/-- Intervals in a full history (R133). -/
def historyLength : Nat := 16
/-- Duration of the QUIET release timer, in µs (R140). -/
def quietRelease : Nat := 1000000

end Sys2Proof.Config
end

