-- ==== Sys2Proof/Machine/State.lean ====
section
/-! DEFINITION. The state of the JK-340, block by block as Table 0-1 divides it, as plain data, and its value after reset.

Clock seconds, timebase readings, intervals, counts and directory indices are natural numbers; tags, addresses, half-cycle
counters, admission sequences and group sets are the words the rules compute on. What follows from other state (the line
state and the in-service order of a phase, R68 and R70) is computed and not stored. -/

namespace Sys2Proof.Machine

/-- One value for each phase. -/
structure Tri (α : Type) where
  a : α
  b : α
  c : α
deriving DecidableEq, Repr

/-! ### Order Manager -/

/-- Relay values (00_scope.md). -/
inductive RelayValue where
  | shed | on
deriving DecidableEq, Repr

/-- Confirmation policy of an order (Table 1-1). -/
inductive Policy where
  | none | all
deriving DecidableEq, Repr

/-- Direction of a sweep (Table 1-1). -/
inductive Direction where
  | ascending | descending
deriving DecidableEq, Repr

/-- The kind of an order with the fields its kind has (R2): group and band, group, relay value and restore minutes, or
the target's directory index. -/
inductive OrderBody where
  | band (group : Fin 16) (band : Nat)
  | relay (group : Fin 16) (value : RelayValue) (restore : Option Nat)
  | query (target : Nat)
deriving DecidableEq, Repr

/-- Order states (Table 1-6). -/
inductive OrderState where
  | waiting | running | closing | complete | partly | expired | superseded | cancelled
deriving DecidableEq, Repr

/-- Closing reasons (R15). -/
inductive Reason where
  | expired | superseded | cancelled
deriving DecidableEq, Repr

/-- Stages of an order on a phase (Table 1-2). -/
inductive Stage where
  | notInvolved | queued | serving | paused | done | stopped
deriving DecidableEq, Repr

/-- A sweep's cursor: a directory index, or END (Table 1-2). -/
inductive Cursor where
  | at (index : Nat)
  | atEnd
deriving DecidableEq, Repr

/-- Phase progress of an order (Table 1-2). -/
structure Progress where
  stage : Stage
  repeatsSent : Nat
  cursor : Cursor
  attempts : Nat
  confirmed : Nat
  override : Nat
  notMember : Nat
  noReply : Nat
  rejected : Nat
  vacant : Nat
  expected : Nat
  inFlight : Bool
deriving DecidableEq, Repr

/-- Miss reasons (Table 1-3). -/
inductive MissReason where
  | noReply | override | notMember | rejected | vacant
deriving DecidableEq, Repr

/-- A miss record (Table 1-3). -/
structure Miss where
  index : Nat
  address : Addr
  phase : Phase
  reason : MissReason
deriving DecidableEq, Repr

/-- A query result (Table 1-4). -/
structure QueryResult where
  band : Option Nat
  relay : Option RelayValue
  groups : BitVec 16
  bandTag : Tag
  relayTag : Tag
  override : Bool
  margin : Nat
deriving DecidableEq, Repr

/-- Adoption mark of a BAND or RELAY record (R117). -/
inductive Mark where
  | pending | adopted | passed
deriving DecidableEq, Repr

/-- An order record (Table 1-1, with the adoption mark of R117, absent on a QUERY record). `reached` notes that the clock has
read the effective time or later while the order was live, at its admission or since: R11 and R67 make D 0 from then on,
whatever the clock reads afterwards (notes/assumptions/24.md). -/
structure Order where
  tag : Tag
  seq : BitVec 32
  body : OrderBody
  priority : Nat
  effective : Option Nat
  expiry : Nat
  repeatCount : Nat
  policy : Policy
  retryLimit : Nat
  direction : Direction
  state : OrderState
  closing : Option Reason
  finishedAt : Option Nat
  progress : Tri Progress
  misses : List Miss
  unlisted : Nat
  result : Option QueryResult
  mark : Option Mark
  reached : Bool
deriving DecidableEq, Repr

/-- State of the Order Manager (R1). -/
structure Orm where
  table : List Order
  tagCounter : Tag
  seqCounter : BitVec 32
  floor : Nat
deriving DecidableEq, Repr

/-! ### House Directory -/

/-- Health of a house (Table 2-2). -/
inductive Health where
  | good | weak | silent
deriving DecidableEq, Repr

/-- An occupied directory entry (Table 2-1). A last margin of `none` is UNKNOWN. -/
structure House where
  address : Addr
  phase : Phase
  groups : BitVec 16
  route : List Nat
  refCount : Nat
  missCount : Nat
  health : Health
  margin : Option Nat
deriving DecidableEq, Repr

/-- Mode of a freeze range (Table 2-3). -/
inductive FreezeMode where
  | soft | hard
deriving DecidableEq, Repr

/-- A freeze range (Table 2-3). -/
structure Freeze where
  first : Nat
  last : Nat
  mode : FreezeMode
deriving DecidableEq, Repr

/-- State of the House Directory (R27): the occupied entries by rising index, and the freeze table. An index that is not
listed is a vacant entry, all of whose fields stand at the vacant values of Table 2-1. -/
structure Dir where
  houses : List (Nat × House)
  freezes : List Freeze
deriving DecidableEq, Repr

/-! ### Line Controllers -/

/-- What a slot or a staged frame works for (Table 3-4). -/
inductive Work where
  | order (tag : Tag)
  | refresh (g : Fin 16)
deriving DecidableEq, Repr

/-- The piece of the work a frame carries (Table 3-4, Table 5-1). -/
inductive Step where
  | repeatNo (n : Nat)
  | attempt (index n : Nat)
  | query (index n : Nat)
  | refresh
deriving DecidableEq, Repr

/-- An outbound frame's fields as composed (Tables 11-10 and 11-11). An absent standing part of a REFRESH is `none`. -/
inductive Content where
  | groupBand (site : Addr) (group : Fin 16) (tag : Tag) (band delay : Nat)
  | groupRelay (site : Addr) (group : Fin 16) (tag : Tag) (value : RelayValue) (restore delay : Nat)
  | refresh (site : Addr) (group : Fin 16) (band : Option (Nat × Tag)) (relay : Option (RelayValue × Tag)) (minutes : Nat)
  | directBand (site target : Addr) (hops : List Addr) (tag : Tag) (band delay attempt retryLimit : Nat)
  | directRelay (site target : Addr) (hops : List Addr) (tag : Tag) (value : RelayValue)
      (restore delay attempt retryLimit : Nat)
  | query (site target : Addr) (hops : List Addr) (tagLow : Byte)
deriving DecidableEq, Repr

/-- A composed frame in a frame buffer (Table 3-4). `route` holds the repeaters' directory indices; their addresses
stand in the content. -/
structure Frame where
  work : Work
  step : Step
  content : Content
  target : Option Nat
  route : List Nat
  guard : Nat
  carrier : Nat
  hops : Nat
  replyLen : Option Nat
  marginLen : Option Nat
  planned : Nat
  composedAt : Hc
  plannedStart : Hc
  version : Option (BitVec 16)
deriving DecidableEq, Repr

/-- Where an order's work on a phase stands: the cursor, and attempts at cursor. -/
structure Place where
  cursor : Cursor
  attempts : Nat
deriving DecidableEq, Repr

/-- The on-line buffer: the frame of the slot in progress, its start crossing, the allowance of the visit its attempt
belongs to, fixed at that crossing (R56, R102; absent for a broadcast slot), and the place at which the slot found its order,
to which an abort puts it back (R84, `before`, the model's own item, notes/assumptions/25.md; absent for a refresh). -/
structure OnLine where
  frame : Frame
  start : Hc
  allowance : Option Nat
  before : Option Place
deriving DecidableEq, Repr

/-- Slot segments (R49); `none` is NONE. -/
inductive Segment where
  | none | guard | send | relay | listen
deriving DecidableEq, Repr

/-- A blocking-cause set (R69). -/
structure Causes where
  site : Bool
  lost : Bool
  quiet : Bool
  held : Bool
deriving DecidableEq, Repr

/-- Phase statistics (R92). A last reply quality of `none` is UNKNOWN. -/
structure Stats where
  framesSent : Nat
  slotsAborted : Nat
  repliesAccepted : Nat
  crcErrors : Nat
  stray : Nat
  foreign : Nat
  quality : Option Byte
deriving DecidableEq, Repr

/-- State of one line controller (Table 4-1), its transmit-enable output (LTXE_x, R71), the received frames its front-end has
completed and that wait for their completion crossing (R88), and the count of the moments at which what the front-end had
in reception was discarded (R82, R83; `cuts`, the model's own count, notes/assumptions/8.md). -/
structure Line where
  causes : Causes
  holdPending : Bool
  segment : Segment
  txEnable : Bool
  onLine : Option OnLine
  staged : Option Frame
  stats : Stats
  waiting : List RxFrame
  cuts : Nat
deriving DecidableEq, Repr

/-! ### Refresh Scheduler -/

/-- A group standing record (Table 6-1). -/
structure Standing where
  band : Option (Nat × Tag)
  relay : Option (RelayValue × Tag)
  restoreUntil : Option Nat
  nextRefresh : Option Nat
  changeCount : BitVec 16
deriving DecidableEq, Repr

/-- A refresh queue entry (Table 6-2). -/
structure QueueEntry where
  group : Fin 16
  queuedAt : Nat
deriving DecidableEq, Repr

/-- State of the Refresh Scheduler (R115, R121). -/
structure Rfs where
  standing : Vector Standing 16
  queues : Tri (List QueueEntry)
deriving DecidableEq, Repr

/-! ### Mains and Time Block -/

/-- Presence of a phase (Table 7-2). -/
inductive Presence where
  | lost | present
deriving DecidableEq, Repr

/-- State the Mains and Time Block holds for one phase (Table 7-1). -/
structure Mains where
  presence : Presence
  lastCrossing : Option Nat
  returnCount : Nat
  history : List Nat
  period : Nat
  hc : Hc
deriving DecidableEq, Repr

/-- The seconds clock (Table 7-3); `isSet` is the clock state. `mark` is the timebase reading from which its next
millisecond is counted (R137, R138). -/
structure Clock where
  isSet : Bool
  seconds : Nat
  subcount : Nat
  mark : Nat
deriving DecidableEq, Repr

/-- State of the Mains and Time Block: the phases, the 1 µs timebase, the seconds clock, the level of QUIET_IN, the
conditioned QUIET state (`true` is ASSERTED), and the timebase reading at which a running release timer ends (R140). -/
structure Mtb where
  phases : Tri Mains
  timebase : Nat
  clock : Clock
  quietIn : Bool
  quiet : Bool
  releaseEnd : Option Nat
deriving DecidableEq, Repr

/-! ### Request Link Controller -/

/-- Reply codes (Table 11-3). -/
inductive Code where
  | ok | clamped | badLength | badType | badField | badCrc | noSite | clockUnset | tableFull | noMembers | expiryPast
  | unknownTag | notFinished | alreadyFinished | frozen | busyEntry | inUse | duplicate | noRoute | vacant
  | siteWritten | siteFault | notEmpty
deriving DecidableEq, Repr

/-- A reply: its type byte, its code and the rest of its body (R147). -/
structure Reply where
  type : Byte
  code : Code
  rest : List Byte
deriving DecidableEq, Repr

/-- Cause of the last start (R144). -/
inductive StartCause where
  | power | soft
deriving DecidableEq, Repr

/-- The standing part and new value of a STANDING notice (R129). -/
inductive PartValue where
  | band (band : Nat)
  | relay (value : RelayValue)
deriving DecidableEq, Repr

/-- Cause of a STANDING notice (R129). -/
inductive StandingCause where
  | adopted | restored
deriving DecidableEq, Repr

/-- Notices (Table 8-2). -/
inductive Notice where
  | started (cause : StartCause)
  | orderEnd (tag : Tag) (state : OrderState)
  | phase (p : Phase) (presence : Presence) (period : Nat)
  | quiet (asserted : Bool)
  | health (index : Nat) (address : Addr) (health : Health) (missCount : Nat)
  | refreshLate (g : Fin 16) (p : Phase)
  | standing (g : Fin 16) (value : PartValue) (tag : Tag) (cause : StandingCause)
deriving DecidableEq, Repr

/-- State of the receiver: HUNT, or RECORD with the bytes received after the SOF (R143). -/
inductive Receiver where
  | hunt
  | record (bytes : List Byte)
deriving DecidableEq, Repr

/-- Stage of the request in processing (R144). -/
inductive ReqStage where
  | handling
  | owed (reply : Reply)
deriving DecidableEq, Repr

/-- The request in processing (R144). -/
structure Processing where
  record : Record
  stage : ReqStage
deriving DecidableEq, Repr

/-- A record on the transmitter. -/
inductive Outgoing where
  | reply (r : Reply)
  | notice (n : Notice)
deriving DecidableEq, Repr

/-- The transmitter (R149). -/
inductive Transmitter where
  | free
  | sending (r : Outgoing)
deriving DecidableEq, Repr

/-- State of the Request Link Controller (Table 8-1). -/
structure Rlc where
  receiver : Receiver
  processing : Option Processing
  holding : Option Record
  transmitter : Transmitter
  notices : List Notice
  overrun : Bool
  noticeLost : Bool
  startCause : StartCause
deriving DecidableEq, Repr

/-! ### Site Code Store and parameters -/

/-- Store states (Table 9-2). -/
inductive StoreState where
  | blank | written | fault
deriving DecidableEq, Repr

/-- Content of the store's non-volatile mark cells (R160). -/
inductive MarkCells where
  | unprogrammed | written | fault | other
deriving DecidableEq, Repr

/-- Content of the store's non-volatile code cells (R160). -/
inductive CodeCells where
  | unprogrammed
  | holds (code : Addr)
  | partly
deriving DecidableEq, Repr

/-- State of the Site Code Store: its state, its code, its cells, and the code being programmed, if any (R160, R161). -/
structure Scs where
  state : StoreState
  code : Addr
  markCells : MarkCells
  codeCells : CodeCells
  programming : Option Addr
deriving DecidableEq, Repr

/-- The configuration parameters (Table 9-1). -/
structure Params where
  guard : Nat
  margin : Nat
  refreshPeriod : Nat
  lead : Nat
  tagBase : Nat
deriving DecidableEq, Repr

/-! ### The whole machine -/

/-- The state of the part, with the queue of commands that are waiting and the model's own count of the free choices
taken so far (`picks`, DESIGN CHOICE, notes/assumptions/3.md). -/
structure State where
  pending : List Instr
  orm : Orm
  dir : Dir
  lines : Tri Line
  rfs : Rfs
  mtb : Mtb
  rlc : Rlc
  scs : Scs
  params : Params
  picks : Nat
deriving DecidableEq, Repr

/-- Faults. No rule of the part stops it, and every command has its effect in every state, so there is none. -/
inductive Fault where
deriving DecidableEq, Repr

/-- Refusals. -/
inductive Refusal where
  /-- Raised by `exec` alone, for a command that has no meaning yet. Safe: the machine stops. No arm raises it. -/
  | notModelled (mnemonic : String)
deriving DecidableEq, Repr

/-! ### Reset -/

/-- Statistics after power-up and RESET (R68). -/
def Stats.zero : Stats := ⟨0, 0, 0, 0, 0, 0, none⟩

/-- A line controller after power-up: BLOCKED by LOST, by SITE unless the store is WRITTEN, and by QUIET if sampled
asserted (Table 4-1, Table 9-3). -/
def Line.powerUp (site quiet : Bool) : Line where
  causes := ⟨site, true, quiet, false⟩
  holdPending := false
  segment := .none
  txEnable := false
  onLine := none
  staged := none
  stats := Stats.zero
  waiting := []
  cuts := 0

/-- What the Mains and Time Block holds for a phase after power-up (Table 7-1). -/
def Mains.powerUp : Mains := ⟨.lost, none, 0, [], 10000, 0⟩

/-- A standing record after power-up (Table 6-1). -/
def Standing.absent : Standing := ⟨none, none, none, none, 0⟩

/-- The parameters' defaults (Table 9-1). -/
def Params.default : Params := ⟨2, 1, 900, 600, 1⟩

/-- The part at the release of POR_IN, from what its store was found to hold and the sampled level of QUIET_IN
(Table 9-3): STARTED (POWER) stands in the notice queue. The timebase is started at power-up, and no rule gives the reading
it starts at; it starts at 0 here (DESIGN CHOICE, notes/assumptions/1.md). -/
def State.powerUp (store : Scs) (quiet : Bool) : State where
  pending := []
  orm := ⟨[], 1, 0, 7⟩
  dir := ⟨[], []⟩
  lines :=
    let l := Line.powerUp (decide (store.state ≠ .written)) quiet
    ⟨l, l, l⟩
  rfs := ⟨Vector.replicate 16 Standing.absent, ⟨[], [], []⟩⟩
  mtb :=
    { phases := ⟨Mains.powerUp, Mains.powerUp, Mains.powerUp⟩
      timebase := 0
      clock := ⟨false, 0, 0, 0⟩
      quietIn := quiet
      quiet := quiet
      releaseEnd := none }
  rlc := ⟨.hunt, none, none, .free, [.started .power], false, false, .power⟩
  scs := store
  params := Params.default
  picks := 0

/-- A store that has never been programmed (R160). -/
def Scs.blank : Scs := ⟨.blank, 0, .unprogrammed, .unprogrammed, none⟩

/-- The machine right after reset: power-up of a new part, whose store is BLANK, with QUIET_IN sampled released
(DESIGN CHOICE for the store's cells and the level of QUIET_IN, notes/assumptions/1.md). -/
def State.reset : State := State.powerUp Scs.blank false

end Sys2Proof.Machine
end

