-- ==== Sys2Proof/Machine/Operands.lean ====
section
/-! DEFINITION. The operand forms: byte order, field codes, the CRC, and the request bodies of the link (11_formats.md). -/

namespace Sys2Proof.Machine

/-! ### Byte order (R164: most significant byte at the lowest offset) -/

/-- A 16-bit field's bytes. -/
def bytes16 (v : BitVec 16) : List Byte := [v.extractLsb' 8 8, v.extractLsb' 0 8]

/-- A 24-bit field's bytes. -/
def bytes24 (v : BitVec 24) : List Byte := [v.extractLsb' 16 8, v.extractLsb' 8 8, v.extractLsb' 0 8]

/-- A 32-bit field's bytes. -/
def bytes32 (v : BitVec 32) : List Byte :=
  [v.extractLsb' 24 8, v.extractLsb' 16 8, v.extractLsb' 8 8, v.extractLsb' 0 8]

/-- A number as a field of one, two or four bytes. -/
def num8 (n : Nat) : Byte := BitVec.ofNat 8 n
def num16 (n : Nat) : List Byte := bytes16 (BitVec.ofNat 16 n)
def num32 (n : Nat) : List Byte := bytes32 (BitVec.ofNat 32 n)

/-- The byte at an offset of a list; 0 past its end, where no rule reads. -/
def byteAt (l : List Byte) (i : Nat) : Byte := l.getD i 0

/-- Fields of two, three and four bytes at an offset. -/
def word16 (l : List Byte) (i : Nat) : BitVec 16 := byteAt l i ++ byteAt l (i + 1)
def word24 (l : List Byte) (i : Nat) : BitVec 24 := byteAt l i ++ byteAt l (i + 1) ++ byteAt l (i + 2)
def word32 (l : List Byte) (i : Nat) : BitVec 32 :=
  byteAt l i ++ byteAt l (i + 1) ++ byteAt l (i + 2) ++ byteAt l (i + 3)

/-- A flag byte the part writes: 00h clear, 01h set. Tables 11-1 and 11-8 give the 01h of the clock state and of the conditioned
QUIET state. For slot in flight, the override of a query result, hold pending, frozen and busy R164 says only that any value
other than 00h means set; the 01h the model writes for them is a DESIGN CHOICE (notes/assumptions/29.md). -/
def flagByte (b : Bool) : Byte := if b then 1 else 0

/-- A flag byte as received: 00h is clear, any other value set (R164). -/
def isSetFlag (b : Byte) : Bool := decide (b ≠ 0)

/-! ### CRC (R165) -/

/-- One bit of the CRC register's shift: generator x^16 + x^12 + x^5 + 1, most significant bit first. -/
def crcShift (r : BitVec 16) : BitVec 16 :=
  if r.msb then (r <<< 1) ^^^ 0x1021#16 else r <<< 1

/-- The register after `n` shifts. -/
def crcShifts : Nat → BitVec 16 → BitVec 16
  | 0, r => r
  | n + 1, r => crcShifts n (crcShift r)

/-- The register after one byte. -/
def crcByte (r : BitVec 16) (b : Byte) : BitVec 16 := crcShifts 8 (r ^^^ (b ++ 0#8))

/-- The CRC over a list of bytes: the register starts at FFFFh and the result is not inverted. -/
def crc16 (l : List Byte) : BitVec 16 := l.foldl crcByte 0xFFFF#16

/-! ### Field codes (Table 11-1) -/

def phaseCode : Phase → Byte
  | .a => 0x01
  | .b => 0x02
  | .c => 0x03

def phaseOf (b : Byte) : Option Phase :=
  if b = 0x01 then some .a else if b = 0x02 then some .b else if b = 0x03 then some .c else none

def RelayValue.code : RelayValue → Byte
  | .shed => 0x00
  | .on => 0x01

def relayOf (b : Byte) : Option RelayValue :=
  if b = 0x00 then some .shed else if b = 0x01 then some .on else none

/-- A band byte: 00h to 07h, otherwise absent (R6). -/
def bandOf (b : Byte) : Option Nat := if b.toNat ≤ 7 then some b.toNat else none

def Policy.code : Policy → Byte
  | .none => 0x00
  | .all => 0x01

def policyOf (b : Byte) : Option Policy :=
  if b = 0x00 then some .none else if b = 0x01 then some .all else none

def Direction.code : Direction → Byte
  | .ascending => 0x00
  | .descending => 0x01

def directionOf (b : Byte) : Option Direction :=
  if b = 0x00 then some .ascending else if b = 0x01 then some .descending else none

def OrderBody.kindCode : OrderBody → Byte
  | .band .. => 0x01
  | .relay .. => 0x02
  | .query .. => 0x03

def OrderState.code : OrderState → Byte
  | .waiting => 0x01
  | .running => 0x02
  | .closing => 0x03
  | .complete => 0x04
  | .partly => 0x05
  | .expired => 0x06
  | .superseded => 0x07
  | .cancelled => 0x08

def Reason.code : Reason → Byte
  | .expired => 0x01
  | .superseded => 0x02
  | .cancelled => 0x03

def MissReason.code : MissReason → Byte
  | .noReply => 0x01
  | .override => 0x02
  | .notMember => 0x03
  | .rejected => 0x04
  | .vacant => 0x05

def Stage.code : Stage → Byte
  | .notInvolved => 0x00
  | .queued => 0x01
  | .serving => 0x02
  | .paused => 0x03
  | .done => 0x04
  | .stopped => 0x05

def Cursor.field : Cursor → List Byte
  | .at i => num16 i
  | .atEnd => [0xFF, 0xFF]

def Health.code : Health → Byte
  | .good => 0x00
  | .weak => 0x01
  | .silent => 0x02

/-- A margin, with UNKNOWN written as FFh. -/
def marginCode : Option Nat → Byte
  | some m => num8 m
  | none => 0xFF

def FreezeMode.code : FreezeMode → Byte
  | .soft => 0x00
  | .hard => 0x01

def freezeModeOf (b : Byte) : Option FreezeMode :=
  if b = 0x00 then some .soft else if b = 0x01 then some .hard else none

def StartCause.code : StartCause → Byte
  | .power => 0x01
  | .soft => 0x02

def StandingCause.code : StandingCause → Byte
  | .adopted => 0x01
  | .restored => 0x02

def StoreState.code : StoreState → Byte
  | .blank => 0x00
  | .written => 0x01
  | .fault => 0x02

def Presence.code : Presence → Byte
  | .lost => 0x00
  | .present => 0x01

/-- Line states (R70), computed from the segment and the causes. -/
inductive LineState where
  | idle | slot | blocked
deriving DecidableEq, Repr

def LineState.code : LineState → Byte
  | .idle => 0x00
  | .slot => 0x01
  | .blocked => 0x02

/-- Hold states of the PHASE_HOLD and PHASE_RESUME replies (R86, R87). -/
inductive HoldState where
  | none | pending | held
deriving DecidableEq, Repr

def HoldState.code : HoldState → Byte
  | .none => 0x00
  | .pending => 0x01
  | .held => 0x02

/-- A blocking-cause set as one byte: bit 0 SITE, bit 1 LOST, bit 2 QUIET, bit 3 HELD. -/
def Causes.code (c : Causes) : Byte :=
  num8 (c.site.toNat + 2 * c.lost.toNat + 4 * c.quiet.toNat + 8 * c.held.toNat)

/-- Reply codes (Table 11-3). -/
def Code.byte : Code → Byte
  | .ok => 0x00
  | .clamped => 0x01
  | .badLength => 0x10
  | .badType => 0x11
  | .badField => 0x12
  | .badCrc => 0x13
  | .noSite => 0x20
  | .clockUnset => 0x21
  | .tableFull => 0x22
  | .noMembers => 0x23
  | .expiryPast => 0x24
  | .unknownTag => 0x30
  | .notFinished => 0x31
  | .alreadyFinished => 0x32
  | .frozen => 0x40
  | .busyEntry => 0x41
  | .inUse => 0x42
  | .duplicate => 0x43
  | .noRoute => 0x44
  | .vacant => 0x45
  | .siteWritten => 0x50
  | .siteFault => 0x51
  | .notEmpty => 0x52

/-! ### Notices and outgoing records (Table 8-2, Tables 11-2 and 11-8) -/

def Notice.typeByte : Notice → Byte
  | .started .. => 0xC0
  | .orderEnd .. => 0xC1
  | .phase .. => 0xC2
  | .quiet .. => 0xC3
  | .health .. => 0xC4
  | .refreshLate .. => 0xC5
  | .standing .. => 0xC6

def PartValue.codes : PartValue → List Byte
  | .band b => [0x01, num8 b]
  | .relay v => [0x02, v.code]

def Notice.body : Notice → List Byte
  | .started cause => [cause.code]
  | .orderEnd tag st => bytes16 tag ++ [st.code]
  | .phase p pres period => [phaseCode p, pres.code] ++ num16 period
  | .quiet asserted => [flagByte asserted]
  | .health i addr h m => num16 i ++ bytes24 addr ++ [h.code, num8 m]
  | .refreshLate g p => [num8 g.val, phaseCode p]
  | .standing g v tag cause => [num8 g.val] ++ v.codes ++ bytes16 tag ++ [cause.code]

/-- The type byte and body of a record the part sends; a reply's body opens with its code (R142). -/
def Outgoing.typeByte : Outgoing → Byte
  | .reply r => r.type
  | .notice n => n.typeByte

def Outgoing.body : Outgoing → List Byte
  | .reply r => r.code.byte :: r.rest
  | .notice n => n.body

/-- The bytes of a record of the given type and body after its SOF and before its CRC: those the CRC covers (R165). -/
def covered (type : Byte) (body : List Byte) : List Byte := num8 (body.length + 1) :: type :: body

/-- The bytes an outgoing record puts on LNK_TXD (Table 11-2). -/
def Outgoing.wire (o : Outgoing) : List Byte :=
  0xC3 :: covered o.typeByte o.body ++ bytes16 (crc16 (covered o.typeByte o.body))

/-! ### Request records (Table 8-3, Table 11-4) -/

/-- The catalogue: each request type with the length of its body (Tables 8-3 and 11-4). -/
def catalogue : List (Byte × Nat) :=
  [(0x01, 0), (0x02, 0), (0x03, 4), (0x04, 0), (0x05, 3), (0x06, 1), (0x07, 3),
   (0x10, 13), (0x11, 2), (0x12, 2), (0x13, 3), (0x14, 5), (0x15, 4),
   (0x20, 21), (0x21, 3), (0x22, 2), (0x23, 2), (0x24, 0), (0x25, 1),
   (0x30, 1), (0x31, 1), (0x32, 2), (0x33, 1), (0x3F, 0)]

/-- The body length Formats gives for a request type; `none` for a type outside the catalogue. -/
def bodyLength (type : Byte) : Option Nat := (catalogue.find? fun e => e.1 == type).map (·.2)

def putBytes (f : PutFields) : List Byte :=
  bytes16 f.index ++ bytes24 f.address ++ [f.phase] ++ bytes16 f.groups ++ [f.routeCount] ++ bytes16 f.hop1
    ++ bytes16 f.hop2

def putFieldsOf (b : List Byte) : PutFields :=
  ⟨word16 b 0, word24 b 2, byteAt b 5, word16 b 6, byteAt b 8, word16 b 9, word16 b 11⟩

def submitBytes (f : SubmitFields) : List Byte :=
  [f.kind, f.group] ++ bytes16 f.target ++ [f.value] ++ bytes16 f.restore ++ [f.priority, f.effFlag]
    ++ bytes32 f.effective ++ bytes32 f.expiry ++ [f.repeats, f.policy, f.retryLimit, f.direction]

def submitFieldsOf (b : List Byte) : SubmitFields :=
  ⟨byteAt b 0, byteAt b 1, word16 b 2, byteAt b 4, word16 b 5, byteAt b 7, byteAt b 8, word32 b 9, word32 b 13,
   byteAt b 17, byteAt b 18, byteAt b 19, byteAt b 20⟩

/-- The type byte of a request (Table 8-3). -/
def requestType : Request → Byte
  | .getStatus => 0x01
  | .getIdentity => 0x02
  | .setTime _ => 0x03
  | .getTime => 0x04
  | .setConfig _ _ => 0x05
  | .getConfig _ => 0x06
  | .writeSite _ => 0x07
  | .housePut _ => 0x10
  | .houseGet _ => 0x11
  | .houseRemove _ => 0x12
  | .houseFind _ => 0x13
  | .freeze _ _ _ => 0x14
  | .thaw _ _ => 0x15
  | .orderSubmit _ => 0x20
  | .orderRead _ _ => 0x21
  | .orderCancel _ => 0x22
  | .orderRelease _ => 0x23
  | .orderList => 0x24
  | .setFloor _ => 0x25
  | .phaseHold _ => 0x30
  | .phaseResume _ => 0x31
  | .phaseStats _ _ => 0x32
  | .standingRead _ => 0x33
  | .reset => 0x3F

/-- The body of a request (Tables 11-4 to 11-6). -/
def requestBody : Request → List Byte
  | .getStatus => []
  | .getIdentity => []
  | .setTime t => bytes32 t
  | .getTime => []
  | .setConfig id v => id :: bytes16 v
  | .getConfig id => [id]
  | .writeSite c => bytes24 c
  | .housePut f => putBytes f
  | .houseGet i => bytes16 i
  | .houseRemove i => bytes16 i
  | .houseFind a => bytes24 a
  | .freeze f l m => bytes16 f ++ bytes16 l ++ [m]
  | .thaw f l => bytes16 f ++ bytes16 l
  | .orderSubmit f => submitBytes f
  | .orderRead t x => bytes16 t ++ [x]
  | .orderCancel t => bytes16 t
  | .orderRelease t => bytes16 t
  | .orderList => []
  | .setFloor f => [f]
  | .phaseHold p => [p]
  | .phaseResume p => [p]
  | .phaseStats p c => [p, c]
  | .standingRead g => [g]
  | .reset => []

/-- The record that carries a request with the right CRC (Table 11-2). -/
def requestRecord (r : Request) : Record :=
  .whole (requestType r) (requestBody r) (crc16 (covered (requestType r) (requestBody r)))

/-- The request a catalogued type and a body of its length spell. -/
def requestOf (type : Byte) (b : List Byte) : Option Request :=
  if type = 0x01 then some .getStatus
  else if type = 0x02 then some .getIdentity
  else if type = 0x03 then some (.setTime (word32 b 0))
  else if type = 0x04 then some .getTime
  else if type = 0x05 then some (.setConfig (byteAt b 0) (word16 b 1))
  else if type = 0x06 then some (.getConfig (byteAt b 0))
  else if type = 0x07 then some (.writeSite (word24 b 0))
  else if type = 0x10 then some (.housePut (putFieldsOf b))
  else if type = 0x11 then some (.houseGet (word16 b 0))
  else if type = 0x12 then some (.houseRemove (word16 b 0))
  else if type = 0x13 then some (.houseFind (word24 b 0))
  else if type = 0x14 then some (.freeze (word16 b 0) (word16 b 2) (byteAt b 4))
  else if type = 0x15 then some (.thaw (word16 b 0) (word16 b 2))
  else if type = 0x20 then some (.orderSubmit (submitFieldsOf b))
  else if type = 0x21 then some (.orderRead (word16 b 0) (byteAt b 2))
  else if type = 0x22 then some (.orderCancel (word16 b 0))
  else if type = 0x23 then some (.orderRelease (word16 b 0))
  else if type = 0x24 then some .orderList
  else if type = 0x25 then some (.setFloor (byteAt b 0))
  else if type = 0x30 then some (.phaseHold (byteAt b 0))
  else if type = 0x31 then some (.phaseResume (byteAt b 0))
  else if type = 0x32 then some (.phaseStats (byteAt b 0) (byteAt b 1))
  else if type = 0x33 then some (.standingRead (byteAt b 0))
  else if type = 0x3F then some .reset
  else none

/-- What the envelope checks of R146 make of a record: the request, or the ERROR reply's code and type byte. -/
inductive Envelope where
  | request (r : Request)
  | error (code : Code) (type : Byte)
deriving DecidableEq, Repr

/-- The envelope checks, in order (R146, R166). -/
def checkEnvelope : Record → Envelope
  | .badLength _ => .error .badLength 0
  | .whole type body crc =>
    if crc ≠ crc16 (covered type body) then .error .badCrc type
    else match bodyLength type, requestOf type body with
      | some n, some r => if body.length = n then .request r else .error .badLength type
      | _, _ => .error .badType type

/-! ### Line frames (R167, R168) -/

/-- The hop count a kind byte carries in bits 3–2. -/
def kindHops (kind : Byte) : Nat := (kind.extractLsb' 2 2).toNat

/-- The frame kind in bits 7–4 (Table 11-9). -/
def kindCode (kind : Byte) : Nat := (kind.extractLsb' 4 4).toNat

/-- A line frame's length in bytes from its kind byte (R167). -/
def frameLength (kind : Byte) : Nat :=
  match kindCode kind with
  | 1 => 12
  | 2 => 14
  | 3 => 15
  | 4 => 16 + 3 * kindHops kind
  | 5 => 18 + 3 * kindHops kind
  | 6 => 10 + 3 * kindHops kind
  | 9 => 14
  | 10 => 19
  | _ => 12

/-- The kind byte the part sends: kind, hop count, relay position 0 (R167). -/
def kindByte (code hops : Nat) : Byte := num8 (16 * code + 4 * hops)

/-- A standing value and tag as a REFRESH carries them: code FFh and tag 0 when absent (R125). -/
def bandField : Option (Nat × Tag) → List Byte
  | some (b, t) => num8 b :: bytes16 t
  | none => [0xFF, 0, 0]

def relayField : Option (RelayValue × Tag) → List Byte
  | some (v, t) => v.code :: bytes16 t
  | none => [0xFF, 0, 0]

/-- The bytes of a frame before its CRC (Tables 11-10 and 11-11). -/
def Content.plain : Content → List Byte
  | .groupBand site g tag band d =>
    kindByte 1 0 :: bytes24 site ++ [num8 g.val] ++ bytes16 tag ++ [num8 band] ++ num16 d
  | .groupRelay site g tag v restore d =>
    kindByte 2 0 :: bytes24 site ++ [num8 g.val] ++ bytes16 tag ++ [v.code] ++ num16 restore ++ num16 d
  | .refresh site g band relay minutes =>
    kindByte 3 0 :: bytes24 site ++ [num8 g.val] ++ bandField band ++ relayField relay ++ num16 minutes
  | .directBand site target hops tag band d n limit =>
    kindByte 4 hops.length :: bytes24 site ++ bytes24 target ++ hops.flatMap bytes24 ++ bytes16 tag ++ [num8 band]
      ++ num16 d ++ [num8 n, num8 limit]
  | .directRelay site target hops tag v restore d n limit =>
    kindByte 5 hops.length :: bytes24 site ++ bytes24 target ++ hops.flatMap bytes24 ++ bytes16 tag ++ [v.code]
      ++ num16 restore ++ num16 d ++ [num8 n, num8 limit]
  | .query site target hops tagLow =>
    kindByte 6 hops.length :: bytes24 site ++ bytes24 target ++ hops.flatMap bytes24 ++ [tagLow]

/-- The bytes of a frame as sent, its CRC last (R165). -/
def Content.bytes (c : Content) : List Byte := c.plain ++ bytes16 (crc16 c.plain)

/-- The hop count of a frame's content: the number of repeaters it names. -/
def Content.hopCount : Content → Nat
  | .directBand _ _ hops _ _ _ _ _ => hops.length
  | .directRelay _ _ hops _ _ _ _ _ _ => hops.length
  | .query _ _ hops _ => hops.length
  | _ => 0

/-- The length of a frame in bytes (Table 3-1). -/
def Content.size (c : Content) : Nat :=
  match c with
  | .groupBand .. => 12
  | .groupRelay .. => 14
  | .refresh .. => 15
  | .directBand .. => 16 + 3 * c.hopCount
  | .directRelay .. => 18 + 3 * c.hopCount
  | .query .. => 10 + 3 * c.hopCount

/-- The carrier time in half-cycles of a frame or reply of `bytes` bytes (R47). -/
def carrierOf (bytes : Nat) : Nat := (bytes + 2) / 3

/-- The carrier time of the reply a frame expects: 5 for SHORT, 7 for LONG, none for a broadcast (R48). -/
def Content.replyCarrier : Content → Option Nat
  | .directBand .. => some (carrierOf 14)
  | .directRelay .. => some (carrierOf 14)
  | .query .. => some (carrierOf 19)
  | _ => none

/-- The house address of an addressed frame, as composed. -/
def Content.address : Content → Option Addr
  | .directBand _ target _ _ _ _ _ _ => some target
  | .directRelay _ target _ _ _ _ _ _ _ => some target
  | .query _ target _ _ => some target
  | _ => none

/-- The kind code of the reply a frame expects (Table 11-9). -/
def Content.replyKind : Content → Option Nat
  | .directBand .. => some 9
  | .directRelay .. => some 9
  | .query .. => some 10
  | _ => none

/-- What the accounting of a slot takes from an accepted reply (R90, Table 11-12). -/
inductive LineReply where
  | short (status : Byte) (tag : Tag) (margin : Nat)
  | long (band relay : Byte) (groups : BitVec 16) (bandTag relayTag : Tag) (override : Bool) (margin : Nat)
deriving DecidableEq, Repr

/-- The margin of a reply: bits 5–0 of its margin field (R34). -/
def marginOf (b : Byte) : Nat := (b.extractLsb' 0 6).toNat

/-- A SHORT reply's fields (Table 11-12). -/
def shortReply (b : List Byte) : LineReply := .short (byteAt b 7) (word16 b 8) (marginOf (byteAt b 10))

/-- A LONG reply's fields (Table 11-12). -/
def longReply (b : List Byte) : LineReply :=
  .long (byteAt b 7) (byteAt b 8) (word16 b 9) (word16 b 11) (word16 b 13) (byteAt b 15).msb (marginOf (byteAt b 15))

def LineReply.margin : LineReply → Nat
  | .short _ _ m => m
  | .long _ _ _ _ _ _ m => m

end Sys2Proof.Machine
end

