-- ==== Sys2Proof/Machine/Ops.lean ====
section
/-! DEFINITION. The named operations over the blocks' state: access by phase, tag, index and group; posting a notice;
choosing among open orders of events; and the transmitter's choice. -/

namespace Sys2Proof.Machine

/-! ### Phases -/

/-- The three phases in order. -/
def allPhases : List Phase := [.a, .b, .c]

def Tri.get {α : Type} (t : Tri α) : Phase → α
  | .a => t.a
  | .b => t.b
  | .c => t.c

def Tri.set {α : Type} (t : Tri α) (p : Phase) (x : α) : Tri α :=
  match p with
  | .a => ⟨x, t.b, t.c⟩
  | .b => ⟨t.a, x, t.c⟩
  | .c => ⟨t.a, t.b, x⟩

/-- Apply a change to every phase's value. -/
def Tri.map {α β : Type} (f : α → β) (t : Tri α) : Tri β := ⟨f t.a, f t.b, f t.c⟩

def Tri.toList {α : Type} (t : Tri α) : List α := [t.a, t.b, t.c]

def State.line (s : State) (p : Phase) : Line := s.lines.get p

/-- Change the line controller of one phase. -/
def State.modLine (s : State) (p : Phase) (f : Line → Line) : State :=
  { s with lines := s.lines.set p (f (s.lines.get p)) }

/-- Change all three line controllers alike. -/
def State.mapLines (s : State) (f : Line → Line) : State := { s with lines := s.lines.map f }

def State.mains (s : State) (p : Phase) : Mains := s.mtb.phases.get p

def State.setMains (s : State) (p : Phase) (m : Mains) : State :=
  { s with mtb := { s.mtb with phases := s.mtb.phases.set p m } }

def State.queue (s : State) (p : Phase) : List QueueEntry := s.rfs.queues.get p

def State.setQueue (s : State) (p : Phase) (q : List QueueEntry) : State :=
  { s with rfs := { s.rfs with queues := s.rfs.queues.set p q } }

/-- The reading "now" of the seconds clock (R137). -/
def State.now (s : State) : Nat := s.mtb.clock.seconds

/-- The timebase moves on to a reading and never back. -/
def State.advanceTo (s : State) (t : Nat) : State :=
  { s with mtb := { s.mtb with timebase := max s.mtb.timebase t } }

/-- A clock value that would exceed the clock's range is stored as its greatest value (R11, R119, R122). -/
def capSeconds (n : Nat) : Nat := min n Config.maxSeconds

/-! ### Notices (R150) -/

/-- Post a notice: it joins the end of the queue, or is dropped with the notice-lost flag set when the queue holds 16. -/
def Rlc.post (r : Rlc) (n : Notice) : Rlc :=
  if r.notices.length < Config.noticeCapacity then { r with notices := r.notices ++ [n] }
  else { r with noticeLost := true }

def State.post (s : State) (n : Notice) : State := { s with rlc := s.rlc.post n }

/-! ### The transmitter's choice (R149) -/

/-- The record a FREE transmitter begins: an owed reply, otherwise the oldest notice, which leaves the queue. -/
def Rlc.choose (r : Rlc) : Rlc :=
  match r.transmitter with
  | .sending _ => r
  | .free =>
    match r.processing with
    | some ⟨_, .owed reply⟩ => { r with transmitter := .sending (.reply reply) }
    | _ =>
      match r.notices with
      | n :: rest => { r with transmitter := .sending (.notice n), notices := rest }
      | [] => r

/-- The transmitter begins a record at once whenever it is FREE (R149): the last act of every command but POWER_UP. An event that
posts several notices posts them all before a FREE transmitter begins the first, so that R150 drops the 17th of one event that
finds the queue empty; whether the first leaves the queue before the later ones are posted is left open (DESIGN CHOICE,
notes/assumptions/27.md). -/
def State.pump (s : State) : State := { s with rlc := s.rlc.choose }

/-! ### Free choices -/

/-- A list in an order the rules leave open: each place is taken by a free pick from those that remain. A list of one or
no element has one order, and uses no pick. The count of picks taken is carried along. -/
def freeOrderFrom {α : Type} : Nat → List α → Nat → List α × Nat
  | 0, l, k => (l, k)
  | fuel + 1, l, k =>
    match l with
    | [] => ([], k)
    | [x] => ([x], k)
    | x :: rest =>
      let i := Config.freePick k % (rest.length + 1)
      let r := freeOrderFrom fuel ((x :: rest).eraseIdx i) (k + 1)
      ((x :: rest).getD i x :: r.1, r.2)

def freeOrder {α : Type} (l : List α) (k : Nat) : List α × Nat := freeOrderFrom l.length l k

/-- Do `f` for each element of `l`, in an order the rules leave open. -/
def State.forEachFree {α : Type} (s : State) (l : List α) (f : State → α → State) : State :=
  let r := freeOrder l s.picks
  r.1.foldl f { s with picks := r.2 }

/-! ### Order table -/

def State.findOrder (s : State) (tag : Tag) : Option Order := s.orm.table.find? fun o => o.tag == tag

/-- Change the record that holds a tag. -/
def State.modOrder (s : State) (tag : Tag) (f : Order → Order) : State :=
  { s with orm := { s.orm with table := s.orm.table.map fun o => if o.tag = tag then f o else o } }

/-- Change an order's progress on one phase. -/
def Order.modProgress (o : Order) (p : Phase) (f : Progress → Progress) : Order :=
  { o with progress := o.progress.set p (f (o.progress.get p)) }

def State.modProgress (s : State) (tag : Tag) (p : Phase) (f : Progress → Progress) : State :=
  s.modOrder tag fun o => o.modProgress p f

def OrderBody.group : OrderBody → Option (Fin 16)
  | .band g _ => some g
  | .relay g _ _ => some g
  | .query _ => none

/-- Whether two bodies are of one kind. -/
def OrderBody.sameKind (x y : OrderBody) : Bool := x.kindCode == y.kindCode

/-! ### Directory -/

/-- The occupied entry at an index; `none` for a vacant one. -/
def Dir.get (d : Dir) (i : Nat) : Option House := (d.houses.find? fun e => e.1 == i).map (·.2)

/-- Put an entry into the list, keeping the indices rising. -/
def insertHouse (i : Nat) (h : House) : List (Nat × House) → List (Nat × House)
  | [] => [(i, h)]
  | (j, k) :: rest =>
    if i < j then (i, h) :: (j, k) :: rest
    else if i = j then (i, h) :: rest
    else (j, k) :: insertHouse i h rest

def Dir.put (d : Dir) (i : Nat) (h : House) : Dir := { d with houses := insertHouse i h d.houses }

/-- Make an entry vacant. -/
def Dir.remove (d : Dir) (i : Nat) : Dir := { d with houses := d.houses.filter fun e => e.1 != i }

/-- Change an occupied entry; a vacant one stays vacant. -/
def Dir.modify (d : Dir) (i : Nat) (f : House → House) : Dir :=
  { d with houses := d.houses.map fun e => if e.1 = i then (e.1, f e.2) else e }

def State.house (s : State) (i : Nat) : Option House := s.dir.get i

/-! ### Standing records -/

def State.standing (s : State) (g : Fin 16) : Standing := s.rfs.standing[g]

def State.setStanding (s : State) (g : Fin 16) (x : Standing) : State :=
  { s with rfs := { s.rfs with standing := s.rfs.standing.set g x } }

/-! ### Frame buffers -/

/-- Empty the staged buffer of a phase. The discard counts as nothing (R60). -/
def Line.discardStaged (l : Line) : Line := { l with staged := none }

/-- Discard a staged frame composed for the given order (R15, R78). -/
def Line.discardStagedOf (l : Line) (tag : Tag) : Line :=
  match l.staged with
  | some f => if f.work = .order tag then l.discardStaged else l
  | none => l

/-! ### Statistics (R92) -/

/-- Advance a count that stands still at 65535. -/
def bump (n : Nat) : Nat := if n < Config.maxCount then n + 1 else n

def Line.countStats (l : Line) (f : Stats → Stats) : Line := { l with stats := f l.stats }

/-! ### Answers -/

/-- What an owner makes of a request: the reply code and the body that follows it (R147). -/
structure Answer where
  code : Code
  rest : List Byte
deriving DecidableEq, Repr

/-- An answer that carries its code alone. -/
def Answer.bare (c : Code) : Answer := ⟨c, []⟩

/-- The handling of a request by its owner: the state it leaves and the answer composed from it. -/
abbrev Handled := State × Answer

/-- A refused request changes nothing and draws its code alone. -/
def State.refuse (s : State) (c : Code) : Handled := (s, .bare c)

end Sys2Proof.Machine
end

