-- ==== Sys2Proof/Machine/Flags.lean ====
section
/-! DEFINITION. The tests and derived values the rules read: serial comparisons, health, membership, busy and frozen
entries, the line state, eligibility, urgency, and the clock's conditions. -/

namespace Sys2Proof.Machine

/-! ### Serial comparison (R7, R8) -/

/-- Tag `a` is newer than tag `b`: (a − b) modulo 65536 lies in 1 to 32767. -/
def tagNewer (a b : Tag) : Bool := decide (1 ≤ (a - b).toNat ∧ (a - b).toNat ≤ 32767)

/-- Sequence `a` is older than sequence `b`: (b − a) modulo 2^32 lies in 1 to 2147483647. -/
def seqOlder (a b : BitVec 32) : Bool := decide (1 ≤ (b - a).toNat ∧ (b - a).toNat ≤ 2147483647)

/-! ### Health (R33) -/

def healthOf (missCount : Nat) : Health :=
  if missCount ≤ 2 then .good else if missCount ≤ 7 then .weak else .silent

/-! ### Membership (R29) -/

def holdsGroup (h : House) (g : Fin 16) : Bool := h.groups.getLsbD g.val

/-- The entry is a member for the group on the phase. -/
def House.isMember (h : House) (g : Fin 16) (p : Phase) : Bool := h.phase == p && holdsGroup h g

def Dir.isMember (d : Dir) (g : Fin 16) (p : Phase) (i : Nat) : Bool :=
  match d.get i with
  | some h => h.isMember g p
  | none => false

/-- The indices of the members for a group on a phase. -/
def Dir.members (d : Dir) (g : Fin 16) (p : Phase) : List Nat :=
  (d.houses.filter fun e => e.2.isMember g p).map (·.1)

def Dir.hasMember (d : Dir) (g : Fin 16) (p : Phase) : Bool := d.houses.any fun e => e.2.isMember g p

/-- The first member at or beyond an index in the sweep direction (R98). -/
def Dir.firstFrom (d : Dir) (g : Fin 16) (p : Phase) (dirn : Direction) (i : Nat) : Option Nat :=
  match dirn with
  | .ascending => ((d.members g p).filter fun j => decide (i ≤ j)).min?
  | .descending => ((d.members g p).filter fun j => decide (j ≤ i)).max?

/-- The first member beyond an index in the sweep direction (R99). -/
def Dir.firstBeyond (d : Dir) (g : Fin 16) (p : Phase) (dirn : Direction) (i : Nat) : Option Nat :=
  match dirn with
  | .ascending => ((d.members g p).filter fun j => decide (i < j)).min?
  | .descending => ((d.members g p).filter fun j => decide (j < i)).max?

/-- The route of an entry; a vacant entry's is empty (R30, R38). -/
def Dir.routeOf (d : Dir) (i : Nat) : List Nat :=
  match d.get i with
  | some h => h.route
  | none => []

/-! ### Freeze table and busy entries (R36, R43) -/

def Freeze.covers (f : Freeze) (i : Nat) : Bool := decide (f.first ≤ i ∧ i ≤ f.last)

def Dir.frozen (d : Dir) (i : Nat) : Bool := d.freezes.any fun f => f.covers i

/-- A frame makes its target and its route's repeaters busy. -/
def Frame.names (f : Frame) (i : Nat) : Bool := decide (f.target = some i) || f.route.contains i

def Line.makesBusy (l : Line) (i : Nat) : Bool :=
  (match l.onLine with | some o => o.frame.names i | none => false)
    || (match l.staged with | some f => f.names i | none => false)

def State.busy (s : State) (i : Nat) : Bool := s.lines.toList.any fun l => l.makesBusy i

/-! ### Line state (R70) -/

def Causes.isEmpty (c : Causes) : Bool := !(c.site || c.lost || c.quiet || c.held)

/-- A slot is in progress while the segment is other than NONE. -/
def Line.inSlot (l : Line) : Bool := decide (l.segment ≠ .none)

def Line.state (l : Line) : LineState :=
  if l.inSlot then .slot else if l.causes.isEmpty then .idle else .blocked

def Line.holdState (l : Line) : HoldState :=
  if l.causes.held then .held else if l.holdPending then .pending else .none

/-! ### Orders -/

/-- Live states: those in which an order may be selected or ended (Table 1-6). -/
def OrderState.live : OrderState → Bool
  | .waiting | .running => true
  | _ => false

def OrderState.final : OrderState → Bool
  | .waiting | .running | .closing => false
  | _ => true

/-- The final state a closing reason names (R15). -/
def Reason.final : Reason → OrderState
  | .expired => .expired
  | .superseded => .superseded
  | .cancelled => .cancelled

/-- Stages that may still be served. -/
def Stage.active : Stage → Bool
  | .queued | .serving | .paused => true
  | _ => false

/-- Some slot of the order is in flight (R15). -/
def Order.anyInFlight (o : Order) : Bool := o.progress.toList.any (·.inFlight)

/-- An order has a miss (R5). -/
def Order.hasMiss (o : Order) : Bool := !o.misses.isEmpty || decide (0 < o.unlisted)

/-- Every involved phase of the order is DONE (R17). -/
def Order.allDone (o : Order) : Bool :=
  o.progress.toList.all fun pp => decide (pp.stage = .notInvolved ∨ pp.stage = .done)

/-- The order of a phase whose stage there is SERVING (R68). -/
def State.inService (s : State) (p : Phase) : Option Tag :=
  (s.orm.table.find? fun o => decide ((o.progress.get p).stage = .serving)).map (·.tag)

/-- Eligibility of an order on a phase (R26). -/
def State.eligible (s : State) (p : Phase) (o : Order) : Bool :=
  o.state.live && (o.progress.get p).stage.active && decide (o.priority ≤ s.orm.floor)
    && (match o.effective with
        | none => true
        | some e => decide (e ≤ s.now + s.params.lead))

/-! ### Refresh queue (R124) -/

/-- The head of a refresh queue is urgent. -/
def State.urgent (s : State) : List QueueEntry → Bool
  | [] => false
  | e :: rest => decide (4 ≤ rest.length + 1) || decide (s.params.refreshPeriod / 2 ≤ s.now - e.queuedAt)

/-- The group stands in a queue. -/
def inQueue (q : List QueueEntry) (g : Fin 16) : Bool := q.any fun e => e.group == g

/-! ### Adoption (R117, R118) -/

/-- The order is a candidate for adoption. -/
def Order.isCandidate (o : Order) : Bool :=
  decide (o.mark = some .pending)
    && (match o.state with
        | .waiting | .running | .complete | .partly | .expired => true
        | .closing => decide (o.closing = some .expired)
        | _ => false)

/-- The broadcast stage has ended on every involved phase (R118). -/
def Order.broadcastEnded (o : Order) : Bool :=
  o.progress.toList.all fun pp => decide (pp.stage = .notInvolved ∨ pp.repeatsSent = o.repeatCount)

/-- The order's effective time, if any, has come (R118). -/
def Order.timeCome (o : Order) (now : Nat) : Bool :=
  match o.effective with
  | none => true
  | some e => decide (e ≤ now)

def Order.adoptable (o : Order) (now : Nat) : Bool := o.isCandidate && o.broadcastEnded && o.timeCome now

/-! ### Clock -/

/-- The clock runs: it is SET and has not stopped at its greatest reading (R137). -/
def Clock.runs (c : Clock) : Bool := c.isSet && decide (c.seconds < Config.maxSeconds)

/-- The reading in milliseconds (R137). -/
def Clock.millis (c : Clock) : Nat := c.seconds * 1000 + c.subcount

/-! ### Crossings (R131) -/

def inRange (interval : Nat) : Bool := decide (Config.minInterval ≤ interval ∧ interval ≤ Config.maxInterval)

/-- The period computed from a history (R133). -/
def periodOf (history : List Nat) : Nat := history.sum / Config.historyLength

/-- An interval joins a history, the oldest of 16 leaving first (R133). -/
def joinHistory (history : List Nat) (interval : Nat) : List Nat :=
  (if history.length < Config.historyLength then history else history.drop 1) ++ [interval]

/-! ### Slots (R49, R53) -/

/-- Lengths of a frame's segments (Table 3-2). -/
def Frame.relayLen (f : Frame) : Nat := f.hops * (f.carrier + 1)

def Frame.listenLen (f : Frame) : Nat :=
  match f.replyLen, f.marginLen with
  | some rr, some m => 1 + rr + f.hops * (rr + 1) + m
  | _, _ => 0

/-- A broadcast frame expects no reply. -/
def Frame.isBroadcast (f : Frame) : Bool := f.replyLen.isNone

/-- Offsets of a slot's crossings from its start (Table of R49). -/
def Frame.sendAt (f : Frame) : Nat := f.guard
def Frame.sendEndAt (f : Frame) : Nat := f.guard + f.carrier
def Frame.listenAt (f : Frame) : Nat := f.guard + f.carrier + f.relayLen

/-- How many crossings after its start a slot stands at a crossing (R46, R132: modulo 2^32). -/
def OnLine.offset (o : OnLine) (hc : Hc) : Nat := (hc - o.start).toNat

/-- The slot is listening at a crossing: an addressed slot in LISTEN, from the first crossing after LISTEN begins up to
and including its planned end (R53); a slot that has accepted a reply has ended (R55). -/
def Line.listening (l : Line) (hc : Hc) : Bool :=
  match l.onLine with
  | some o =>
    decide (l.segment = .listen) && !o.frame.isBroadcast
      && decide (o.frame.listenAt < o.offset hc ∧ o.offset hc ≤ o.frame.planned)
  | none => false

end Sys2Proof.Machine
end

