-- ==== Sys2Proof/Machine/Orders.lean ====
section
/-! DEFINITION. How orders end: final states, closing, the end of a phase's work, and expiry (R15 to R20). -/

namespace Sys2Proof.Machine

/-- An order enters a final state: the closing reason goes, finished-at holds now, and ORDER_END is posted (R2, R18). -/
def State.enterFinal (s : State) (tag : Tag) (st : OrderState) : State :=
  (s.modOrder tag fun o => { o with state := st, closing := none, finishedAt := some s.now }).post (.orderEnd tag st)

/-- A QUEUED, SERVING or PAUSED stage becomes STOPPED (R15). -/
def Progress.stop (pp : Progress) : Progress := if pp.stage.active then { pp with stage := .stopped } else pp

/-- The mark of an order that ends SUPERSEDED or CANCELLED while PENDING becomes PASSED (R117). -/
def endedMark (reason : Reason) (m : Option Mark) : Option Mark :=
  match reason, m with
  | .expired, _ => m
  | _, some .pending => some .passed
  | _, _ => m

/-- End a live order with a closing reason (R15): its stages stop, staged frames composed for it are discarded, and it
enters its final state, or CLOSING while a slot of it is in flight. -/
def State.endOrder (s : State) (tag : Tag) (reason : Reason) : State :=
  match s.findOrder tag with
  | none => s
  | some o =>
    if o.state.live then
      let s1 := (s.modOrder tag fun o =>
          { o with progress := o.progress.map Progress.stop, mark := endedMark reason o.mark }).mapLines
        fun l => l.discardStagedOf tag
      if o.anyInFlight then s1.modOrder tag fun o => { o with state := .closing, closing := some reason }
      else s1.enterFinal tag reason.final
    else s

/-- A CLOSING order with no slot in flight left enters the final state its closing reason names (R16). -/
def State.closingEnd (s : State) (tag : Tag) : State :=
  match s.findOrder tag with
  | some o =>
    match o.state, o.closing with
    | .closing, some reason => if o.anyInFlight then s else s.enterFinal tag reason.final
    | _, _ => s
  | none => s

/-- Clear an order's slot in flight on a phase; ORM acts on the clearing of the last one of a CLOSING order (R3, R16). -/
def State.clearInFlight (s : State) (tag : Tag) (p : Phase) : State :=
  (s.modProgress tag p fun pp => { pp with inFlight := false }).closingEnd tag

/-- ORM takes the report that an order's work on a phase is DONE: with every involved phase DONE the order is COMPLETE,
or PARTIAL when it has a miss (R17). -/
def State.reportDone (s : State) (tag : Tag) : State :=
  match s.findOrder tag with
  | some o =>
    if o.state = .running ∧ o.allDone = true then s.enterFinal tag (if o.hasMiss then .partly else .complete) else s
  | none => s

/-- The work of an order on a phase is finished: a SERVING or PAUSED stage becomes DONE and the phase is reported to ORM
(R113); any other stage stays (R110). -/
def State.phaseDone (s : State) (tag : Tag) (p : Phase) : State :=
  match s.findOrder tag with
  | some o =>
    match (o.progress.get p).stage with
    | .serving | .paused => (s.modProgress tag p fun pp => { pp with stage := .done }).reportDone tag
    | _ => s
  | none => s

/-- An effective time is at or before a clock reading (R11). -/
def timeReached (effective : Option Nat) (now : Nat) : Bool := effective.any fun e => decide (e ≤ now)

/-- A live order notes that a clock reading has reached its effective time (R67). -/
def Order.noteTime (o : Order) (now : Nat) : Order :=
  { o with reached := o.reached || (o.state.live && timeReached o.effective now) }

/-- The orders note the clock's present reading (R67). -/
def State.noteTimes (s : State) : State :=
  { s with orm := { s.orm with table := s.orm.table.map fun o => o.noteTime s.now } }

/-- The order's expiry has been reached (R19). -/
def Order.expiryDue (o : Order) (now : Nat) : Bool := o.state.live && decide (o.expiry ≤ now)

/-- Expire one order if its expiry has been reached (R19). -/
def State.expireIfDue (s : State) (tag : Tag) : State :=
  match s.findOrder tag with
  | some o => if o.expiryDue s.now then s.endOrder tag .expired else s
  | none => s

/-- ORM's expiry check: the orders found are ended one after another in admission order (R19). -/
def State.expiryCheck (s : State) : State := s.orm.table.foldl (fun s o => s.expireIfDue o.tag) s

end Sys2Proof.Machine
end

