-- ==== Sys2Proof/Machine/Standing.lean ====
section
/-! DEFINITION. The Refresh Scheduler: adoption, self-restore, refresh timers and queues, and the checks that a clock
reading brings (06_standing_state_and_refresh.md, R137). -/

namespace Sys2Proof.Machine

/-- RFS's restore check of one group (R120): a reached restore-until turns the standing relay ON. -/
def State.restoreIfDue (s : State) (g : Fin 16) : State :=
  let x := s.standing g
  match x.restoreUntil, x.relay with
  | some r, some (_, tag) =>
    if r ≤ s.now then
      (s.setStanding g
          { x with relay := some (.on, tag), restoreUntil := none, changeCount := x.changeCount + 1 }).post
        (.standing g (.relay .on) tag .restored)
    else s
  | _, _ => s

/-- Restore-until set by the adoption of a RELAY order (R119). -/
def restoreUntilOf (value : RelayValue) (restore effective : Option Nat) (now : Nat) : Option Nat :=
  match value, restore with
  | .shed, some minutes => some (capSeconds (effective.getD now + minutes * 60))
  | _, _ => none

/-- The tag of the standing part of an order's kind (R119). -/
def Standing.partTag (x : Standing) : OrderBody → Option Tag
  | .band _ _ => x.band.map (·.2)
  | .relay _ _ _ => x.relay.map (·.2)
  | .query _ => none

/-- The standing part of the order's kind is present with a newer tag (R119). -/
def Standing.newerStands (x : Standing) (body : OrderBody) (tag : Tag) : Bool :=
  match x.partTag body with
  | some t => tagNewer t tag
  | none => false

/-- Put an order's value into a standing record, with the next refresh one period ahead (R119 steps 1 to 4). -/
def Standing.adopt (x : Standing) (o : Order) (now period : Nat) : Standing :=
  match o.body with
  | .band _ b =>
    { x with band := some (b, o.tag), changeCount := x.changeCount + 1, nextRefresh := some (capSeconds (now + period)) }
  | .relay _ v restore =>
    { x with
      relay := some (v, o.tag)
      restoreUntil := restoreUntilOf v restore o.effective now
      changeCount := x.changeCount + 1
      nextRefresh := some (capSeconds (now + period)) }
  | .query _ => x

/-- The value of a STANDING notice for an order. -/
def OrderBody.partValue : OrderBody → Option (Fin 16 × PartValue)
  | .band g b => some (g, .band b)
  | .relay g v _ => some (g, .relay v)
  | .query _ => none

/-- The adoption of an order into its group's standing record, or its marking as PASSED (R119), followed at once by the
restore of a restore-until already reached (R120). -/
def State.adoptOrder (s : State) (o : Order) : State :=
  match o.body.partValue with
  | none => s
  | some (g, value) =>
    let x := s.standing g
    if x.newerStands o.body o.tag then s.modOrder o.tag fun r => { r with mark := some .passed }
    else
      let s1 := (s.setStanding g (x.adopt o s.now s.params.refreshPeriod)).post (.standing g value o.tag .adopted)
      let s2 := s1.modOrder o.tag fun r => { r with mark := some .adopted }
      match value with
      | .relay _ => s2.restoreIfDue g
      | .band _ => s2

/-- The adoption check of one order (R118). -/
def State.adoptIfDue (s : State) (tag : Tag) : State :=
  match s.findOrder tag with
  | some o => if o.adoptable s.now then s.adoptOrder o else s
  | none => s

/-- ORM's adoption check of every candidate, in admission order (R118). -/
def State.adoptionCheck (s : State) : State := s.orm.table.foldl (fun s o => s.adoptIfDue o.tag) s

/-- A group's timer is reached (R122). -/
def State.fireDue (s : State) (g : Fin 16) : Bool :=
  match (s.standing g).nextRefresh with
  | some t => decide (t ≤ s.now)
  | none => false

/-- The next refresh after a firing (R122 step 4). -/
def nextAfterFiring (next now period : Nat) : Nat :=
  capSeconds (if next + period ≤ now then now + period else next + period)

/-- RFS's timer check of one group (R122): a reached timer queues the group on each phase with members, posts
REFRESH_LATE for each phase on whose queue it still stands, and advances next refresh. -/
def State.fireIfDue (s : State) (g : Fin 16) : State :=
  match (s.standing g).nextRefresh with
  | some t =>
    if t ≤ s.now then
      let served := allPhases.filter fun p => s.dir.hasMember g p
      let late := served.filter fun p => inQueue (s.queue p) g
      let fresh := served.filter fun p => !inQueue (s.queue p) g
      let s1 := fresh.foldl (fun s p => s.setQueue p (s.queue p ++ [⟨g, s.now⟩])) s
      let s2 := s1.forEachFree late fun s p => s.post (.refreshLate g p)
      s2.setStanding g
        { s2.standing g with nextRefresh := some (nextAfterFiring t s.now s.params.refreshPeriod) }
    else s
  | none => s

/-- RFS's timer check of one group outside a new reading. RFS checks at each increment and at each SET_TIME, so a clock that
does not run brings no check: a group that fired at the greatest reading does not fire there again (R122). -/
def State.checkTimer (s : State) (g : Fin 16) : State := if s.mtb.clock.runs then s.fireIfDue g else s

/-- RFS's adjustment after a SET_TIME (R123): a next refresh more than a period ahead is brought back to one period. -/
def Standing.pullBack (x : Standing) (now period : Nat) : Standing :=
  match x.nextRefresh with
  | some t => if now + period < t then { x with nextRefresh := some (now + period) } else x
  | none => x

def State.adjustRefresh (s : State) : State :=
  { s with rfs := { s.rfs with standing := s.rfs.standing.map fun x => x.pullBack s.now s.params.refreshPeriod } }

/-! ### The checks of one clock reading (R137, R138)

ORM makes its expiry check and then its adoption check, RFS its restore check and its timer check, each in the order its
rule gives. Which of an adoption, a restore and a firing at one reading is taken first is left open (R119, R120), so the
three lists of work are merged by free picks. -/

/-- One piece of the work a clock reading can bring. -/
inductive Check where
  | expire (tag : Tag)
  | adopt (tag : Tag)
  | restore (g : Fin 16)
  | fire (g : Fin 16)
deriving DecidableEq, Repr

/-- Whether a piece of work finds anything to do. -/
def State.checkDue (s : State) : Check → Bool
  | .expire tag =>
    match s.findOrder tag with
    | some o => o.expiryDue s.now
    | none => false
  | .adopt tag =>
    match s.findOrder tag with
    | some o => o.adoptable s.now
    | none => false
  | .restore g =>
    match (s.standing g).restoreUntil, (s.standing g).relay with
    | some r, some _ => decide (r ≤ s.now)
    | _, _ => false
  | .fire g => s.fireDue g

def State.runCheck (s : State) : Check → State
  | .expire tag => s.expireIfDue tag
  | .adopt tag => s.adoptIfDue tag
  | .restore g => s.restoreIfDue g
  | .fire g => s.fireIfDue g

/-- The first due piece of a list, with what follows it. -/
def State.firstDue (s : State) : List Check → Option (Check × List Check)
  | [] => none
  | c :: rest => if s.checkDue c then some (c, rest) else s.firstDue rest

/-- One of the candidates a merge step may take, and the lists that remain when it is taken. -/
abbrev Merge := Check × List (List Check)

/-- The pieces a merge step may take: the first due one of each list. -/
def State.mergeChoices (s : State) : List (List Check) → List Merge
  | [] => []
  | l :: rest =>
    (match s.firstDue l with
      | some (c, l') => [(c, l' :: rest)]
      | none => [])
    ++ (s.mergeChoices rest).map fun m => (m.1, l :: m.2)

/-- Take the due pieces of the lists one after another, each list in its own order and the lists merged by free picks.
A list whose due pieces have all been taken gives none, and one choice alone uses no pick. -/
def State.runChecks : Nat → List (List Check) → State → State
  | 0, _, s => s
  | fuel + 1, ls, s =>
    match s.mergeChoices ls with
    | [] => s
    | [m] => State.runChecks fuel m.2 (s.runCheck m.1)
    | m :: more =>
      let m' := (m :: more).getD (Config.freePick s.picks % (more.length + 1)) m
      State.runChecks fuel m'.2 ({ s with picks := s.picks + 1 }.runCheck m'.1)

/-- All 16 groups in ascending order. -/
def allGroups : List (Fin 16) := List.finRange 16

/-- ORM's list (expiries, then adoptions, each in admission order) and RFS's lists (restores and firings, each in
ascending group number). -/
def State.checkLists (s : State) : List (List Check) :=
  [s.orm.table.map (fun o => Check.expire o.tag) ++ s.orm.table.map (fun o => Check.adopt o.tag),
   allGroups.map Check.restore, allGroups.map Check.fire]

/-- The checks ORM and RFS make against a new clock reading (R137, R138). -/
def State.clockChecks (s : State) : State :=
  State.runChecks (2 * s.orm.table.length + 32) s.checkLists s

end Sys2Proof.Machine
end

