-- ==== Sys2Proof/Machine/Admission.lean ====
section
/-! DEFINITION. The Order Manager's requests: submission and admission, reading, cancelling, releasing, listing, and the
floor (01_tariff_orders.md). -/

namespace Sys2Proof.Machine

/-! ### Tags (R7) -/

/-- The tag counter's next value: 65535 steps to 1, without passing 0. -/
def nextTag (t : Tag) : Tag := if t = 0xFFFF then 1 else t + 1

/-- The first value from the counter on that no record holds; the table has at most `fuel` records to pass. -/
def freeTagFrom : Nat → List Tag → Tag → Tag
  | 0, _, t => t
  | fuel + 1, used, t => if used.contains t then freeTagFrom fuel used (nextTag t) else t

def Orm.freeTag (m : Orm) : Tag := freeTagFrom m.table.length (m.table.map (·.tag)) m.tagCounter

/-! ### Checks of a submission (R9, R10) -/

/-- Expiry as stored: at most 604,800 s ahead, and never beyond the clock's range (R11). -/
def storedExpiry (x now : Nat) : Nat :=
  if x ≤ now + Config.maxExpiryAhead then x else capSeconds (now + Config.maxExpiryAhead)

/-- Repeat count and retry limit as stored (R11). -/
def storedRepeats (n : Nat) : Nat := min n 4
def storedRetries (n : Nat) : Nat := min (max n 1) 7

/-- Clamped to a range. -/
def clampTo (lo hi n : Nat) : Nat := min (max n lo) hi

/-- The kinds of a submission (Table 11-1). -/
inductive Kind where
  | band | relay | query
deriving DecidableEq, Repr

def kindOf (b : Byte) : Option Kind :=
  if b = 0x01 then some .band else if b = 0x02 then some .relay else if b = 0x03 then some .query else none

/-- The effective time of a submission, read only when its flag is set (R164, Table 11-5). -/
def submittedEffective (f : SubmitFields) : Option Nat := if isSetFlag f.effFlag then some f.effective.toNat else none

/-- Condition 9 of R10: E is earlier than the expiry with which the order would be stored. -/
def effectiveOk (f : SubmitFields) (now : Nat) : Bool :=
  match submittedEffective f with
  | some e => decide (e < storedExpiry f.expiry.toNat now)
  | none => true

/-- What a submission asks for once its fields are found in range (R2, R10). -/
structure Submission where
  body : OrderBody
  repeats : Nat
  policy : Policy
  direction : Direction
deriving DecidableEq, Repr

/-- Conditions 3 to 8 of R10 for a band or relay submission: the group, the value with its restore, the policy, the
direction, and that something would be sent. -/
def groupSubmission (f : SubmitFields) (body : Fin 16 → Option OrderBody) : Option Submission :=
  if h : f.group.toNat < 16 then
    match body ⟨f.group.toNat, h⟩, policyOf f.policy, directionOf f.direction with
    | some b, some pol, some dir =>
      if f.repeats = 0 ∧ pol = .none then none else some ⟨b, storedRepeats f.repeats.toNat, pol, dir⟩
    | _, _, _ => none
  else none

/-- The body of a BAND submission: a band 0 to 7 and restore 0 (condition 4). -/
def bandBody (f : SubmitFields) (g : Fin 16) : Option OrderBody :=
  match bandOf f.value with
  | some b => if f.restore = 0 then some (.band g b) else none
  | none => none

/-- The body of a RELAY submission: SHED or ON, and a restore of 0 to 1440 that is 0 unless SHED (condition 5). -/
def relayBody (f : SubmitFields) (g : Fin 16) : Option OrderBody :=
  match relayOf f.value with
  | some .shed =>
    if f.restore = 0 then some (.relay g .shed none)
    else if f.restore.toNat ≤ 1440 then some (.relay g .shed (some f.restore.toNat))
    else none
  | some .on => if f.restore = 0 then some (.relay g .on none) else none
  | none => none

/-- The conditions of R10; every one of them draws BAD_FIELD, so `none` stands for any. A QUERY holds repeat count 0,
policy ALL and direction ASCENDING whatever was submitted (R2). -/
def submissionOf (f : SubmitFields) (now : Nat) : Option Submission :=
  if 7 < f.priority.toNat then none
  else if !effectiveOk f now then none
  else
    match kindOf f.kind with
    | none => none
    | some .band => groupSubmission f (bandBody f)
    | some .relay => groupSubmission f (relayBody f)
    | some .query =>
      if f.target.toNat < Config.houseCapacity then some ⟨.query f.target.toNat, 0, .all, .ascending⟩ else none

/-! ### Admission (R4, R12) -/

/-- Whether a body involves a phase (R4). -/
def Dir.involves (d : Dir) (body : OrderBody) (p : Phase) : Bool :=
  match body with
  | .band g _ => d.hasMember g p
  | .relay g _ _ => d.hasMember g p
  | .query i =>
    match d.get i with
    | some h => decide (h.phase = p)
    | none => false

/-- Phase progress at admission (Table 1-2). -/
def Progress.fresh (involved : Bool) (dirn : Direction) : Progress where
  stage := if involved then .queued else .notInvolved
  repeatsSent := 0
  cursor := match dirn with
    | .ascending => .at 0
    | .descending => .at 479
  attempts := 0
  confirmed := 0
  override := 0
  notMember := 0
  noReply := 0
  rejected := 0
  vacant := 0
  expected := 0
  inFlight := false

/-- The adoption mark at admission: PENDING, and none for a QUERY (R117). -/
def firstMark : OrderBody → Option Mark
  | .query _ => none
  | _ => some .pending

/-- The record admission builds (R12 steps 1 to 3). -/
def admittedOrder (s : State) (f : SubmitFields) (q : Submission) (tag : Tag) : Order where
  tag := tag
  seq := s.orm.seqCounter
  body := q.body
  priority := f.priority.toNat
  effective := submittedEffective f
  expiry := storedExpiry f.expiry.toNat s.now
  repeatCount := q.repeats
  policy := q.policy
  retryLimit := storedRetries f.retryLimit.toNat
  direction := q.direction
  state := .waiting
  closing := none
  finishedAt := none
  progress :=
    ⟨.fresh (s.dir.involves q.body .a) q.direction, .fresh (s.dir.involves q.body .b) q.direction,
     .fresh (s.dir.involves q.body .c) q.direction⟩
  misses := []
  unlisted := 0
  result := none
  mark := firstMark q.body
  reached := timeReached (submittedEffective f) s.now

/-- The live record of the same kind and group, other than the new one (R13). -/
def State.supersededBy (s : State) (o : Order) : Option Tag :=
  match o.body.group with
  | none => none
  | some g =>
    (s.orm.table.find? fun x => x.tag != o.tag && x.body.sameKind o.body && x.body.group == some g && x.state.live).map
      (·.tag)

/-- Supersession (R13). -/
def State.supersede (s : State) (o : Order) : State :=
  match s.supersededBy o with
  | some t => s.endOrder t .superseded
  | none => s

/-- The admission of an order (R12): it takes its tag and sequence, joins the table, supersedes, and for a BAND or RELAY
order the adoption check follows (R118). -/
def State.admitOrder (s : State) (o : Order) : State :=
  let s1 := { s with
    orm := { s.orm with
      table := s.orm.table ++ [o]
      tagCounter := nextTag o.tag
      seqCounter := s.orm.seqCounter + 1 } }
  match o.body with
  | .query _ => s1
  | _ => (s1.supersede o).adoptionCheck

/-- Whether any of the three stored fields was clamped; a QUERY's repeat count is not read (R11, R164). -/
def submissionClamped (f : SubmitFields) (o : Order) : Bool :=
  decide (o.expiry ≠ f.expiry.toNat) || decide (o.retryLimit ≠ f.retryLimit.toNat)
    || (match o.body with
        | .query _ => false
        | _ => decide (o.repeatCount ≠ f.repeats.toNat))

/-- The target of a QUERY is vacant (R10). -/
def targetVacant (s : State) : OrderBody → Bool
  | .query i => (s.dir.get i).isNone
  | _ => false

/-- No occupied entry, on any phase, holds the group (R9 step 5). -/
def noMembers (s : State) : OrderBody → Bool
  | .query _ => false
  | .band g _ => !allPhases.any (s.dir.hasMember g)
  | .relay g _ _ => !allPhases.any (s.dir.hasMember g)

/-- ORDER_SUBMIT: the six steps of R9 in order, then admission (R11, R12). -/
def handleOrderSubmit (f : SubmitFields) (s : State) : Handled :=
  if s.scs.state ≠ .written then s.refuse .noSite
  else if !s.mtb.clock.isSet then s.refuse .clockUnset
  else
    match submissionOf f s.now with
    | none => s.refuse .badField
    | some q =>
      if targetVacant s q.body then s.refuse .vacant
      else if f.expiry.toNat ≤ s.now then s.refuse .expiryPast
      else if noMembers s q.body then s.refuse .noMembers
      else if Config.orderCapacity ≤ s.orm.table.length then s.refuse .tableFull
      else
        let o := admittedOrder s f q s.orm.freeTag
        (s.admitOrder o,
         ⟨if submissionClamped f o then .clamped else .ok,
          bytes16 o.tag ++ bytes32 o.seq ++ [num8 o.repeatCount, num8 o.retryLimit] ++ num32 o.expiry⟩)

/-! ### Cancelling and releasing (R20, R21) -/

/-- The record an ORDER_READ, ORDER_CANCEL or ORDER_RELEASE names; tag 0 names none (R147). -/
def State.named (s : State) (tag : Tag) : Option Order := if tag = 0 then none else s.findOrder tag

/-- The state of the record that holds a tag, as a reply carries it. -/
def State.stateCode (s : State) (tag : Tag) : List Byte :=
  match s.findOrder tag with
  | some o => [o.state.code]
  | none => []

/-- ORDER_CANCEL (R20). -/
def handleOrderCancel (tag : Tag) (s : State) : Handled :=
  match s.named tag with
  | none => s.refuse .unknownTag
  | some o =>
    if o.state.live then
      let s1 := s.endOrder tag .cancelled
      (s1, ⟨.ok, s1.stateCode tag⟩)
    else (s, ⟨.alreadyFinished, [o.state.code]⟩)

/-- ORDER_RELEASE (R21). -/
def handleOrderRelease (tag : Tag) (s : State) : Handled :=
  match s.named tag with
  | none => s.refuse .unknownTag
  | some o =>
    if o.state.final then
      ({ s with orm := { s.orm with table := s.orm.table.filter fun x => x.tag != tag } }, .bare .ok)
    else s.refuse .notFinished

/-! ### Reading (R23, R24) -/

/-- A presence byte from its bits, bit 0 first. -/
def presenceByte (bits : List Bool) : Byte := num8 (bits.foldr (fun b n => b.toNat + 2 * n) 0)

/-- The value byte of an order: its band, its relay value, or 0 for a QUERY. -/
def OrderBody.valueByte : OrderBody → Byte
  | .band _ b => num8 b
  | .relay _ v _ => v.code
  | .query _ => 0

def OrderBody.groupByte (b : OrderBody) : Byte :=
  match b.group with
  | some g => num8 g.val
  | none => 0

def OrderBody.target : OrderBody → Option Nat
  | .query i => some i
  | _ => none

def OrderBody.restore : OrderBody → Option Nat
  | .relay _ _ r => r
  | _ => none

/-- One phase-progress record of the RECORD section (20 bytes, Table 11-7). -/
def Progress.report (pp : Progress) : List Byte :=
  [pp.stage.code, num8 pp.repeatsSent] ++ pp.cursor.field ++ [num8 pp.attempts] ++ num16 pp.confirmed
    ++ num16 pp.override ++ num16 pp.notMember ++ num16 pp.noReply ++ num16 pp.rejected ++ num16 pp.vacant
    ++ num16 pp.expected ++ [flagByte pp.inFlight]

/-- Band and relay of a query result, absent ones as FFh (R6). -/
def bandCode : Option Nat → Byte
  | some b => num8 b
  | none => 0xFF

def relayCode : Option RelayValue → Byte
  | some v => v.code
  | none => 0xFF

/-- The query result of the RECORD section; absent, its 10 bytes are 0 (R164). -/
def resultField : Option QueryResult → List Byte
  | some r =>
    [bandCode r.band, relayCode r.relay] ++ bytes16 r.groups ++ bytes16 r.bandTag ++ bytes16 r.relayTag
      ++ [flagByte r.override, num8 r.margin]
  | none => List.replicate 10 0

/-- The RECORD section (Table 11-7). -/
def Order.recordSection (o : Order) : List Byte :=
  [0x01,
   presenceByte [o.effective.isSome, o.closing.isSome, o.finishedAt.isSome, o.result.isSome, o.body.restore.isSome,
     o.body.group.isSome, o.body.target.isSome, o.body.group.isSome]]
    ++ bytes16 o.tag ++ bytes32 o.seq ++ [o.body.kindCode, o.body.groupByte] ++ num16 (o.body.target.getD 0)
    ++ [o.body.valueByte] ++ num16 (o.body.restore.getD 0) ++ [num8 o.priority] ++ num32 (o.effective.getD 0)
    ++ num32 o.expiry ++ [num8 o.repeatCount, o.policy.code, num8 o.retryLimit, o.direction.code, o.state.code]
    ++ [(match o.closing with | some r => r.code | none => 0)] ++ num32 (o.finishedAt.getD 0)
    ++ o.progress.a.report ++ o.progress.b.report ++ o.progress.c.report
    ++ [num8 o.misses.length] ++ num16 o.unlisted ++ resultField o.result

/-- One miss record (7 bytes). -/
def Miss.report (m : Miss) : List Byte := num16 m.index ++ bytes24 m.address ++ [phaseCode m.phase, m.reason.code]

/-- The MISSES section (Formats, after Table 11-7). -/
def Order.missesSection (o : Order) : List Byte :=
  [0x02, num8 o.misses.length] ++ o.misses.flatMap Miss.report ++ num16 o.unlisted

/-- ORDER_READ: the section is checked before the tag (R23, R147). -/
def handleOrderRead (tag : Tag) (sect : Byte) (s : State) : Handled :=
  if sect ≠ 0x01 ∧ sect ≠ 0x02 then s.refuse .badField
  else
    match s.named tag with
    | none => s.refuse .unknownTag
    | some o => (s, ⟨.ok, if sect = 0x01 then o.recordSection else o.missesSection⟩)

/-- One record of ORDER_LIST (6 bytes, Table 11-8). -/
def Order.listEntry (o : Order) : List Byte :=
  bytes16 o.tag ++ [o.body.kindCode, o.body.groupByte, num8 o.priority, o.state.code]

/-- ORDER_LIST (R24). -/
def handleOrderList (s : State) : Handled :=
  (s, ⟨.ok, num8 s.orm.table.length :: s.orm.table.flatMap Order.listEntry⟩)

/-! ### The floor (R25) -/

/-- SET_FLOOR: a value above 7 is stored as 7. -/
def handleSetFloor (floor : Byte) (s : State) : Handled :=
  let stored := min floor.toNat 7
  ({ s with orm := { s.orm with floor := stored } },
   ⟨if stored = floor.toNat then .ok else .clamped, [num8 stored]⟩)

end Sys2Proof.Machine
end

