-- ==== Sys2Proof/Machine/Directory.lean ====
section
/-! DEFINITION. The House Directory: the requests that edit and read it, the freeze table, and the health updates the
line controllers bring (02_the_house_directory.md). -/

namespace Sys2Proof.Machine

/-- House addresses and site codes lie in 000001h to FFFFFEh. -/
def addressOk (a : Addr) : Bool := decide (1 ≤ a.toNat ∧ a.toNat ≤ 0xFFFFFE)

/-- Directory indices are 0 to 479. -/
def indexOk (i : Nat) : Bool := decide (i < Config.houseCapacity)

/-! ### HOUSE_PUT (R37, R38) -/

/-- The hop slots within the route count (Table 11-6). -/
def putRoute (f : PutFields) : List Nat := [f.hop1.toNat, f.hop2.toNat].take f.routeCount.toNat

/-- A route index of check 5: occupied, on the given phase, not the index being put, and with an empty route. -/
def Dir.hopOk (d : Dir) (i : Nat) (p : Phase) (hop : Nat) : Bool :=
  decide (hop ≠ i)
    && (match d.get hop with
        | some h => decide (h.phase = p) && h.route.isEmpty
        | none => false)

/-- Check 5 of R37. -/
def Dir.routeOk (d : Dir) (i : Nat) (p : Phase) (route : List Nat) : Bool :=
  route.all (d.hopOk i p) && decide route.Nodup

/-- Check 4 of R37: another occupied entry holds the address. -/
def Dir.addressElsewhere (d : Dir) (i : Nat) (a : Addr) : Bool := d.houses.any fun e => e.1 != i && e.2.address == a

/-- Check 6 of R37. -/
def Dir.referenceOk (d : Dir) (i : Nat) (p : Phase) (route : List Nat) : Bool :=
  match d.get i with
  | some h => decide (h.refCount = 0 ∨ (h.phase = p ∧ route = []))
  | none => true

/-- Move reference counts from the entries of an old route to those of a new one; an entry in both keeps its count
(R32, R38). -/
def Dir.moveReferences (d : Dir) (old new : List Nat) : Dir :=
  let d1 := (old.filter fun j => !new.contains j).foldl
    (fun d j => d.modify j fun h => { h with refCount := h.refCount - 1 }) d
  (new.filter fun j => !old.contains j).foldl (fun d j => d.modify j fun h => { h with refCount := h.refCount + 1 }) d1

/-- The entry an edit writes (R38 steps 2 to 4): a new house starts with miss count 0, GOOD and UNKNOWN, and the reference
count is kept. -/
def Dir.editedHouse (d : Dir) (i : Nat) (a : Addr) (p : Phase) (groups : BitVec 16) (route : List Nat) : House :=
  match d.get i with
  | some h =>
    if h.address = a then { h with phase := p, groups := groups, route := route }
    else ⟨a, p, groups, route, h.refCount, 0, .good, none⟩
  | none => ⟨a, p, groups, route, 0, 0, .good, none⟩

/-- The edit of R38 as a whole. -/
def Dir.edit (d : Dir) (i : Nat) (a : Addr) (p : Phase) (groups : BitVec 16) (route : List Nat) : Dir :=
  (d.moveReferences (d.routeOf i) route).put i (d.editedHouse i a p groups route)

/-- HOUSE_PUT: the six checks in order, then the edit (R37, R38, Table 11-6). -/
def handleHousePut (f : PutFields) (s : State) : Handled :=
  let i := f.index.toNat
  let route := putRoute f
  match phaseOf f.phase with
  | none => s.refuse .badField
  | some p =>
    if !(indexOk i && addressOk f.address && decide (f.routeCount.toNat ≤ 2) && route.all indexOk) then
      s.refuse .badField
    else if s.dir.frozen i then s.refuse .frozen
    else if s.busy i then s.refuse .busyEntry
    else if s.dir.addressElsewhere i f.address then s.refuse .duplicate
    else if !s.dir.routeOk i p route then s.refuse .noRoute
    else if !s.dir.referenceOk i p route then s.refuse .inUse
    else
      let h := s.dir.editedHouse i f.address p f.groups route
      ({ s with dir := s.dir.edit i f.address p f.groups route },
       ⟨.ok, num16 i ++ [num8 h.missCount, h.health.code]⟩)

/-! ### HOUSE_REMOVE, HOUSE_GET, HOUSE_FIND (R39, R41, R42) -/

/-- HOUSE_REMOVE: the five checks in order, then the removal (R39). -/
def handleHouseRemove (index : BitVec 16) (s : State) : Handled :=
  let i := index.toNat
  if !indexOk i then s.refuse .badField
  else if s.dir.frozen i then s.refuse .frozen
  else if s.busy i then s.refuse .busyEntry
  else
    match s.dir.get i with
    | none => s.refuse .vacant
    | some h =>
      if h.refCount ≠ 0 then s.refuse .inUse
      else ({ s with dir := (s.dir.moveReferences h.route []).remove i }, .bare .ok)

/-- HOUSE_GET (R41, Table 11-8). -/
def handleHouseGet (index : BitVec 16) (s : State) : Handled :=
  let i := index.toNat
  if !indexOk i then s.refuse .badField
  else
    match s.dir.get i with
    | none => s.refuse .vacant
    | some h =>
      (s, ⟨.ok, num16 i ++ bytes24 h.address ++ [phaseCode h.phase] ++ bytes16 h.groups ++ [num8 h.route.length]
        ++ num16 (h.route.getD 0 0) ++ num16 (h.route.getD 1 0) ++ num16 h.refCount
        ++ [num8 h.missCount, h.health.code, marginCode h.margin, flagByte (s.dir.frozen i), flagByte (s.busy i)]⟩)

/-- HOUSE_FIND (R42, Table 11-8). -/
def handleHouseFind (a : Addr) (s : State) : Handled :=
  if !addressOk a then s.refuse .badField
  else
    match s.dir.houses.find? fun e => e.2.address == a with
    | none => s.refuse .vacant
    | some (i, h) => (s, ⟨.ok, num16 i ++ [phaseCode h.phase]⟩)

/-! ### The freeze table (R43 to R45) -/

/-- One range slot of the FREEZE and THAW replies; a slot beyond the table is 0. -/
def freezeSlot : Option Freeze → List Byte
  | some f => num16 f.first ++ num16 f.last ++ [f.mode.code]
  | none => [0, 0, 0, 0, 0]

/-- The table as reported: the count and four slots (Table 11-8). -/
def freezeReport (fs : List Freeze) : List Byte :=
  num8 fs.length :: (freezeSlot fs[0]? ++ freezeSlot fs[1]? ++ freezeSlot fs[2]? ++ freezeSlot fs[3]?)

/-- A span is in order: first and last are indices with first at or below last. -/
def spanOk (first last : Nat) : Bool := indexOk first && indexOk last && decide (first ≤ last)

/-- FREEZE (R44). -/
def handleFreeze (first last : BitVec 16) (mode : Byte) (s : State) : Handled :=
  match freezeModeOf mode with
  | none => s.refuse .badField
  | some m =>
    if !spanOk first.toNat last.toNat then s.refuse .badField
    else if Config.freezeCapacity ≤ s.dir.freezes.length then s.refuse .tableFull
    else
      let fs := s.dir.freezes ++ [⟨first.toNat, last.toNat, m⟩]
      ({ s with dir := { s.dir with freezes := fs } }, ⟨.ok, freezeReport fs⟩)

/-- A range THAW keeps: HARD, or reaching outside the span (R45). -/
def keptByThaw (first last : Nat) (f : Freeze) : Bool :=
  decide (f.mode = .hard) || !(decide (first ≤ f.first) && decide (f.last ≤ last))

/-- THAW (R45). -/
def handleThaw (first last : BitVec 16) (s : State) : Handled :=
  if !spanOk first.toNat last.toNat then s.refuse .badField
  else
    let fs := s.dir.freezes.filter (keptByThaw first.toNat last.toNat)
    ({ s with dir := { s.dir with freezes := fs } },
     ⟨.ok, num8 (s.dir.freezes.length - fs.length) :: freezeReport fs⟩)

/-! ### Health updates (R34, R35) -/

/-- Set an entry's miss count, its health with it. -/
def House.withMisses (h : House) (n : Nat) : House := { h with missCount := n, health := healthOf n }

/-- DIR's update of an entry by a line controller; a change of the health level posts HEALTH (R35). -/
def State.updateHouse (s : State) (i : Nat) (f : House → House) : State :=
  match s.dir.get i with
  | none => s
  | some h =>
    let s1 := { s with dir := s.dir.modify i f }
    if (f h).health = h.health then s1 else s1.post (.health i h.address (f h).health (f h).missCount)

/-- An accepted reply of the house sets its miss count to 0 and its last margin (R34). -/
def State.houseReplied (s : State) (i : Nat) (margin : Nat) : State :=
  s.updateHouse i fun h => { h.withMisses 0 with margin := some margin }

/-- A visit of outcome NO_REPLY adds 1 to the miss count, which stands still at 15 (R33, R34). -/
def State.houseMissed (s : State) (i : Nat) : State :=
  s.updateHouse i fun h => h.withMisses (min (h.missCount + 1) 15)

end Sys2Proof.Machine
end

