-- ==== Sys2Proof/Machine/Frames.lean ====
section
/-! DEFINITION. Composing a frame: its content, its delay field, and its sizes (03_slot_arithmetic.md, R95, R101, R111,
R125). -/

namespace Sys2Proof.Machine

/-! ### The delay field (R63 to R66) -/

/-- Half-cycles from the composing crossing to the end of the last outbound transmission: n = k + G + C + h(C + 1). -/
def outboundSpan (k guard carrier hops : Nat) : Nat := k + guard + carrier + hops * (carrier + 1)

/-- The predicted end of the last outbound transmission in ms: te = tc + (n × P / 1000, rounded down) (R65). -/
def predictedEnd (tc n period : Nat) : Nat := tc + n * period / 1000

/-- The delay field D in tenths of a second, from an effective time that no reading of the clock has reached yet (R66); for one that
is reached `State.delayFor` gives 0 (R67, notes/assumptions/24.md). -/
def delayField (te : Nat) (effective : Option Nat) : Nat :=
  match effective with
  | none => 0
  | some e => if e * 1000 ≤ te then 0 else min ((e * 1000 - te + 99) / 100) Config.maxCount

/-- The delay field of an order's frame of `size` bytes over `hops` hops, composed now on a phase for a start `k` half-cycles
ahead (R64): 0 once the clock has reached the order's effective time, wherever a SET_TIME has put it since (R11, R67,
notes/assumptions/24.md). -/
def State.delayFor (s : State) (p : Phase) (k size hops : Nat) (o : Order) : Nat :=
  if o.reached then 0
  else
    delayField
      (predictedEnd s.mtb.clock.millis (outboundSpan k s.params.guard (carrierOf size) hops) (s.mains p).period) o.effective

/-! ### Content -/

/-- The address an index's entry holds (a vacant entry holds none; no rule reads one). -/
def State.addressAt (s : State) (i : Nat) : Addr :=
  match s.house i with
  | some h => h.address
  | none => 0

/-- The addresses of an entry's repeaters, first hop first, as their entries stand (R30). -/
def State.hopsAt (s : State) (i : Nat) : List Addr := (s.dir.routeOf i).map s.addressAt

/-- Restore minutes a frame carries: 0 when the order has none (R95, R101). -/
def restoreField : Option Nat → Nat
  | some m => m
  | none => 0

/-- The content of a broadcast repeat (R95). -/
def State.repeatContent (s : State) (p : Phase) (k : Nat) (o : Order) : Content :=
  match o.body with
  | .band g b => .groupBand s.scs.code g o.tag b (s.delayFor p k 12 0 o)
  | .relay g v restore => .groupRelay s.scs.code g o.tag v (restoreField restore) (s.delayFor p k 14 0 o)
  | .query i => .query s.scs.code (s.addressAt i) (s.hopsAt i) (o.tag.setWidth 8)

/-- The content of an addressed frame for the entry at `i`: attempt `n` of a visit, or a query attempt (R101, R111). -/
def State.addressedContent (s : State) (p : Phase) (k : Nat) (o : Order) (i n : Nat) : Content :=
  let hops := s.hopsAt i
  match o.body with
  | .band _ b =>
    .directBand s.scs.code (s.addressAt i) hops o.tag b
      (s.delayFor p k (16 + 3 * hops.length) hops.length o) n o.retryLimit
  | .relay _ v restore =>
    .directRelay s.scs.code (s.addressAt i) hops o.tag v (restoreField restore)
      (s.delayFor p k (18 + 3 * hops.length) hops.length o) n o.retryLimit
  | .query _ => .query s.scs.code (s.addressAt i) hops (o.tag.setWidth 8)

/-- The remaining restore minutes of a REFRESH frame (R125). -/
def remainingMinutes (restoreUntil : Option Nat) (now : Nat) : Nat :=
  match restoreUntil with
  | some r => if now < r then min ((r - now + 59) / 60) 65535 else 0
  | none => 0

/-- The content of a REFRESH frame, from the group's standing record as it stands (R125). -/
def State.refreshContent (s : State) (g : Fin 16) : Content :=
  let x := s.standing g
  .refresh s.scs.code g x.band x.relay (remainingMinutes x.restoreUntil s.now)

/-! ### The frame buffer's items (Table 3-4) -/

/-- The planned length of a slot: G + C, and for an addressed slot the RELAY and LISTEN lengths too (R54). -/
def plannedLength (guard carrier hops margin : Nat) : Option Nat → Nat
  | none => guard + carrier
  | some rr => guard + carrier + hops * (carrier + 1) + (1 + rr + hops * (rr + 1) + margin)

/-- A frame composed now on a phase for a start `k` half-cycles ahead, with G and M as they stand (R56 to R58). -/
def State.buildFrame (s : State) (p : Phase) (k : Nat) (work : Work) (step : Step) (content : Content)
    (target : Option Nat) (route : List Nat) (version : Option (BitVec 16)) : Frame :=
  let carrier := carrierOf content.size
  { work := work
    step := step
    content := content
    target := target
    route := route
    guard := s.params.guard
    carrier := carrier
    hops := content.hopCount
    replyLen := content.replyCarrier
    marginLen := content.replyCarrier.map fun _ => s.params.margin
    planned := plannedLength s.params.guard carrier content.hopCount s.params.margin content.replyCarrier
    composedAt := (s.mains p).hc
    plannedStart := (s.mains p).hc + BitVec.ofNat 32 k
    version := version }

/-- The frame of an order's step. -/
def State.orderFrame (s : State) (p : Phase) (k : Nat) (o : Order) (step : Step) : Frame :=
  match step with
  | .attempt i n =>
    s.buildFrame p k (.order o.tag) step (s.addressedContent p k o i n) (some i) (s.dir.routeOf i) none
  | .query i n =>
    s.buildFrame p k (.order o.tag) step (s.addressedContent p k o i n) (some i) (s.dir.routeOf i) none
  | .repeatNo _ => s.buildFrame p k (.order o.tag) step (s.repeatContent p k o) none [] none
  | .refresh => s.buildFrame p k (.order o.tag) step (s.repeatContent p k o) none [] none

/-- The REFRESH frame of a group; it records the group's change count (R62). -/
def State.refreshFrame (s : State) (p : Phase) (k : Nat) (g : Fin 16) : Frame :=
  s.buildFrame p k (.refresh g) .refresh (s.refreshContent g) none [] (some (s.standing g).changeCount)

end Sys2Proof.Machine
end

