-- ==== Sys2Proof/Machine/Selection.lean ====
section
/-! DEFINITION. The next step of an order on a phase, its prediction at a staging point, and selection (R58, R73, R74,
R94, R99, R108, R111). Nothing here changes state. -/

namespace Sys2Proof.Machine

/-! ### The next step (R93, R94) -/

/-- What an order has to do next on a phase (Table 5-1): a step that needs a slot, the close of its sweep, or a query
settled VACANT. -/
inductive NextStep where
  | slot (step : Step)
  | close
  | vacant
deriving DecidableEq, Repr

/-- A settled step needs no slot (R93). -/
def NextStep.needsSlot : NextStep → Bool
  | .slot _ => true
  | _ => false

/-- The next step of a sweep, from the cursor and the directory as they stand (R99). -/
def sweepStep (d : Dir) (p : Phase) (g : Fin 16) (dirn : Direction) (pp : Progress) : Option NextStep :=
  match pp.cursor with
  | .atEnd => none
  | .at i =>
    if d.isMember g p i then some (.slot (.attempt i (pp.attempts + 1)))
    else
      match d.firstBeyond g p dirn i with
      | some j => some (.slot (.attempt j 1))
      | none => some .close

/-- The next step of a query's visit (R111). -/
def queryStep (d : Dir) (p : Phase) (target : Nat) (pp : Progress) : Option NextStep :=
  match pp.cursor with
  | .atEnd => none
  | .at _ =>
    match d.get target with
    | some h => if h.phase = p then some (.slot (.query target (pp.attempts + 1))) else some .vacant
    | none => some .vacant

/-- The next step of an order on a phase, given its progress there (R94). -/
def nextStep (d : Dir) (p : Phase) (o : Order) (pp : Progress) : Option NextStep :=
  if pp.stage.active then
    match o.body with
    | .query target => queryStep d p target pp
    | .band g _ | .relay g _ _ =>
      if pp.repeatsSent < o.repeatCount then some (.slot (.repeatNo (pp.repeatsSent + 1)))
      else if o.policy = .none then none
      else sweepStep d p g o.direction pp
  else none

/-! ### Prediction at a staging point (R58, R108) -/

/-- The cursor at the first member beyond an index, or at END. -/
def Dir.cursorBeyond (d : Dir) (g : Fin 16) (p : Phase) (dirn : Direction) (i : Nat) : Cursor :=
  match d.firstBeyond g p dirn i with
  | some j => .at j
  | none => .atEnd

/-- The allowance of the visit whose attempt `n` starts now: 1 for a house that is SILENT at a first attempt, otherwise
the order's retry limit (R102). -/
def State.allowanceFor (s : State) (o : Order) (i n : Nat) : Nat :=
  match s.house i with
  | some h => if n ≤ 1 ∧ h.health = .silent then 1 else o.retryLimit
  | none => o.retryLimit

/-- The progress a slot's order would have if the slot ran to its planned end without an accepted reply (R108). -/
def State.predicted (s : State) (p : Phase) (o : Order) (step : Step) (pp : Progress) : Progress :=
  match step with
  | .repeatNo n => { pp with repeatsSent := n }
  | .attempt i n =>
    if n < s.allowanceFor o i n then { pp with cursor := .at i, attempts := n }
    else
      match o.body.group with
      | some g => { pp with cursor := s.dir.cursorBeyond g p o.direction i, attempts := 0 }
      | none => pp
  | .query i n =>
    if n < s.allowanceFor o i n then { pp with attempts := n } else { pp with cursor := .atEnd, attempts := 0 }
  | .refresh => pp

/-- How selection looks on the slot in progress: `none` at a gap or an idle crossing, the on-line buffer at a staging
point. -/
abbrev Ahead := Option OnLine

/-- An order's progress as selection takes it: predicted for the order of the slot in progress, otherwise as it stands. -/
def State.progressFor (s : State) (p : Phase) (ahead : Ahead) (o : Order) : Progress :=
  match ahead with
  | some ol =>
    if ol.frame.work = .order o.tag then s.predicted p o ol.frame.step (o.progress.get p) else o.progress.get p
  | none => o.progress.get p

/-- The refresh queue as selection takes it: a refresh slot in progress is taken to have sent its group (R73). -/
def State.queueFor (s : State) (p : Phase) (ahead : Ahead) : List QueueEntry :=
  match ahead with
  | some ol =>
    match ol.frame.work with
    | .refresh g => (s.queue p).filter fun e => e.group != g
    | .order _ => s.queue p
  | none => s.queue p

/-! ### Selection (R73, R74) -/

/-- The candidate orders of a phase, each with its next step (R74). At a staging point a step that needs no slot gives no
candidacy. -/
def State.candidates (s : State) (p : Phase) (ahead : Ahead) : List (Order × NextStep) :=
  s.orm.table.filterMap fun o =>
    if s.eligible p o then
      match nextStep s.dir p o (s.progressFor p ahead o) with
      | some st => if ahead.isSome && !st.needsSlot then none else some (o, st)
      | none => none
    else none

/-- The order has the service of the phase. -/
def Order.servesOn (o : Order) (p : Phase) : Bool := decide ((o.progress.get p).stage = .serving)

/-- Candidate `x` is chosen before candidate `y` (R74): lower priority number, then the in-service order, then the one
admitted earlier. -/
def Order.beats (x y : Order) (p : Phase) : Bool :=
  decide (x.priority < y.priority)
    || (decide (x.priority = y.priority)
        && (x.servesOn p || (!y.servesOn p && seqOlder x.seq y.seq)))

/-- The best candidate of a list (R74). -/
def bestCandidate (p : Phase) : List (Order × NextStep) → Option (Order × NextStep)
  | [] => none
  | c :: rest =>
    match bestCandidate p rest with
    | none => some c
    | some d => if d.1.beats c.1 p then some d else some c

/-- What selection names. -/
inductive Choice where
  | nothing
  | refresh (g : Fin 16)
  | order (tag : Tag) (next : NextStep)
deriving DecidableEq, Repr

/-- Selection at a decision crossing (R73). -/
def State.select (s : State) (p : Phase) (ahead : Ahead) : Choice :=
  let l := s.line p
  let q := s.queueFor p ahead
  if !l.causes.isEmpty || l.holdPending then .nothing
  else
    match s.urgent q, q, bestCandidate p (s.candidates p ahead) with
    | true, e :: _, _ => .refresh e.group
    | _, _, some (o, st) => .order o.tag st
    | _, e :: _, none => .refresh e.group
    | _, [], none => .nothing

end Sys2Proof.Machine
end

