-- ==== Sys2Proof/Machine/Service.lean ====
section
/-! DEFINITION. What a line controller writes into an order on its phase: service, sweeps, misses, settling, and the
accounting of a slot (R76, R80, R95 to R113). -/

namespace Sys2Proof.Machine

/-! ### Service (R76) -/

/-- The order that served a phase becomes PAUSED when another takes service. -/
def Order.pauseOn (o : Order) (p : Phase) : Order :=
  if o.servesOn p then o.modProgress p fun pp => { pp with stage := .paused } else o

/-- Expected and the first cursor of a sweep that begins (R98). -/
def Progress.beginSweep (pp : Progress) (d : Dir) (p : Phase) (g : Fin 16) (dirn : Direction) : Progress :=
  let first :=
    match pp.cursor with
    | .at i => d.firstFrom g p dirn i
    | .atEnd => none
  { pp with
    expected := (d.members g p).length
    cursor := (match first with | some j => .at j | none => .atEnd)
    attempts := 0 }

/-- Whether a query's target is occupied and on the phase (R111). -/
def Dir.onPhase (d : Dir) (p : Phase) (i : Nat) : Bool :=
  match d.get i with
  | some h => decide (h.phase = p)
  | none => false

/-- What an order's first selection on a phase sets beside its stage: a query's expected (R111), and the sweep of an order
of repeat count 0 (R98). -/
def Order.firstSelected (o : Order) (d : Dir) (p : Phase) (pp : Progress) : Progress :=
  match o.body with
  | .query target => { pp with expected := if d.onPhase p target then 1 else 0 }
  | .band g _ | .relay g _ _ => if o.repeatCount = 0 then pp.beginSweep d p g o.direction else pp

/-- A selected order takes service of a phase (R76); its first selection anywhere makes it RUNNING (R14). -/
def Order.serve (o : Order) (d : Dir) (p : Phase) : Order :=
  match (o.progress.get p).stage with
  | .queued =>
    { o.modProgress p fun pp => { o.firstSelected d p pp with stage := .serving } with
      state := if o.state = .waiting then .running else o.state }
  | .paused => o.modProgress p fun pp => { pp with stage := .serving }
  | _ => o

/-- Service of a phase passes to the order named by a tag (R76). -/
def State.takeService (s : State) (p : Phase) (tag : Tag) : State :=
  { s with
    orm := { s.orm with
      table := s.orm.table.map fun o => if o.tag = tag then o.serve s.dir p else o.pauseOn p } }

/-! ### Misses and outcomes (R5, R106) -/

/-- Record a miss: in the list while it holds fewer than 24 records, otherwise in the unlisted count (R5). -/
def Order.recordMiss (o : Order) (m : Miss) : Order :=
  if o.misses.length < Config.missCapacity then { o with misses := o.misses ++ [m] }
  else { o with unlisted := o.unlisted + 1 }

/-- Outcomes of a visit (Table 5-3, R112). -/
inductive Result where
  | confirmed
  | miss (reason : MissReason)
deriving DecidableEq, Repr

/-- Add 1 to the tally of an outcome. -/
def Progress.tally (pp : Progress) : Result → Progress
  | .confirmed => { pp with confirmed := pp.confirmed + 1 }
  | .miss .override => { pp with override := pp.override + 1 }
  | .miss .notMember => { pp with notMember := pp.notMember + 1 }
  | .miss .noReply => { pp with noReply := pp.noReply + 1 }
  | .miss .rejected => { pp with rejected := pp.rejected + 1 }
  | .miss .vacant => { pp with vacant := pp.vacant + 1 }

/-- Steps 1 to 3 of R106: the tally, the miss record, and the miss count of a house that did not reply. -/
def State.recordResult (s : State) (p : Phase) (tag : Tag) (i : Nat) (r : Result) : State :=
  let s1 := s.modProgress tag p fun pp => pp.tally r
  match r with
  | .confirmed => s1
  | .miss reason =>
    let s2 := s1.modOrder tag fun o => o.recordMiss ⟨i, s.addressAt i, p, reason⟩
    if reason = .noReply then s2.houseMissed i else s2

/-- The cursor moves and attempts at cursor returns to 0 (R100). -/
def State.moveCursor (s : State) (p : Phase) (tag : Tag) (c : Cursor) : State :=
  s.modProgress tag p fun pp => { pp with cursor := c, attempts := 0 }

/-- A cursor that has become END finishes the work on the phase (R100, R106 step 5). -/
def State.moveCursorDone (s : State) (p : Phase) (tag : Tag) (c : Cursor) : State :=
  let s1 := s.moveCursor p tag c
  match c with
  | .atEnd => s1.phaseDone tag p
  | .at _ => s1

/-! ### Settling (R74, R99, R112) -/

/-- Settle a step that needs no slot: service first (R76), then the close of the sweep or the outcome VACANT. -/
def State.settle (s : State) (p : Phase) (tag : Tag) (next : NextStep) : State :=
  let s1 := s.takeService p tag
  match next with
  | .slot _ => s1
  | .close => s1.moveCursorDone p tag .atEnd
  | .vacant =>
    match s1.findOrder tag with
    | some o =>
      match o.body with
      | .query target => (s1.recordResult p tag target (.miss .vacant)).moveCursorDone p tag .atEnd
      | _ => s1
    | none => s1

/-- Selection at a gap or an idle crossing: a chosen step that needs no slot is settled, and selection is taken again
among what remains (R74). Each settling ends the work of an order on the phase, so as many rounds as there are orders are
enough. -/
def State.selectSettled : Nat → Phase → State → State × Choice
  | 0, _, s => (s, .nothing)
  | fuel + 1, p, s =>
    match s.select p none with
    | .order tag (.slot st) => (s, .order tag (.slot st))
    | .order tag next => State.selectSettled fuel p (s.settle p tag next)
    | c => (s, c)

/-! ### Accounting a slot (R80) -/

/-- How an attempt's reply, or its absence, is judged (R105). -/
inductive Verdict where
  | outcome (r : Result)
  | failed (last : MissReason)
deriving DecidableEq, Repr

/-- The judgement of an attempt (R105). A reply tag of 0 names no order and is never newer. -/
def judgeAttempt (tag : Tag) : Option LineReply → Verdict
  | none => .failed .noReply
  | some (.short status t _) =>
    if t ≠ tag ∧ (t = 0 ∨ tagNewer t tag = false) then .failed .rejected
    else if status = 0x01 ∨ status = 0x02 then .outcome .confirmed
    else if status = 0x03 then .outcome (.miss .override)
    else if status = 0x04 then .outcome (.miss .notMember)
    else .failed .rejected
  | some (.long ..) => .failed .rejected

/-- The outcome an attempt determines, if any: a failed one only when it uses up the allowance (R103, R105). -/
def Verdict.result (v : Verdict) (attempts allowance : Nat) : Option Result :=
  match v with
  | .outcome r => some r
  | .failed last => if attempts < allowance then none else some (.miss last)

/-- An accepted reply is accounted to the directory entry (R34). -/
def State.accountReply (s : State) (i : Nat) : Option LineReply → State
  | some r => s.houseReplied i r.margin
  | none => s

/-- Account an attempt of a sweep at entry `i` (R102 to R106). -/
def State.accountAttempt (s : State) (p : Phase) (o : Order) (g : Fin 16) (i allowance : Nat) (reply : Option LineReply) :
    State :=
  let s1 := s.accountReply i reply
  let attempts := (o.progress.get p).attempts + 1
  let s2 := s1.modProgress o.tag p fun pp => { pp with attempts := attempts }
  match (judgeAttempt o.tag reply).result attempts allowance with
  | none => s2
  | some r =>
    let s3 := s2.recordResult p o.tag i r
    s3.moveCursorDone p o.tag (s3.dir.cursorBeyond g p o.direction i)

/-- The query result a LONG reply gives (R6). -/
def queryResultOf : LineReply → Option QueryResult
  | .long band relay groups bt rt ov m => some ⟨bandOf band, relayOf relay, groups, bt, rt, ov, m⟩
  | .short .. => none

/-- A query result that is present is not replaced (R6). -/
def Order.fillResult (o : Order) (r : LineReply) : Order :=
  match o.result with
  | some _ => o
  | none => { o with result := queryResultOf r }

/-- Account a query attempt (R112). -/
def State.accountQuery (s : State) (p : Phase) (o : Order) (i allowance : Nat) (reply : Option LineReply) : State :=
  match reply with
  | some r =>
    let s1 := (s.houseReplied i r.margin).modOrder o.tag fun x => x.fillResult r
    (s1.recordResult p o.tag i .confirmed).moveCursorDone p o.tag .atEnd
  | none =>
    let attempts := (o.progress.get p).attempts + 1
    if attempts < allowance then s.modProgress o.tag p fun pp => { pp with attempts := attempts }
    else (s.recordResult p o.tag i (.miss .noReply)).moveCursorDone p o.tag .atEnd

/-- The sweep of an order begins within the accounting that ends its broadcast stage (R97, R98). -/
def State.beginSweep (s : State) (p : Phase) (o : Order) (g : Fin 16) : State :=
  let pp := (o.progress.get p).beginSweep s.dir p g o.direction
  let s1 := s.modProgress o.tag p fun _ => pp
  if pp.cursor = .atEnd then s1.phaseDone o.tag p else s1

/-- The end of an order's broadcast stage on a phase: ORM's adoption check, then DONE or the sweep (R97). -/
def State.endBroadcast (s : State) (p : Phase) (tag : Tag) : State :=
  let s1 := s.adoptionCheck
  match s1.findOrder tag with
  | some o =>
    match (o.progress.get p).stage with
    | .serving | .paused =>
      match o.policy, o.body.group with
      | .all, some g => s1.beginSweep p o g
      | _, _ => s1.phaseDone tag p
    | _ => s1
  | none => s1

/-- Account a completed broadcast repeat (R96, R97). -/
def State.accountRepeat (s : State) (p : Phase) (o : Order) : State :=
  let sent := (o.progress.get p).repeatsSent + 1
  let s1 := s.modProgress o.tag p fun pp => { pp with repeatsSent := sent }
  if sent = o.repeatCount then s1.endBroadcast p o.tag else s1

/-- A served refresh leaves its queue (R126). -/
def State.accountRefresh (s : State) (p : Phase) (g : Fin 16) : State :=
  s.setQueue p ((s.queue p).filter fun e => e.group != g)

/-- Account an ended slot to the work and step its on-line buffer records (R80). -/
def State.account (s : State) (p : Phase) (ol : OnLine) (reply : Option LineReply) : State :=
  match ol.frame.work with
  | .refresh g => s.accountRefresh p g
  | .order tag =>
    match s.findOrder tag with
    | none => s
    | some o =>
      match ol.frame.step, o.body.group with
      | .repeatNo _, some _ => s.accountRepeat p o
      | .attempt i _, some g => s.accountAttempt p o g i (ol.allowance.getD o.retryLimit) reply
      | .query i _, none => s.accountQuery p o i (ol.allowance.getD o.retryLimit) reply
      | _, _ => s

end Sys2Proof.Machine
end

