-- ==== Sys2Proof/Machine/Slots.lean ====
section
/-! DEFINITION. The line controllers: the slot and its segments, staging, the gap, aborts, holds, received frames and the
requests they own (03_slot_arithmetic.md, 04_line_controllers.md). -/

namespace Sys2Proof.Machine

/-! ### Beginning a slot (R50, R59, R75) -/

/-- What the beginning of a slot writes into its order's progress: slot in flight, and the cursor of an attempt at a member
beyond it (R3, R100). -/
def Progress.beginSlot (pp : Progress) (step : Step) : Progress :=
  match step with
  | .attempt i _ =>
    if pp.cursor = .at i then { pp with inFlight := true }
    else { pp with inFlight := true, cursor := .at i, attempts := 0 }
  | _ => { pp with inFlight := true }

/-- The allowance fixed at a slot's start crossing (R102). -/
def State.startAllowance (s : State) (f : Frame) : Option Nat :=
  match f.work, f.step with
  | .order tag, .attempt i n => (s.findOrder tag).map fun o => s.allowanceFor o i n
  | .order tag, .query i n => (s.findOrder tag).map fun o => s.allowanceFor o i n
  | _, _ => none

/-- The place at which a slot finds its order on the phase (R84). -/
def State.placeBefore (s : State) (p : Phase) (f : Frame) : Option Place :=
  match f.work with
  | .order tag => (s.findOrder tag).map fun o => ⟨(o.progress.get p).cursor, (o.progress.get p).attempts⟩
  | .refresh _ => none

/-- A slot begins with a frame at this crossing: GUARD, with the frame on line and nothing staged. -/
def State.beginSlot (s : State) (p : Phase) (f : Frame) : State :=
  let s1 := s.modLine p fun l =>
    { l with segment := .guard, onLine := some ⟨f, (s.mains p).hc, s.startAllowance f, s.placeBefore p f⟩, staged := none }
  match f.work with
  | .order tag => s1.modProgress tag p fun pp => pp.beginSlot f.step
  | .refresh _ => s1

/-! ### Composing what selection names (R57, R76) -/

/-- Compose the frame of a choice for a start `k` half-cycles ahead; an order takes service as its frame is composed. -/
def State.compose (s : State) (p : Phase) (k : Nat) : Choice → State × Option Frame
  | .nothing => (s, none)
  | .refresh g => (s, some (s.refreshFrame p k g))
  | .order tag (.slot step) =>
    let s1 := s.takeService p tag
    match s1.findOrder tag with
    | some o => (s1, some (s1.orderFrame p k o step))
    | none => (s1, none)
  | .order _ _ => (s, none)

/-- Compose and stage. -/
def State.stage (s : State) (p : Phase) (k : Nat) (c : Choice) : State :=
  match s.compose p k c with
  | (s1, some f) => s1.modLine p fun l => { l with staged := some f }
  | (s1, none) => s1

/-- A staging point of the slot in progress: selection on the predicted progress stages the next frame for the slot's
planned end, `k` half-cycles ahead (R57, R58, R73). -/
def State.stagingPoint (s : State) (p : Phase) (ol : OnLine) (k : Nat) : State := s.stage p k (s.select p (some ol))

/-! ### The gap (R59, R75) -/

/-- Step 1 of R75: account the ended slot, clear slot in flight, and empty the on-line buffer. -/
def State.endSlot (s : State) (p : Phase) (reply : Option LineReply) : State :=
  match (s.line p).onLine with
  | none => s
  | some ol =>
    let s1 := s.account p ol reply
    let s2 :=
      match ol.frame.work with
      | .order tag => s1.clearInFlight tag p
      | .refresh _ => s1
    s2.modLine p fun l => { l with segment := .none, txEnable := false, onLine := none }

/-- A pending hold takes effect (R86). -/
def Line.takeHold (l : Line) : Line :=
  if l.holdPending then { l with causes := { l.causes with held := true }, holdPending := false } else l

/-- The conditions under which a staged frame stands, given what the gap's selection names (R59) and the work of the slot that
has ended here on an accepted reply, if one has: a staged frame of that work does not stand (R59, R109,
notes/assumptions/26.md). -/
def State.stands (s : State) (p : Phase) (answered : Option Work) (f : Frame) (c : Choice) : Bool :=
  decide (f.plannedStart = (s.mains p).hc) && (s.line p).causes.isEmpty && decide (answered ≠ some f.work)
    && (match c, f.work with
        | .order tag (.slot step), .order t =>
          decide (t = tag ∧ f.step = step)
            && (match s.findOrder tag with
                | some o => s.eligible p o
                | none => false)
        | .refresh g, .refresh g' => decide (g' = g ∧ f.version = some (s.standing g).changeCount)
        | _, _ => false)

/-- Steps 4 and 5 of R75: a staged frame that stands begins its slot; otherwise it is discarded, and what selection names
is composed here with k = 0 and begins. -/
def State.judgeStaged (s : State) (p : Phase) (answered : Option Work) (c : Choice) : State :=
  let composed :=
    match (s.modLine p Line.discardStaged).compose p 0 c with
    | (s1, some f) => s1.beginSlot p f
    | (s1, none) => s1
  match (s.line p).staged with
  | some f => if s.stands p answered f c then s.beginSlot p f else composed
  | none => composed

/-- The work of the slot in progress, if a reply has been accepted for it. -/
def State.answeredWork (s : State) (p : Phase) : Option LineReply → Option Work
  | some _ => (s.line p).onLine.map fun ol => ol.frame.work
  | none => none

/-- The gap: the five steps of R75 at one crossing. `reply` is the accepted reply of the ended slot, if any. -/
def State.gap (s : State) (p : Phase) (reply : Option LineReply) : State :=
  let s1 := (s.endSlot p reply).modLine p Line.takeHold
  let r := State.selectSettled (s1.orm.table.length + 1) p s1
  r.1.judgeStaged p (s.answeredWork p reply) r.2

/-! ### Segment moves (R49, R51, R52) -/

/-- The crossing s + G: GUARD to SEND, the transmit enable asserted; the staging point of a broadcast slot. -/
def State.endGuard (s : State) (p : Phase) (ol : OnLine) : State :=
  let s1 := s.modLine p fun l => { l with segment := .send, txEnable := true }
  if ol.frame.isBroadcast then s1.stagingPoint p ol ol.frame.carrier else s1

/-- The crossing s + G + C: SEND completes, the carrier stops and the frame counts as sent. A broadcast slot ends here at
its gap; an addressed one goes to RELAY, or with no hop to LISTEN, its staging point. -/
def State.endSend (s : State) (p : Phase) (ol : OnLine) : State :=
  let s1 := s.modLine p fun l =>
    { l.countStats fun st => { st with framesSent := bump st.framesSent } with txEnable := false }
  if ol.frame.isBroadcast then s1.gap p none
  else if 0 < ol.frame.hops then s1.modLine p fun l => { l with segment := .relay }
  else (s1.modLine p fun l => { l with segment := .listen }).stagingPoint p ol ol.frame.listenLen

/-- The crossing s + G + C + h(C + 1): RELAY to LISTEN, the staging point of the slot. -/
def State.endRelay (s : State) (p : Phase) (ol : OnLine) : State :=
  (s.modLine p fun l => { l with segment := .listen }).stagingPoint p ol ol.frame.listenLen

/-- Which move of the table of R49 a crossing brings to a slot. -/
inductive Move where
  | guardEnd | sendComplete | relayEnd | plannedEnd
deriving DecidableEq, Repr

/-- The offset from the slot's start at which a segment ends, with the move it brings. -/
def Frame.moveAfter (f : Frame) : Segment → Option (Nat × Move)
  | .none => none
  | .guard => some (f.sendAt, .guardEnd)
  | .send => some (f.sendEndAt, .sendComplete)
  | .relay => some (f.listenAt, .relayEnd)
  | .listen => some (f.planned, .plannedEnd)

/-- The move due on a phase at its present crossing, with the slot it moves. -/
def State.dueMove (s : State) (p : Phase) : Option (Move × OnLine) :=
  let l := s.line p
  match l.onLine with
  | none => none
  | some ol =>
    match ol.frame.moveAfter l.segment with
    | some (offset, m) => if ol.offset (s.mains p).hc = offset then some (m, ol) else none
    | none => none

/-- Take a move. -/
def State.move (s : State) (p : Phase) (ol : OnLine) : Move → State
  | .guardEnd => s.endGuard p ol
  | .sendComplete => s.endSend p ol
  | .relayEnd => s.endRelay p ol
  | .plannedEnd => s.gap p none

/-- Take the move due on a phase, if there is one. -/
def State.takeMove (s : State) (p : Phase) : State :=
  match s.dueMove p with
  | some (m, ol) => s.move p ol m
  | none => s

/-- Take the move due on a phase if it is the given one. -/
def State.takeMoveIf (s : State) (p : Phase) (m : Move) : State :=
  match s.dueMove p with
  | some (m', ol) => if m' = m then s.move p ol m else s
  | none => s

/-! ### Received frames (R88 to R91) -/

/-- What the checks of R89 make of a taken frame. -/
inductive FrameVerdict where
  | crcError | foreign | echo | stray
  | accepted (r : LineReply)
deriving DecidableEq, Repr

/-- The checks of R89, in order, against the store, the line and the half-cycle counter as they stand. -/
def judgeFrame (store : Scs) (l : Line) (hc : Hc) (f : RxFrame) : FrameVerdict :=
  let kind := kindCode (byteAt f.bytes 0)
  if !f.crcGood then .crcError
  else if store.state ≠ .written ∨ word24 f.bytes 1 ≠ store.code then .foreign
  else if 1 ≤ kind ∧ kind ≤ 6 then .echo
  else
    match l.onLine with
    | none => .stray
    | some ol =>
      if !l.listening hc || decide (ol.frame.content.replyKind ≠ some kind) then .stray
      else if ol.frame.content.address ≠ some (word24 f.bytes 4) then .stray
      else if kind = 9 then .accepted (shortReply f.bytes)
      else .accepted (longReply f.bytes)

/-- A frame is not taken: its phase is LOST, or the loss or the RESET that cut a slot fell within its reception (R82, R83,
R88). -/
def State.discards (s : State) (p : Phase) (f : RxFrame) : Bool :=
  decide ((s.mains p).presence = .lost ∨ f.cuts ≠ (s.line p).cuts)

/-- Take a frame at the present crossing (R88, R89); an accepted reply ends the slot at this crossing, its gap (R90). A
frame is not taken while its phase is LOST, nor when a loss or a RESET has discarded its reception. -/
def State.takeFrame (s : State) (p : Phase) (f : RxFrame) : State :=
  if s.discards p f then s
  else
    match judgeFrame s.scs (s.line p) (s.mains p).hc f with
    | .crcError => s.modLine p fun l => l.countStats fun st => { st with crcErrors := bump st.crcErrors }
    | .foreign => s.modLine p fun l => l.countStats fun st => { st with foreign := bump st.foreign }
    | .echo => s
    | .stray => s.modLine p fun l => l.countStats fun st => { st with stray := bump st.stray }
    | .accepted r =>
      (s.modLine p fun l => l.countStats fun st =>
        { st with repliesAccepted := bump st.repliesAccepted, quality := some f.quality }).gap p (some r)

/-- Take every waiting frame at its completion crossing. Which of several is judged first is left open (R91). -/
def State.takeWaiting (s : State) (p : Phase) : State :=
  (s.modLine p fun l => { l with waiting := [] }).forEachFree (s.line p).waiting fun s f => s.takeFrame p f

/-- The front-end completes a frame between crossings: it waits, unless it is not taken (R82, R83, R88). -/
def State.frameCompleted (s : State) (p : Phase) (f : RxFrame) : State :=
  if s.discards p f then s else s.modLine p fun l => { l with waiting := l.waiting ++ [f] }

/-! ### A delivered crossing (R46, R72) -/

/-- A crossing with no slot in progress (R61, R72): the gap of a frame staged for it, otherwise selection, which stages a
frame for the next crossing when the staged buffer is empty. Where the frame staged for this crossing has been discarded before
it (R60), none is planned to start here any more and the crossing is an idle one, k = 1, and not a gap, k = 0 (DESIGN CHOICE,
notes/assumptions/30.md). -/
def State.idleCrossing (s : State) (p : Phase) : State :=
  match (s.line p).staged with
  | some f =>
    if f.plannedStart = (s.mains p).hc then s.gap p none
    else (State.selectSettled (s.orm.table.length + 1) p s).1
  | none =>
    let r := State.selectSettled (s.orm.table.length + 1) p s
    r.1.stage p 1 r.2

/-- A crossing is delivered to the line controller: waiting frames are taken first, so that a reply completing at the
planned end is within LISTEN (R53), then the slot's segment moves, or the idle crossing is handled. -/
def State.deliver (s : State) (p : Phase) : State :=
  let s1 := s.takeWaiting p
  if (s.line p).inSlot then s1.takeMove p else s1.idleCrossing p

/-! ### Aborts (R81, R82, R84) -/

/-- What an abort leaves of a line controller. -/
def Line.abort (l : Line) : Line :=
  { (l.countStats fun st => { st with slotsAborted := bump st.slotsAborted }).takeHold with
    segment := .none, txEnable := false, onLine := none, staged := none }

/-- The order a line controller's slot serves. -/
def Line.slotOrder (l : Line) : Option Tag :=
  match l.onLine with
  | some ol =>
    match ol.frame.work with
    | .order tag => some tag
    | .refresh _ => none
  | none => none

/-- The cursor and attempts at cursor go back to where they stood (R84). -/
def Progress.goBack (pp : Progress) : Option Place → Progress
  | some x => { pp with cursor := x.cursor, attempts := x.attempts }
  | none => pp

/-- Abort the slot in progress on a phase (R84): its order's progress there stands again as before the slot began, also where
the slot's beginning moved the cursor, which R100 otherwise moves only forward (notes/assumptions/25.md). -/
def State.abortSlot (s : State) (p : Phase) : State :=
  let s1 := s.modLine p Line.abort
  match (s.line p).slotOrder with
  | some tag =>
    (s1.modProgress tag p fun pp => pp.goBack ((s.line p).onLine.bind fun ol => ol.before)).clearInFlight tag p
  | none => s1

/-- The frames the front-end has completed, and the one it has in reception, are discarded (R82, R83, R88). -/
def Line.cutReception (l : Line) : Line := { l with waiting := [], cuts := l.cuts + 1 }

/-- The line controller takes the loss of its phase (R82). -/
def State.loseLine (s : State) (p : Phase) : State :=
  let s1 := s.modLine p fun l => { l.cutReception with causes := { l.causes with lost := true } }
  if (s.line p).inSlot then s1.abortSlot p else s1.modLine p Line.discardStaged

/-- The part's own carrier may be on: GUARD or SEND, where QUIET aborts (R81). -/
def Line.inCarrier (l : Line) : Bool := decide (l.segment = .guard ∨ l.segment = .send)

/-- QUIET enters every cause set, and the slots in GUARD or SEND are aborted, in an order the rules leave open (R81). -/
def State.quietLines (s : State) : State :=
  (s.mapLines fun l => { l with causes := { l.causes with quiet := true } }).forEachFree
    (allPhases.filter fun p => (s.line p).inCarrier) fun s p => s.abortSlot p

/-- RESET's effect on one line controller (R83). A frame in reception is discarded with the slot that is aborted (R88). -/
def Line.reset (l : Line) : Line where
  causes := { l.causes with held := false }
  holdPending := false
  segment := .none
  txEnable := false
  onLine := none
  staged := none
  stats := Stats.zero
  waiting := []
  cuts := if l.inSlot then l.cuts + 1 else l.cuts

/-! ### Holds and statistics (R86, R87, R92) -/

/-- PHASE_HOLD (R86). -/
def handlePhaseHold (phase : Byte) (s : State) : Handled :=
  match phaseOf phase with
  | none => s.refuse .badField
  | some p =>
    let l := s.line p
    if l.causes.held then (s, ⟨.ok, [HoldState.held.code]⟩)
    else if l.holdPending then (s, ⟨.ok, [HoldState.pending.code]⟩)
    else if l.inSlot then
      (s.modLine p fun l => { l with holdPending := true }, ⟨.ok, [HoldState.pending.code]⟩)
    else
      (s.modLine p fun l => { l with causes := { l.causes with held := true } }, ⟨.ok, [HoldState.held.code]⟩)

/-- PHASE_RESUME (R87); the reply reports the hold state before the request. -/
def handlePhaseResume (phase : Byte) (s : State) : Handled :=
  match phaseOf phase with
  | none => s.refuse .badField
  | some p =>
    (s.modLine p fun l => { l with causes := { l.causes with held := false }, holdPending := false },
     ⟨.ok, [(s.line p).holdState.code]⟩)

/-- The quality flag and byte of PHASE_STATS (Table 11-8). -/
def qualityField : Option Byte → List Byte
  | some q => [0x01, q]
  | none => [0x00, 0x00]

def Stats.report (st : Stats) : List Byte :=
  num16 st.framesSent ++ num16 st.slotsAborted ++ num16 st.repliesAccepted ++ num16 st.crcErrors ++ num16 st.stray
    ++ num16 st.foreign ++ qualityField st.quality

/-- PHASE_STATS (R92): the counts as they stand, then cleared if asked. -/
def handlePhaseStats (phase clear : Byte) (s : State) : Handled :=
  match phaseOf phase with
  | none => s.refuse .badField
  | some p =>
    (if isSetFlag clear then s.modLine p fun l => { l with stats := Stats.zero } else s,
     ⟨.ok, (s.line p).stats.report⟩)

/-- A pending hold takes effect with no slot in progress (R86). -/
def State.holdTakesEffect (s : State) (p : Phase) : State :=
  if (s.line p).inSlot then s else s.modLine p Line.takeHold

end Sys2Proof.Machine
end

