-- ==== Sys2Proof/Machine/Mains.lean ====
section
/-! DEFINITION. The Mains and Time Block: crossings and presence, the seconds clock, and the conditioning of QUIET
(07_mains_time_and_the_quiet_input.md). -/

namespace Sys2Proof.Machine

/-! ### Presence (R134, R135) -/

/-- What the loss leaves of a phase's mains state (R134 steps 1 and 2). -/
def Mains.lose (m : Mains) : Mains := { m with presence := .lost, history := [], returnCount := 0 }

/-- The loss of a PRESENT phase, at the moment 25,000 µs have passed since its last accepted crossing (R134). -/
def State.losePhase (s : State) (p : Phase) : State :=
  let m := s.mains p
  let s1 :=
    match m.lastCrossing with
    | some t => s.advanceTo (t + Config.lossLimit)
    | none => s
  ((s1.setMains p m.lose).loseLine p).post (.phase p .lost m.period)

/-- The return of a LOST phase whose return count has reached 64 (R135). -/
def State.returnPhase (s : State) (p : Phase) : State :=
  let m := s.mains p
  let period := periodOf m.history
  ((s.setMains p { m with presence := .present, period := period }).modLine p fun l =>
    { l with causes := { l.causes with lost := false } }).post (.phase p .present period)

/-- The condition of a return (R135). -/
def Mains.returnDue (m : Mains) : Bool := decide (m.presence = .lost ∧ m.returnCount = Config.returnGoal)

/-- The return of a phase, if its return count has reached 64 (R135). -/
def State.returnIfDue (s : State) (p : Phase) : State := if (s.mains p).returnDue then s.returnPhase p else s

/-- The loss of a phase, if it is PRESENT; a LOST one has nothing more to lose (Table 7-2). -/
def State.loseIfPresent (s : State) (p : Phase) : State := if (s.mains p).presence = .present then s.losePhase p else s

/-! ### Crossings (R131, R132, R135) -/

/-- An accepted crossing of a PRESENT phase: HC, history and period (R132 steps 1 and 2). -/
def Mains.count (m : Mains) (t : Nat) (interval : Option Nat) : Mains :=
  let m1 := { m with lastCrossing := some t, hc := m.hc + 1 }
  match interval with
  | some i =>
    if inRange i then
      let h := joinHistory m.history i
      { m1 with history := h, period := periodOf h }
    else m1
  | none => m1

/-- An accepted crossing of a LOST phase advances or restarts its return (R135). -/
def Mains.countReturn (m : Mains) (t : Nat) (interval : Option Nat) : Mains :=
  let m1 := { m with lastCrossing := some t }
  match interval with
  | some i =>
    if inRange i then { m1 with history := joinHistory m.history i, returnCount := m.returnCount + 1 }
    else { m1 with returnCount := 0 }
  | none => { m1 with returnCount := 0 }

/-- The interval of a candidate crossing from the last accepted one (R131). -/
def Mains.intervalAt (m : Mains) (t : Nat) : Option Nat := m.lastCrossing.map fun last => t - last

/-- A candidate less than 8,000 µs after the last accepted crossing is a glitch (R131). -/
def Mains.isGlitch (m : Mains) (t : Nat) : Bool :=
  match m.intervalAt t with
  | some i => decide (i < Config.minInterval)
  | none => false

/-- An accepted crossing (R131): counted and delivered while PRESENT, counted toward the return while LOST. -/
def State.acceptCrossing (s : State) (p : Phase) (t : Nat) : State :=
  let m := s.mains p
  match m.presence with
  | .present => (s.setMains p (m.count t (m.intervalAt t))).deliver p
  | .lost =>
    (s.setMains p (m.countReturn t (m.intervalAt t))).returnIfDue p

/-- A PRESENT phase whose 25,000 µs ran out before a reading: its loss falls before an edge at that reading (R134). -/
def Mains.lostBefore (m : Mains) (t : Nat) : Bool :=
  decide (m.presence = .present)
    && (match m.lastCrossing with
        | some last => decide (last + Config.lossLimit < t)
        | none => false)

/-- An edge on a phase's zero-crossing input at timebase reading `t` (R131). A loss that falls before it is a moment of its own,
at which a FREE transmitter begins its notice (R149). -/
def State.edge (s : State) (p : Phase) (t : Nat) : State :=
  let s1 := (if (s.mains p).lostBefore t then (s.losePhase p).pump else s).advanceTo t
  if (s1.mains p).isGlitch t then s1 else s1.acceptCrossing p t

/-! ### The seconds clock (R137 to R139) -/

/-- The subcount advances at the next 1,000 µs without a rollover (R137). -/
def State.advanceSubcount (s : State) : State :=
  let c := s.mtb.clock
  if c.runs && decide (c.subcount < 999) then
    let s1 := s.advanceTo (c.mark + 1000)
    { s1 with mtb := { s1.mtb with clock := { c with subcount := c.subcount + 1, mark := c.mark + 1000 } } }
  else s

/-- The timebase reading at which a running clock's subcount next rolls over. -/
def Clock.rollover (c : Clock) : Nat := c.mark + 1000 * (1000 - c.subcount)

/-- The increment of the seconds clock, at the rollover of the subcount, with the checks of ORM and RFS (R137) after the
orders have noted the new reading (R67). -/
def State.incrementClock (s : State) : State :=
  let c := s.mtb.clock
  if c.runs then
    let s1 := s.advanceTo c.rollover
    State.clockChecks <| State.noteTimes
      { s1 with mtb := { s1.mtb with clock := { c with seconds := c.seconds + 1, subcount := 0, mark := c.rollover } } }
  else s

/-- The clock as SET_TIME leaves it (R138 step 2). -/
def State.setClock (s : State) (seconds : Nat) : State :=
  { s with mtb := { s.mtb with clock := ⟨true, seconds, 0, s.mtb.timebase⟩ } }

/-- SET_TIME (R138): the reply carries the reading as set and the reading before. -/
def handleSetTime (seconds : BitVec 32) (s : State) : Handled :=
  let before := s.mtb.clock
  let s1 := ((s.setClock seconds.toNat).noteTimes.mapLines Line.discardStaged).clockChecks.adjustRefresh
  (s1, ⟨.ok, bytes32 seconds ++ num32 before.seconds ++ num16 before.subcount ++ [flagByte before.isSet]⟩)

/-- GET_TIME (R139). -/
def handleGetTime (s : State) : Handled :=
  let c := s.mtb.clock
  (s, ⟨.ok, num32 c.seconds ++ num16 c.subcount ++ [flagByte c.isSet]⟩)

/-! ### QUIET (R140, R141) -/

/-- The running out of the release timer (R140). -/
def State.releaseQuiet (s : State) : State :=
  match s.mtb.releaseEnd with
  | some t =>
    let s1 := s.advanceTo t
    ({ s1 with mtb := { s1.mtb with quiet := false, releaseEnd := none } }.mapLines fun l =>
      { l with causes := { l.causes with quiet := false } }).post (.quiet false)
  | none => s

/-- QUIET_IN is asserted at reading `t` (Table 7-4). A release timer that ran out before that reading is taken first, at its own
moment, at which a FREE transmitter begins its notice (R149). -/
def State.assertQuiet (s : State) (t : Nat) : State :=
  let s1 :=
    match s.mtb.releaseEnd with
    | some e => if e < t then s.releaseQuiet.pump else s
    | none => s
  let s2 := s1.advanceTo t
  let s3 := { s2 with mtb := { s2.mtb with quietIn := true, quiet := true, releaseEnd := none } }
  if s1.mtb.quiet then s3 else s3.quietLines.post (.quiet true)

/-- QUIET_IN is released at reading `t` (Table 7-4): with the conditioned state ASSERTED and no timer running, the 1 s
release timer starts. -/
def State.releaseInput (s : State) (t : Nat) : State :=
  let s1 := s.advanceTo t
  let start : Option Nat :=
    if s.mtb.quiet then
      match s.mtb.releaseEnd with
      | some e => some e
      | none => some (t + Config.quietRelease)
    else none
  { s1 with mtb := { s1.mtb with quietIn := false, releaseEnd := start } }

end Sys2Proof.Machine
end

