-- ==== Sys2Proof/Machine/Setup.lean ====
section
/-! DEFINITION. Configuration, the Site Code Store, power-up, and the requests the Request Link Controller answers for
itself: status, identity, standing state and reset (06, 08 and 09 of spec/). -/

namespace Sys2Proof.Machine

/-! ### Configuration (R156 to R159) -/

/-- The parameters (Table 9-1). -/
inductive Param where
  | guard | margin | refreshPeriod | lead | tagBase
deriving DecidableEq, Repr

def paramOf (id : Byte) : Option Param :=
  if id = 0x01 then some .guard
  else if id = 0x02 then some .margin
  else if id = 0x03 then some .refreshPeriod
  else if id = 0x04 then some .lead
  else if id = 0x05 then some .tagBase
  else none

/-- The value of a parameter. -/
def Params.get (c : Params) : Param → Nat
  | .guard => c.guard
  | .margin => c.margin
  | .refreshPeriod => c.refreshPeriod
  | .lead => c.lead
  | .tagBase => c.tagBase

def Params.put (c : Params) (x : Param) (v : Nat) : Params :=
  match x with
  | .guard => { c with guard := v }
  | .margin => { c with margin := v }
  | .refreshPeriod => { c with refreshPeriod := v }
  | .lead => { c with lead := v }
  | .tagBase => { c with tagBase := v }

/-- A parameter's range (Table 9-1). -/
def Param.low : Param → Nat
  | .guard => 1
  | .margin => 0
  | .refreshPeriod => 60
  | .lead => 60
  | .tagBase => 1

def Param.high : Param → Nat
  | .guard => 4
  | .margin => 3
  | .refreshPeriod => 3600
  | .lead => 6000
  | .tagBase => 65535

/-- SET_CONFIG: the id, the table check of TAG_BASE, the clamping, the storing (R156, R159). A TAG_BASE of the value already stored
loads the tag counter like any other: R159 loads it with every value it takes, while R156 gives such a request no further effect
(DESIGN CHOICE, notes/assumptions/28.md). -/
def handleSetConfig (id : Byte) (value : BitVec 16) (s : State) : Handled :=
  match paramOf id with
  | none => s.refuse .badField
  | some x =>
    if x = .tagBase ∧ s.orm.table ≠ [] then s.refuse .notEmpty
    else
      let v := clampTo x.low x.high value.toNat
      let s1 := { s with params := s.params.put x v }
      (if x = .tagBase then { s1 with orm := { s1.orm with tagCounter := BitVec.ofNat 16 v } } else s1,
       ⟨if v = value.toNat then .ok else .clamped, id :: num16 v⟩)

/-- GET_CONFIG; for TAG_BASE the tag counter too (R157, Table 11-8). -/
def handleGetConfig (id : Byte) (s : State) : Handled :=
  match paramOf id with
  | none => s.refuse .badField
  | some x =>
    (s, ⟨.ok, id :: num16 (s.params.get x) ++ (if x = .tagBase then bytes16 s.orm.tagCounter else [0, 0])⟩)

/-! ### The Site Code Store (R160 to R162) -/

/-- What the store makes of its cells at power-up (R160). -/
def readCells (mark : MarkCells) (code : CodeCells) : StoreState × Addr :=
  match mark, code with
  | .unprogrammed, .unprogrammed => (.blank, 0)
  | .written, .holds c => if addressOk c then (.written, c) else (.fault, 0)
  | _, _ => (.fault, 0)

/-- The store after power-up. A programming that the power-up interrupts leaves its code cells partly programmed, unless
no cell had been changed (R160, R161). -/
def Scs.powerUp (x : Scs) (touched : Bool) : Scs :=
  let code := if x.programming.isSome && touched then .partly else x.codeCells
  let r := readCells x.markCells code
  ⟨r.1, r.2, x.markCells, code, none⟩

/-- The answer of WRITE_SITE where it is refused at once; `none` where programming begins (R161 steps 1 and 2). -/
def writeSiteAnswer (code : Addr) (s : State) : Option Answer :=
  if !addressOk code then some (.bare .badField)
  else
    match s.scs.state with
    | .written => some (.bare .siteWritten)
    | .fault => some (.bare .siteFault)
    | .blank => none

/-- The store begins to program a code (R161 step 3). -/
def State.beginProgramming (s : State) (code : Addr) : State := { s with scs := { s.scs with programming := some code } }

/-- Programming and readback end for a code: WRITTEN with SITE leaving every phase, or FAULT (R161, R162). -/
def endProgramming (code : Addr) (equal : Bool) (s : State) : Handled :=
  if equal then
    ({ s with scs := ⟨.written, code, .written, .holds code, none⟩ }.mapLines fun l =>
        { l with causes := { l.causes with site := false } },
     ⟨.ok, bytes24 code⟩)
  else ({ s with scs := ⟨.fault, 0, .fault, .partly, none⟩ }, .bare .siteFault)

/-! ### Power-up (R163) -/

/-- Every block takes its power-up state (Table 9-3). The waiting commands and the count of free picks, which are the
model's own, stay. -/
def State.powerOn (s : State) (quiet touched : Bool) : State :=
  { State.powerUp (s.scs.powerUp touched) quiet with pending := s.pending, picks := s.picks }

/-! ### Status and identity (R152, R153) -/

/-- How many records are in a state. -/
def Orm.countIn (m : Orm) (st : OrderState) : Nat := (m.table.filter fun o => decide (o.state = st)).length

/-- The order states in state-code order. -/
def orderStates : List OrderState :=
  [.waiting, .running, .closing, .complete, .partly, .expired, .superseded, .cancelled]

/-- What GET_STATUS carries for one phase (Table 11-8). -/
def State.phaseStatus (s : State) (p : Phase) : List Byte :=
  let l := s.line p
  [(s.mains p).presence.code, l.state.code, l.causes.code, flagByte l.holdPending]
    ++ bytes16 ((s.inService p).getD 0) ++ [num8 (s.queue p).length]

/-- The link flags byte: bit 0 link overrun, bit 1 notice lost. -/
def Rlc.flags (r : Rlc) : Byte := num8 (r.overrun.toNat + 2 * r.noticeLost.toNat)

/-- GET_STATUS: the report, then both flags are cleared (R151, R152). -/
def handleGetStatus (s : State) : Handled :=
  ({ s with rlc := { s.rlc with overrun := false, noticeLost := false } },
   ⟨.ok, num32 s.now ++ [flagByte s.mtb.clock.isSet, s.scs.state.code, flagByte s.mtb.quiet, num8 s.orm.floor]
     ++ orderStates.map (fun st => num8 (s.orm.countIn st))
     ++ s.phaseStatus .a ++ s.phaseStatus .b ++ s.phaseStatus .c
     ++ [num8 s.rlc.notices.length, s.rlc.flags]⟩)

/-- The site code GET_IDENTITY reports (R153, Table 9-2). -/
def Scs.reported (x : Scs) : Addr :=
  match x.state with
  | .written => x.code
  | _ => 0

/-- GET_IDENTITY (R153). -/
def handleGetIdentity (s : State) : Handled :=
  (s, ⟨.ok, num16 0x0340 ++ [num8 Config.designLevel, num8 Config.orderCapacity] ++ num16 Config.houseCapacity
    ++ [num8 Config.groupCount, num8 Config.freezeCapacity, num8 Config.missCapacity, num8 Config.noticeCapacity]
    ++ bytes24 s.scs.reported ++ [s.rlc.startCause.code]⟩)

/-! ### Reading the standing state (R127) -/

/-- The queued-at of a group in a queue. -/
def queuedAtOf (q : List QueueEntry) (g : Fin 16) : Option Nat := (q.find? fun e => e.group == g).map (·.queuedAt)

/-- The report of a standing record and its places in the queues (Table 11-8). -/
def State.standingReport (s : State) (g : Fin 16) : List Byte :=
  let x := s.standing g
  let qa := queuedAtOf (s.queue .a) g
  let qb := queuedAtOf (s.queue .b) g
  let qc := queuedAtOf (s.queue .c) g
  [num8 g.val, presenceByte [x.restoreUntil.isSome, x.nextRefresh.isSome, qa.isSome, qb.isSome, qc.isSome]]
    ++ bandField x.band ++ relayField x.relay ++ num32 (x.restoreUntil.getD 0) ++ num32 (x.nextRefresh.getD 0)
    ++ bytes16 x.changeCount ++ num32 (qa.getD 0) ++ num32 (qb.getD 0) ++ num32 (qc.getD 0)

/-- STANDING_READ (R127). -/
def handleStandingRead (group : Byte) (s : State) : Handled :=
  if h : group.toNat < 16 then (s, ⟨.ok, s.standingReport ⟨group.toNat, h⟩⟩) else s.refuse .badField

/-! ### Reset (R154) -/

/-- RESET's effect on the order table (R22). -/
def Orm.reset (m : Orm) : Orm := { m with table := [], floor := 7 }

/-- RESET's effect on the directory (R27, R43). -/
def Dir.reset (d : Dir) : Dir := { d with freezes := d.freezes.filter fun f => decide (f.mode = .hard) }

/-- RESET's effect on the link controller: the holding place, the notices and the flags are emptied, and STARTED (SOFT) is
posted (R154, R155). The receiver, the transmitter and the request in processing keep their state. -/
def Rlc.reset (r : Rlc) : Rlc :=
  { r with holding := none, notices := [.started .soft], overrun := false, noticeLost := false, startCause := .soft }

/-- RESET: every block acts on it (R154). -/
def handleReset (s : State) : Handled :=
  ({ s with
      orm := s.orm.reset
      lines := s.lines.map Line.reset
      dir := s.dir.reset
      rfs := { s.rfs with queues := ⟨[], [], []⟩ }
      rlc := s.rlc.reset },
   .bare .ok)

end Sys2Proof.Machine
end

