-- ==== Sys2Proof/Machine/Link.lean ====
section
/-! DEFINITION. The Request Link Controller: receiving bytes, taking records, handing requests to their owners, owing
replies, and the transmitter (08_the_request_link.md). -/

namespace Sys2Proof.Machine

/-! ### Handling a request (R147, R148) -/

/-- Hand a request to its owner. No answer means that the request stays in HANDLING: a WRITE_SITE that programs. -/
def handle (s : State) : Request → State × Option Answer
  | .getStatus => let r := handleGetStatus s; (r.1, some r.2)
  | .getIdentity => let r := handleGetIdentity s; (r.1, some r.2)
  | .setTime t => let r := handleSetTime t s; (r.1, some r.2)
  | .getTime => let r := handleGetTime s; (r.1, some r.2)
  | .setConfig id v => let r := handleSetConfig id v s; (r.1, some r.2)
  | .getConfig id => let r := handleGetConfig id s; (r.1, some r.2)
  | .writeSite c =>
    match writeSiteAnswer c s with
    | some a => (s, some a)
    | none => (s.beginProgramming c, none)
  | .housePut f => let r := handleHousePut f s; (r.1, some r.2)
  | .houseGet i => let r := handleHouseGet i s; (r.1, some r.2)
  | .houseRemove i => let r := handleHouseRemove i s; (r.1, some r.2)
  | .houseFind a => let r := handleHouseFind a s; (r.1, some r.2)
  | .freeze f l m => let r := handleFreeze f l m s; (r.1, some r.2)
  | .thaw f l => let r := handleThaw f l s; (r.1, some r.2)
  | .orderSubmit f => let r := handleOrderSubmit f s; (r.1, some r.2)
  | .orderRead t x => let r := handleOrderRead t x s; (r.1, some r.2)
  | .orderCancel t => let r := handleOrderCancel t s; (r.1, some r.2)
  | .orderRelease t => let r := handleOrderRelease t s; (r.1, some r.2)
  | .orderList => let r := handleOrderList s; (r.1, some r.2)
  | .setFloor f => let r := handleSetFloor f s; (r.1, some r.2)
  | .phaseHold p => let r := handlePhaseHold p s; (r.1, some r.2)
  | .phaseResume p => let r := handlePhaseResume p s; (r.1, some r.2)
  | .phaseStats p c => let r := handlePhaseStats p c s; (r.1, some r.2)
  | .standingRead g => let r := handleStandingRead g s; (r.1, some r.2)
  | .reset => let r := handleReset s; (r.1, some r.2)

/-- Put a record in processing in a stage. -/
def State.process (s : State) (rec : Record) (st : ReqStage) : State :=
  { s with rlc := { s.rlc with processing := some ⟨rec, st⟩ } }

/-- The reply to a request: its type is the request's plus 80h (R142, R147). -/
def replyTo (r : Request) (a : Answer) : Reply := ⟨requestType r + 0x80, a.code, a.rest⟩

/-- A request that has passed the envelope checks is in processing and handled by its owner; its reply is then owed
(R144, R147). -/
def State.handleRequest (s : State) (rec : Record) (r : Request) : State :=
  match handle s r with
  | (s1, some a) => s1.process rec (.owed (replyTo r a))
  | (s1, none) => s1.process rec .handling

/-- A record becomes the request in processing and is checked at once; a failed check owes an ERROR reply (R145, R146). -/
def State.takeRecord (s : State) (rec : Record) : State :=
  match checkEnvelope rec with
  | .request r => s.handleRequest rec r
  | .error code type => s.process rec (.owed ⟨0xFF, code, [type]⟩)

/-! ### Placing a completed record (R145) -/

/-- A record that completes while another request is in processing: held, or discarded with the overrun flag set. -/
def State.holdRecord (s : State) (rec : Record) : State :=
  match s.rlc.holding with
  | none => { s with rlc := { s.rlc with holding := some rec } }
  | some _ => { s with rlc := { s.rlc with overrun := true } }

/-- A record completes (R145). -/
def State.recordArrives (s : State) (rec : Record) : State :=
  match s.rlc.processing with
  | none => s.takeRecord rec
  | some _ => s.holdRecord rec

/-- The record of a good request completes (R145): the request is handled at once, or waits, or is discarded. -/
def State.requestArrives (s : State) (r : Request) : State :=
  match s.rlc.processing with
  | none => s.handleRequest (requestRecord r) r
  | some _ => s.holdRecord (requestRecord r)

/-- With no request in processing, the record in the holding place is taken (R145). -/
def State.takeHeld (s : State) : State :=
  match s.rlc.processing, s.rlc.holding with
  | none, some rec => { s with rlc := { s.rlc with holding := none } }.takeRecord rec
  | _, _ => s

/-! ### The receiver (R143) -/

def State.setReceiver (s : State) (x : Receiver) : State := { s with rlc := { s.rlc with receiver := x } }

/-- A record completes at the receiver, which returns to HUNT, and is handed on at that moment (R143, R145). -/
def State.completeRecord (s : State) (rec : Record) : State := (s.setReceiver .hunt).recordArrives rec

/-- The record that its length byte, type byte, body and CRC bytes spell. -/
def recordOf (bytes : List Byte) : Record :=
  .whole (byteAt bytes 1) ((bytes.drop 2).take (bytes.length - 4)) (word16 bytes (bytes.length - 2))

/-- The length byte is in 1 to 250. -/
def lengthOk (len : Byte) : Bool := decide (1 ≤ len.toNat ∧ len.toNat ≤ 250)

/-- A byte arrives on LNK_RXD (R143). -/
def State.receive (s : State) (b : Byte) : State :=
  match s.rlc.receiver with
  | .hunt => if b = 0xC3 then s.setReceiver (.record []) else s
  | .record [] =>
    if lengthOk b then s.setReceiver (.record [b]) else s.completeRecord (.badLength b)
  | .record (len :: rest) =>
    let bytes := len :: rest ++ [b]
    if bytes.length = len.toNat + 3 then s.completeRecord (recordOf bytes)
    else s.setReceiver (.record bytes)

/-! ### The transmitter (R149) -/

/-- The last byte of the record being sent leaves: the transmitter is FREE, and the request of a reply is complete
(R144, R149). -/
def State.endTransmission (s : State) : State :=
  match s.rlc.transmitter with
  | .free => s
  | .sending (.notice _) => { s with rlc := { s.rlc with transmitter := .free } }
  | .sending (.reply _) =>
    State.takeHeld { s with rlc := { s.rlc with transmitter := .free, processing := none } }

/-- A reply is owed. -/
def Rlc.owes (r : Rlc) : Bool :=
  match r.processing with
  | some ⟨_, .owed _⟩ => true
  | _ => false

/-- SEND_REPLY: a FREE transmitter begins the owed reply, ahead of every notice (R149 choice 1). -/
def Rlc.beginReply (r : Rlc) : Rlc := if r.owes then r.choose else r

/-- SEND_NOTICE: a FREE transmitter with no reply owed begins the oldest notice, which leaves the queue (R149 choice 2). -/
def Rlc.beginNotice (r : Rlc) : Rlc := if r.owes then r else r.choose

/-! ### The end of a WRITE_SITE (R162) -/

/-- Programming ends: the store takes its state and the reply is owed. -/
def State.completeWrite (s : State) (equal : Bool) : State :=
  match s.scs.programming with
  | none => s
  | some code =>
    let r := endProgramming code equal s
    match r.1.rlc.processing with
    | some pr => r.1.process pr.record (.owed (replyTo (.writeSite code) r.2))
    | none => r.1

end Sys2Proof.Machine
end

