-- ==== Sys2Proof/Machine/Events.lean ====
section
/-! DEFINITION. The event commands of the table, one meaning each. A row whose event has not come due in the state changes
nothing but that a FREE transmitter begins a record at once (R149). -/

namespace Sys2Proof.Machine

/-- POWER_UP (R160, R163). STARTED (POWER) stands in the queue until the transmitter begins it, as Tables 8-1 and 9-3
leave it. -/
def execPowerUp (quiet touched : Bool) (s : State) : Host.Outcome State Fault Refusal :=
  .next (s.powerOn quiet touched)

/-- RECORD_COMPLETE (R143, R145, R146). -/
def execRecordComplete (r : Record) (s : State) : Host.Outcome State Fault Refusal :=
  .next ((s.completeRecord r).pump)

/-- LINK_GAP_TIMEOUT: a record in assembly is discarded (R143). -/
def execLinkGapTimeout (s : State) : Host.Outcome State Fault Refusal :=
  .next ((s.setReceiver .hunt).pump)

/-- BYTE_WITHOUT_STOP_BIT: the byte is dropped and a record in assembly discarded (R143). -/
def execByteWithoutStopBit (s : State) : Host.Outcome State Fault Refusal :=
  .next ((s.setReceiver .hunt).pump)

/-- HOLDING_PLACE_TAKEN (R145). -/
def execHoldingPlaceTaken (s : State) : Host.Outcome State Fault Refusal :=
  .next (s.takeHeld.pump)

/-- SEND_REPLY (R149). -/
def execSendReply (s : State) : Host.Outcome State Fault Refusal :=
  .next { s with rlc := s.rlc.beginReply }

/-- SEND_NOTICE (R149). -/
def execSendNotice (s : State) : Host.Outcome State Fault Refusal :=
  .next { s with rlc := s.rlc.beginNotice }

/-- TRANSMIT_END (R144, R145, R149). -/
def execTransmitEnd (s : State) : Host.Outcome State Fault Refusal :=
  .next (s.endTransmission.pump)

/-- WRITE_SITE_COMPLETE (R161, R162). -/
def execWriteSiteComplete (equal : Bool) (s : State) : Host.Outcome State Fault Refusal :=
  .next ((s.completeWrite equal).pump)

/-- HOLD_TAKES_EFFECT (R86). -/
def execHoldTakesEffect (p : Phase) (s : State) : Host.Outcome State Fault Refusal :=
  .next ((s.holdTakesEffect p).pump)

/-- ORDER_CLOSING_END (R16). -/
def execOrderClosingEnd (tag : Tag) (s : State) : Host.Outcome State Fault Refusal :=
  .next ((s.closingEnd tag).pump)

/-- CLOCK_INCREMENT (R137). -/
def execClockIncrement (s : State) : Host.Outcome State Fault Refusal :=
  .next (s.incrementClock.pump)

/-- ORDER_EXPIRY (R19). -/
def execOrderExpiry (s : State) : Host.Outcome State Fault Refusal :=
  .next (s.expiryCheck.pump)

/-- ADOPTION (R118, R119). -/
def execAdoption (tag : Tag) (s : State) : Host.Outcome State Fault Refusal :=
  .next ((s.adoptIfDue tag).pump)

/-- SELF_RESTORE (R120). -/
def execSelfRestore (g : Fin 16) (s : State) : Host.Outcome State Fault Refusal :=
  .next ((s.restoreIfDue g).pump)

/-- REFRESH_TIMER_FIRE (R122). -/
def execRefreshTimerFire (g : Fin 16) (s : State) : Host.Outcome State Fault Refusal :=
  .next ((s.checkTimer g).pump)

/-- ZERO_CROSSING (R131, R132, R135). -/
def execZeroCrossing (p : Phase) (at_ : Nat) (s : State) : Host.Outcome State Fault Refusal :=
  .next ((s.edge p at_).pump)

/-- PHASE_RETURN (R135). -/
def execPhaseReturn (p : Phase) (s : State) : Host.Outcome State Fault Refusal :=
  .next ((s.returnIfDue p).pump)

/-- PHASE_LOST (R134). -/
def execPhaseLost (p : Phase) (s : State) : Host.Outcome State Fault Refusal :=
  .next ((s.loseIfPresent p).pump)

/-- QUIET_ASSERT (R81, R140). -/
def execQuietAssert (at_ : Nat) (s : State) : Host.Outcome State Fault Refusal :=
  .next ((s.assertQuiet at_).pump)

/-- QUIET_INPUT_RELEASE (R140). -/
def execQuietInputRelease (at_ : Nat) (s : State) : Host.Outcome State Fault Refusal :=
  .next ((s.releaseInput at_).pump)

/-- QUIET_RELEASE_TIMEOUT (R140). -/
def execQuietReleaseTimeout (s : State) : Host.Outcome State Fault Refusal :=
  .next (s.releaseQuiet.pump)

/-- GUARD_END (R49, R51). -/
def execGuardEnd (p : Phase) (s : State) : Host.Outcome State Fault Refusal :=
  .next ((s.takeMoveIf p .guardEnd).pump)

/-- SEND_COMPLETE (R49, R51). -/
def execSendComplete (p : Phase) (s : State) : Host.Outcome State Fault Refusal :=
  .next ((s.takeMoveIf p .sendComplete).pump)

/-- RELAY_END (R49, R52). -/
def execRelayEnd (p : Phase) (s : State) : Host.Outcome State Fault Refusal :=
  .next ((s.takeMoveIf p .relayEnd).pump)

/-- SLOT_PLANNED_END (R49, R55). -/
def execSlotPlannedEnd (p : Phase) (s : State) : Host.Outcome State Fault Refusal :=
  .next ((s.takeMoveIf p .plannedEnd).pump)

/-- LINE_FRAME_TAKEN (R88 to R90). -/
def execLineFrameTaken (p : Phase) (f : RxFrame) (s : State) : Host.Outcome State Fault Refusal :=
  .next ((s.takeFrame p f).pump)

/-- LINK_BYTE_RECEIVED (R143). -/
def execLinkByteReceived (b : Byte) (s : State) : Host.Outcome State Fault Refusal :=
  .next ((s.receive b).pump)

/-- FRONT_END_FRAME_COMPLETE (R46, R88). -/
def execFrontEndFrameComplete (p : Phase) (f : RxFrame) (s : State) : Host.Outcome State Fault Refusal :=
  .next ((s.frameCompleted p f).pump)

/-- SUBCOUNT_ADVANCE (R137). -/
def execSubcountAdvance (s : State) : Host.Outcome State Fault Refusal :=
  .next (s.advanceSubcount.pump)

end Sys2Proof.Machine
end

