-- ==== Sys2Proof/Machine/Requests.lean ====
section
/-! DEFINITION. The request commands of the table, one meaning each. A request row says that the good record of that
request completes on the link: the request is handled at once when none is in processing, waits in the holding place, or is
discarded with the overrun flag set (R145); afterwards a FREE transmitter begins a record at once (R149). -/

namespace Sys2Proof.Machine

/-- The whole of a request command (R145, R147, R149). -/
def State.takeRequest (s : State) (r : Request) : State := (s.requestArrives r).pump

/-- GET_STATUS (R152). -/
def execGetStatus (s : State) : Host.Outcome State Fault Refusal :=
  .next (s.takeRequest .getStatus)

/-- GET_IDENTITY (R153). -/
def execGetIdentity (s : State) : Host.Outcome State Fault Refusal :=
  .next (s.takeRequest .getIdentity)

/-- SET_TIME (R138). -/
def execSetTime (seconds : BitVec 32) (s : State) : Host.Outcome State Fault Refusal :=
  .next (s.takeRequest (.setTime seconds))

/-- GET_TIME (R139). -/
def execGetTime (s : State) : Host.Outcome State Fault Refusal :=
  .next (s.takeRequest .getTime)

/-- SET_CONFIG (R156, R159). -/
def execSetConfig (id : Byte) (value : BitVec 16) (s : State) : Host.Outcome State Fault Refusal :=
  .next (s.takeRequest (.setConfig id value))

/-- GET_CONFIG (R157). -/
def execGetConfig (id : Byte) (s : State) : Host.Outcome State Fault Refusal :=
  .next (s.takeRequest (.getConfig id))

/-- WRITE_SITE (R161; it stays in HANDLING while the store programs, R148). -/
def execWriteSite (code : Addr) (s : State) : Host.Outcome State Fault Refusal :=
  .next (s.takeRequest (.writeSite code))

/-- HOUSE_PUT (R37, R38). -/
def execHousePut (f : PutFields) (s : State) : Host.Outcome State Fault Refusal :=
  .next (s.takeRequest (.housePut f))

/-- HOUSE_GET (R41). -/
def execHouseGet (index : BitVec 16) (s : State) : Host.Outcome State Fault Refusal :=
  .next (s.takeRequest (.houseGet index))

/-- HOUSE_REMOVE (R39). -/
def execHouseRemove (index : BitVec 16) (s : State) : Host.Outcome State Fault Refusal :=
  .next (s.takeRequest (.houseRemove index))

/-- HOUSE_FIND (R42). -/
def execHouseFind (address : Addr) (s : State) : Host.Outcome State Fault Refusal :=
  .next (s.takeRequest (.houseFind address))

/-- FREEZE (R44). -/
def execFreeze (first last : BitVec 16) (mode : Byte) (s : State) : Host.Outcome State Fault Refusal :=
  .next (s.takeRequest (.freeze first last mode))

/-- THAW (R45). -/
def execThaw (first last : BitVec 16) (s : State) : Host.Outcome State Fault Refusal :=
  .next (s.takeRequest (.thaw first last))

/-- ORDER_SUBMIT (R9 to R13). -/
def execOrderSubmit (f : SubmitFields) (s : State) : Host.Outcome State Fault Refusal :=
  .next (s.takeRequest (.orderSubmit f))

/-- ORDER_READ (R23, R147). -/
def execOrderRead (tag : Tag) (sect : Byte) (s : State) : Host.Outcome State Fault Refusal :=
  .next (s.takeRequest (.orderRead tag sect))

/-- ORDER_CANCEL (R20). -/
def execOrderCancel (tag : Tag) (s : State) : Host.Outcome State Fault Refusal :=
  .next (s.takeRequest (.orderCancel tag))

/-- ORDER_RELEASE (R21). -/
def execOrderRelease (tag : Tag) (s : State) : Host.Outcome State Fault Refusal :=
  .next (s.takeRequest (.orderRelease tag))

/-- ORDER_LIST (R24). -/
def execOrderList (s : State) : Host.Outcome State Fault Refusal :=
  .next (s.takeRequest .orderList)

/-- SET_FLOOR (R25). -/
def execSetFloor (floor : Byte) (s : State) : Host.Outcome State Fault Refusal :=
  .next (s.takeRequest (.setFloor floor))

/-- PHASE_HOLD (R86). -/
def execPhaseHold (phase : Byte) (s : State) : Host.Outcome State Fault Refusal :=
  .next (s.takeRequest (.phaseHold phase))

/-- PHASE_RESUME (R87). -/
def execPhaseResume (phase : Byte) (s : State) : Host.Outcome State Fault Refusal :=
  .next (s.takeRequest (.phaseResume phase))

/-- PHASE_STATS (R92). -/
def execPhaseStats (phase clear : Byte) (s : State) : Host.Outcome State Fault Refusal :=
  .next (s.takeRequest (.phaseStats phase clear))

/-- STANDING_READ (R127). -/
def execStandingRead (group : Byte) (s : State) : Host.Outcome State Fault Refusal :=
  .next (s.takeRequest (.standingRead group))

/-- RESET (R154). -/
def execReset (s : State) : Host.Outcome State Fault Refusal :=
  .next (s.takeRequest .reset)

end Sys2Proof.Machine
end

