-- ==== Sys2Proof/Machine/Dispatch.lean ====
section
/-! DEFINITION. The meaning of each command, one arm per constructor. -/

namespace Sys2Proof.Machine

def exec (i : Instr) (s : State) : Host.Outcome State Fault Refusal :=
  match i with
  | .powerUp quiet touched => Sys2Proof.Machine.execPowerUp quiet touched s
  | .recordComplete r => Sys2Proof.Machine.execRecordComplete r s
  | .linkGapTimeout => Sys2Proof.Machine.execLinkGapTimeout s
  | .byteWithoutStopBit => Sys2Proof.Machine.execByteWithoutStopBit s
  | .holdingPlaceTaken => Sys2Proof.Machine.execHoldingPlaceTaken s
  | .sendReply => Sys2Proof.Machine.execSendReply s
  | .sendNotice => Sys2Proof.Machine.execSendNotice s
  | .transmitEnd => Sys2Proof.Machine.execTransmitEnd s
  | .getStatus => Sys2Proof.Machine.execGetStatus s
  | .getIdentity => Sys2Proof.Machine.execGetIdentity s
  | .setTime seconds => Sys2Proof.Machine.execSetTime seconds s
  | .getTime => Sys2Proof.Machine.execGetTime s
  | .setConfig id value => Sys2Proof.Machine.execSetConfig id value s
  | .getConfig id => Sys2Proof.Machine.execGetConfig id s
  | .writeSite code => Sys2Proof.Machine.execWriteSite code s
  | .writeSiteComplete equal => Sys2Proof.Machine.execWriteSiteComplete equal s
  | .housePut f => Sys2Proof.Machine.execHousePut f s
  | .houseGet index => Sys2Proof.Machine.execHouseGet index s
  | .houseRemove index => Sys2Proof.Machine.execHouseRemove index s
  | .houseFind address => Sys2Proof.Machine.execHouseFind address s
  | .freeze first last mode => Sys2Proof.Machine.execFreeze first last mode s
  | .thaw first last => Sys2Proof.Machine.execThaw first last s
  | .orderSubmit f => Sys2Proof.Machine.execOrderSubmit f s
  | .orderRead tag sect => Sys2Proof.Machine.execOrderRead tag sect s
  | .orderCancel tag => Sys2Proof.Machine.execOrderCancel tag s
  | .orderRelease tag => Sys2Proof.Machine.execOrderRelease tag s
  | .orderList => Sys2Proof.Machine.execOrderList s
  | .setFloor floor => Sys2Proof.Machine.execSetFloor floor s
  | .phaseHold phase => Sys2Proof.Machine.execPhaseHold phase s
  | .holdTakesEffect p => Sys2Proof.Machine.execHoldTakesEffect p s
  | .phaseResume phase => Sys2Proof.Machine.execPhaseResume phase s
  | .phaseStats phase clear => Sys2Proof.Machine.execPhaseStats phase clear s
  | .standingRead group => Sys2Proof.Machine.execStandingRead group s
  | .reset => Sys2Proof.Machine.execReset s
  | .orderClosingEnd tag => Sys2Proof.Machine.execOrderClosingEnd tag s
  | .clockIncrement => Sys2Proof.Machine.execClockIncrement s
  | .orderExpiry => Sys2Proof.Machine.execOrderExpiry s
  | .adoption tag => Sys2Proof.Machine.execAdoption tag s
  | .selfRestore g => Sys2Proof.Machine.execSelfRestore g s
  | .refreshTimerFire g => Sys2Proof.Machine.execRefreshTimerFire g s
  | .zeroCrossing p at_ => Sys2Proof.Machine.execZeroCrossing p at_ s
  | .phaseReturn p => Sys2Proof.Machine.execPhaseReturn p s
  | .phaseLost p => Sys2Proof.Machine.execPhaseLost p s
  | .quietAssert at_ => Sys2Proof.Machine.execQuietAssert at_ s
  | .quietInputRelease at_ => Sys2Proof.Machine.execQuietInputRelease at_ s
  | .quietReleaseTimeout => Sys2Proof.Machine.execQuietReleaseTimeout s
  | .guardEnd p => Sys2Proof.Machine.execGuardEnd p s
  | .sendComplete p => Sys2Proof.Machine.execSendComplete p s
  | .relayEnd p => Sys2Proof.Machine.execRelayEnd p s
  | .slotPlannedEnd p => Sys2Proof.Machine.execSlotPlannedEnd p s
  | .lineFrameTaken p f => Sys2Proof.Machine.execLineFrameTaken p f s
  | .linkByteReceived b => Sys2Proof.Machine.execLinkByteReceived b s
  | .frontEndFrameComplete p f => Sys2Proof.Machine.execFrontEndFrameComplete p f s
  | .subcountAdvance => Sys2Proof.Machine.execSubcountAdvance s

end Sys2Proof.Machine
end

