-- ==== Sys2Proof/Safety.lean ====
section
/-! DEFINITION. What a sound state is: the conditions the rules say always hold of the part's state, block by block. Claims
about every step take them as premises and conclusions; they are decidable, so that a concrete state can be checked. -/

namespace Sys2Proof.Machine

/-- A condition of each phase. -/
abbrev EachPhase (P : Phase → Prop) : Prop := P .a ∧ P .b ∧ P .c

/-! ### Line controllers and mains (R69 to R71, R86, R130 to R135) -/

/-- One line controller: a frame is on line exactly while a slot is in progress, the transmit enable is asserted exactly in
SEND, no GUARD or SEND stands with SITE, LOST or QUIET, and a hold is pending only during a slot and without HELD. -/
abbrev Line.Sound (l : Line) : Prop :=
  (l.segment = .none ↔ l.onLine = none)
    ∧ (l.txEnable = true ↔ l.segment = .send)
    ∧ (l.inCarrier = true → l.causes.site = false ∧ l.causes.lost = false ∧ l.causes.quiet = false)
    ∧ (l.holdPending = true → l.segment ≠ .none ∧ l.causes.held = false)

/-- The causes SITE, LOST and QUIET stand exactly while their conditions do (R69). -/
abbrev State.CausesAgree (s : State) (p : Phase) : Prop :=
  (s.line p).causes.site = decide (s.scs.state ≠ .written)
    ∧ (s.line p).causes.lost = decide ((s.mains p).presence = .lost)
    ∧ (s.line p).causes.quiet = s.mtb.quiet

/-- The Site Code Store: its state is what its cells spell, and it programs only a code in range and only while BLANK
(R160, R161). -/
abbrev Scs.Sound (x : Scs) : Prop :=
  readCells x.markCells x.codeCells = (x.state, x.code)
    ∧ (x.programming.all fun c => decide (x.state = .blank ∧ addressOk c = true)) = true

/-- The line controllers with the blocks that give them their causes. -/
abbrev State.LinesSound (s : State) : Prop :=
  s.scs.Sound ∧ EachPhase fun p => (s.line p).Sound ∧ s.CausesAgree p

/-- What the Mains and Time Block holds for a phase (Table 7-1, R133, R135). -/
abbrev Mains.Sound (m : Mains) : Prop :=
  (Config.minInterval ≤ m.period ∧ m.period ≤ Config.maxInterval)
    ∧ m.history.length ≤ Config.historyLength
    ∧ (∀ i ∈ m.history, Config.minInterval ≤ i ∧ i ≤ Config.maxInterval)
    ∧ min m.returnCount Config.historyLength ≤ m.history.length
    ∧ (m.presence = .present → m.returnCount = Config.returnGoal ∧ m.lastCrossing ≠ none)
    ∧ (m.presence = .lost → m.returnCount < Config.returnGoal)

/-- The seconds clock (R137): UNSET it reads 0, and stopped its subcount is 0. -/
abbrev Clock.Sound (c : Clock) : Prop :=
  c.seconds ≤ Config.maxSeconds ∧ c.subcount ≤ 999
    ∧ (c.isSet = false → c.seconds = 0 ∧ c.subcount = 0)
    ∧ (c.seconds = Config.maxSeconds → c.subcount = 0)

/-- The Mains and Time Block: a release timer runs only while QUIET is conditioned ASSERTED and the input is released, and
an asserted input is conditioned ASSERTED (R140). -/
abbrev Mtb.Sound (m : Mtb) : Prop :=
  (EachPhase fun p => (m.phases.get p).Sound) ∧ m.clock.Sound
    ∧ (m.releaseEnd ≠ none → m.quiet = true ∧ m.quietIn = false) ∧ (m.quietIn = true → m.quiet = true)

/-! ### Order Manager (R1, R2, R5, R13, R15, R76, R117) -/

/-- The tallies of a phase other than confirmed. -/
def Progress.missTally (pp : Progress) : Nat := pp.override + pp.notMember + pp.noReply + pp.rejected + pp.vacant

/-- The tallies other than confirmed, over the three phases. -/
def Order.missTally (o : Order) : Nat := o.progress.a.missTally + o.progress.b.missTally + o.progress.c.missTally

/-- One phase of an order: an active stage stands only on a live order, and one that serves or is paused on a RUNNING one. -/
abbrev Order.StageSound (o : Order) (p : Phase) : Prop :=
  ((o.progress.get p).stage.active = true → o.state.live = true)
    ∧ ((o.progress.get p).stage = .serving ∨ (o.progress.get p).stage = .paused → o.state = .running)

/-- One order record. -/
abbrev Order.Sound (o : Order) : Prop :=
  o.tag ≠ 0 ∧ o.priority ≤ 7 ∧ o.repeatCount ≤ 4 ∧ 1 ≤ o.retryLimit ∧ o.retryLimit ≤ 7
    ∧ (o.closing ≠ none ↔ o.state = .closing)
    ∧ (o.finishedAt ≠ none ↔ o.state.final = true)
    ∧ o.misses.length ≤ Config.missCapacity
    ∧ o.misses.length + o.unlisted = o.missTally
    ∧ (o.mark = none ↔ o.body.group = none)
    ∧ (o.result ≠ none → o.body.group = none)
    ∧ (o.reached = true → o.effective ≠ none)
    ∧ (o.state = .superseded ∨ o.state = .cancelled ∨ o.closing = some .superseded ∨ o.closing = some .cancelled →
        o.mark ≠ some .pending)
    ∧ EachPhase o.StageSound

/-- Two records have different tags (R1), are not both live with one kind and group (R13), and do not both serve one phase
(R76). -/
abbrev Order.Apart (x y : Order) : Prop :=
  x.tag ≠ y.tag
    ∧ ¬(x.state.live = true ∧ y.state.live = true ∧ x.body.sameKind y.body = true ∧ x.body.group ≠ none
          ∧ x.body.group = y.body.group)
    ∧ EachPhase fun p => ¬(x.servesOn p = true ∧ y.servesOn p = true)

/-- The Order Manager, record by record. -/
abbrev Orm.Sound (m : Orm) : Prop :=
  m.table.length ≤ Config.orderCapacity ∧ m.tagCounter ≠ 0 ∧ m.floor ≤ 7 ∧ ∀ o ∈ m.table, o.Sound

/-- The records against one another. -/
abbrev Orm.Distinct (m : Orm) : Prop := m.table.Pairwise fun x y => x.Apart y

/-- A live order whose effective time the clock reads or has passed has noted it (R11, R67). -/
abbrev State.TimesNoted (s : State) : Prop :=
  ∀ o ∈ s.orm.table, o.state.live = true → (∃ e ∈ o.effective, e ≤ s.now) → o.reached = true

/-- Slot in flight of an order on a phase is set exactly while the phase's slot serves it; the slot's order is in the table,
has not ended, and its stage there is neither DONE nor NOT_INVOLVED (R3, R84). -/
abbrev State.SlotsAgree (s : State) : Prop :=
  EachPhase fun p =>
    (∀ o ∈ s.orm.table, (o.progress.get p).inFlight = decide ((s.line p).slotOrder = some o.tag))
      ∧ ((s.line p).slotOrder.all fun t => decide (∃ o ∈ s.orm.table, o.tag = t ∧ o.state.final = false
          ∧ (o.progress.get p).stage ≠ .done ∧ (o.progress.get p).stage ≠ .notInvolved)) = true

/-! ### House Directory (R31, R33, R36, R43) -/

/-- How many routes name an index. -/
def Dir.named (d : Dir) (i : Nat) : Nat := d.houses.countP fun e => e.2.route.contains i

/-- One occupied entry: address, health, margin and reference count (R31, R33, R34). -/
abbrev Dir.EntrySound (d : Dir) (i : Nat) (h : House) : Prop :=
  i < Config.houseCapacity ∧ addressOk h.address = true ∧ h.missCount ≤ 15 ∧ h.health = healthOf h.missCount
    ∧ (∀ m ∈ h.margin, m ≤ 63) ∧ h.refCount = d.named i

/-- The route of an entry: 0 to 2 distinct occupied entries on its phase, other than itself, with empty routes (R31). -/
abbrev Dir.RouteSound (d : Dir) (i : Nat) (h : House) : Prop :=
  h.route.length ≤ 2 ∧ d.routeOk i h.phase h.route = true

/-- The directory: indices rising, addresses distinct, every entry and route sound. -/
abbrev Dir.Sound (d : Dir) : Prop :=
  (d.houses.map (·.1)).Pairwise (· < ·) ∧ (d.houses.map (·.2.address)).Nodup
    ∧ (∀ e ∈ d.houses, d.EntrySound e.1 e.2 ∧ d.RouteSound e.1 e.2)

/-- The freeze table (R43). -/
abbrev Dir.FreezesSound (d : Dir) : Prop :=
  d.freezes.length ≤ Config.freezeCapacity
    ∧ ∀ f ∈ d.freezes, f.first ≤ f.last ∧ f.last < Config.houseCapacity

/-- The frames in a line controller's buffers. -/
def Line.frames (l : Line) : List Frame := (l.onLine.map (·.frame)).toList ++ l.staged.toList

/-- The repeater addresses of an addressed frame, as composed. -/
def Content.hops : Content → List Addr
  | .directBand _ _ hops _ _ _ _ _ => hops
  | .directRelay _ _ hops _ _ _ _ _ _ => hops
  | .query _ _ hops _ => hops
  | _ => []

/-- A composed frame agrees with the directory: its target is occupied and holds the address and the route the frame was
composed with, and its repeaters hold the addresses it carries (R28, R36). -/
abbrev State.FrameAgrees (s : State) (f : Frame) : Prop :=
  ∀ i ∈ f.target,
    (s.house i).map (·.address) = f.content.address ∧ (s.house i).map (·.route) = some f.route
      ∧ f.route.map s.addressAt = f.content.hops

abbrev State.FramesAgree (s : State) : Prop := EachPhase fun p => ∀ f ∈ (s.line p).frames, s.FrameAgrees f

/-- The lengths of a composed frame: G and M in their ranges, the carrier time of its bytes, at most two hops, the reply its kind
expects, and the planned length these give, 5 to 51 half-cycles (Tables 3-1 to 3-4, R54). -/
abbrev Frame.Sized (f : Frame) : Prop :=
  (1 ≤ f.guard ∧ f.guard ≤ 4) ∧ f.hops ≤ 2 ∧ f.hops = f.route.length ∧ f.hops = f.content.hops.length
    ∧ f.carrier = carrierOf f.content.size ∧ f.replyLen = f.content.replyCarrier
    ∧ (f.marginLen = none ↔ f.replyLen = none) ∧ f.marginLen.getD 0 ≤ 3
    ∧ f.planned = (match f.replyLen with
        | none => f.guard + f.carrier
        | some rr => f.guard + f.marginLen.getD 0 + 1 + f.carrier + rr + f.hops * (f.carrier + rr + 2))
    ∧ 5 ≤ f.planned ∧ f.planned ≤ 51

abbrev State.FramesSized (s : State) : Prop := EachPhase fun p => ∀ f ∈ (s.line p).frames, f.Sized

/-! ### Refresh Scheduler (R115, R119 to R122) -/

/-- One standing record: restore-until stands only beside a standing SHED, and next refresh from the first adoption on. -/
abbrev Standing.Sound (x : Standing) : Prop :=
  (x.restoreUntil ≠ none → x.relay.map (·.1) = some .shed)
    ∧ (x.nextRefresh ≠ none ↔ x.band ≠ none ∨ x.relay ≠ none)
    ∧ (∀ t ∈ x.nextRefresh, t ≤ Config.maxSeconds) ∧ (∀ t ∈ x.restoreUntil, t ≤ Config.maxSeconds)

/-- One refresh queue: at most 16 entries, no group twice, only groups with a standing part (R121). -/
abbrev State.QueueSound (s : State) (q : List QueueEntry) : Prop :=
  q.length ≤ Config.groupCount ∧ (q.map (·.group)).Nodup
    ∧ ∀ e ∈ q, (s.standing e.group).band ≠ none ∨ (s.standing e.group).relay ≠ none

abbrev State.RefreshSound (s : State) : Prop :=
  (∀ g ∈ allGroups, (s.standing g).Sound) ∧ EachPhase fun p => s.QueueSound (s.queue p)

/-! ### Request link and parameters (R144 to R150, R156) -/

/-- The reply the transmitter is sending. -/
def Rlc.replySent (r : Rlc) : Option Reply :=
  match r.transmitter with
  | .sending (.reply x) => some x
  | _ => none

/-- The link controller: at most 16 notices, a record is held only while a request is in processing, and the reply
being sent is the one owed. -/
abbrev Rlc.Sound (r : Rlc) : Prop :=
  r.notices.length ≤ Config.noticeCapacity
    ∧ (r.processing = none → r.holding = none)
    ∧ (∀ x ∈ r.replySent, r.processing.map (·.stage) = some (.owed x))

/-- A request stands in HANDLING exactly while the store programs (R148). -/
abbrev State.HandlingAgrees (s : State) : Prop :=
  s.rlc.processing.map (·.stage) = some .handling ↔ s.scs.programming ≠ none

/-- Every parameter is in its range (Table 9-1). -/
abbrev Params.Sound (c : Params) : Prop :=
  (1 ≤ c.guard ∧ c.guard ≤ 4) ∧ c.margin ≤ 3 ∧ (60 ≤ c.refreshPeriod ∧ c.refreshPeriod ≤ 3600)
    ∧ (60 ≤ c.lead ∧ c.lead ≤ 6000) ∧ (1 ≤ c.tagBase ∧ c.tagBase ≤ 65535)

end Sys2Proof.Machine
end

