-- ==== Sys2Proof/Certificates/Slice0/Obligations.lean ====
section
/-! DEFINITION. The statements for the provers, and the few notions they share. -/

namespace Sys2Proof.Machine

/-! ### Notions of the statements -/

/-- The command that says a request's good record completes on the link. -/
def requestCommand : Request → Instr
  | .getStatus => .getStatus
  | .getIdentity => .getIdentity
  | .setTime t => .setTime t
  | .getTime => .getTime
  | .setConfig id v => .setConfig id v
  | .getConfig id => .getConfig id
  | .writeSite c => .writeSite c
  | .housePut f => .housePut f
  | .houseGet i => .houseGet i
  | .houseRemove i => .houseRemove i
  | .houseFind a => .houseFind a
  | .freeze f l m => .freeze f l m
  | .thaw f l => .thaw f l
  | .orderSubmit f => .orderSubmit f
  | .orderRead t x => .orderRead t x
  | .orderCancel t => .orderCancel t
  | .orderRelease t => .orderRelease t
  | .orderList => .orderList
  | .setFloor f => .setFloor f
  | .phaseHold p => .phaseHold p
  | .phaseResume p => .phaseResume p
  | .phaseStats p c => .phaseStats p c
  | .standingRead g => .standingRead g
  | .reset => .reset

/-- The state in which a record is in processing with its reply owed; a FREE transmitter has begun the reply. -/
def State.owing (s : State) (rec : Record) (reply : Reply) : State :=
  { s with
    rlc := { s.rlc with
      processing := some ⟨rec, .owed reply⟩
      transmitter := if s.rlc.transmitter = .free then .sending (.reply reply) else s.rlc.transmitter } }

/-- The state in which a request's reply of the given code and further body is owed. -/
def State.replied (s : State) (r : Request) (code : Code) (rest : List Byte) : State :=
  s.owing (requestRecord r) ⟨requestType r + 0x80, code, rest⟩

/-- Give bytes to LNK_RXD one after another. -/
def receiveAll : List Byte → State → Host.Outcome State Fault Refusal
  | [], s => .next s
  | b :: l, s =>
    match exec (.linkByteReceived b) s with
    | .next t => receiveAll l t
    | .fault r => .fault r
    | .refused r => .refused r

/-- Some range of the freeze table covers the index (R43). -/
def FrozenAt (s : State) (i : Nat) : Prop := ∃ f ∈ s.dir.freezes, f.first ≤ i ∧ i ≤ f.last

/-- Some frame on line or staged names the index as its target or a repeater (R36). -/
def BusyAt (s : State) (i : Nat) : Prop := ∃ p, ∃ f ∈ (s.line p).frames, f.target = some i ∨ i ∈ f.route

/-- The route of a HOUSE_PUT: its hop slots within the route count (Table 11-6). -/
def putHops (f : PutFields) : List Nat :=
  if f.routeCount = 0 then [] else if f.routeCount = 1 then [f.hop1.toNat] else [f.hop1.toNat, f.hop2.toNat]

/-- Check 1 of R37. -/
def PutInRange (f : PutFields) : Prop :=
  f.index.toNat ≤ 479 ∧ (1 ≤ f.address.toNat ∧ f.address.toNat ≤ 0xFFFFFE) ∧ (f.phase = 1 ∨ f.phase = 2 ∨ f.phase = 3)
    ∧ f.routeCount.toNat ≤ 2 ∧ ∀ j ∈ putHops f, j ≤ 479

/-- Check 4 of R37 fails: another occupied entry holds the address. -/
def AddressTaken (s : State) (f : PutFields) : Prop :=
  ∃ e ∈ s.dir.houses, e.1 ≠ f.index.toNat ∧ e.2.address = f.address

/-- Check 5 of R37. -/
def PutRouteOk (s : State) (f : PutFields) : Prop :=
  (putHops f).Nodup
    ∧ ∀ j ∈ putHops f, j ≠ f.index.toNat ∧ ∃ h, s.house j = some h ∧ phaseCode h.phase = f.phase ∧ h.route = []

/-- Check 6 of R37. -/
def PutReferenceOk (s : State) (f : PutFields) : Prop :=
  ∀ h, s.house f.index.toNat = some h → h.refCount ≠ 0 → phaseCode h.phase = f.phase ∧ putHops f = []

/-- All six checks of R37. -/
def PutPasses (s : State) (f : PutFields) : Prop :=
  PutInRange f ∧ ¬FrozenAt s f.index.toNat ∧ ¬BusyAt s f.index.toNat ∧ ¬AddressTaken s f ∧ PutRouteOk s f
    ∧ PutReferenceOk s f

/-- Expiry as stored (R11). -/
def expiryAsStored (x now : Nat) : Nat := if x ≤ now + 604800 then x else min (now + 604800) 4294967295

/-- The conditions of R10. -/
def SubmitInRange (f : SubmitFields) (now : Nat) : Prop :=
  (f.kind = 1 ∨ f.kind = 2 ∨ f.kind = 3) ∧ f.priority.toNat ≤ 7
    ∧ (f.kind ≠ 3 → f.group.toNat ≤ 15)
    ∧ (f.kind = 1 → f.value.toNat ≤ 7 ∧ f.restore = 0)
    ∧ (f.kind = 2 → (f.value = 0 ∨ f.value = 1) ∧ f.restore.toNat ≤ 1440 ∧ (f.restore ≠ 0 → f.value = 0))
    ∧ (f.kind ≠ 3 → (f.policy = 0 ∨ f.policy = 1) ∧ (f.direction = 0 ∨ f.direction = 1)
        ∧ ¬(f.repeats = 0 ∧ f.policy = 0))
    ∧ (f.kind = 3 → f.target.toNat ≤ 479)
    ∧ (f.effFlag ≠ 0 → f.effective.toNat < expiryAsStored f.expiry.toNat now)

/-- The target of a QUERY submission is vacant. -/
def SubmitTargetVacant (s : State) (f : SubmitFields) : Prop := f.kind = 3 ∧ s.house f.target.toNat = none

/-- No occupied entry holds the group of a band or relay submission. -/
def SubmitNoMember (s : State) (f : SubmitFields) : Prop :=
  f.kind ≠ 3 ∧ ∀ e ∈ s.dir.houses, e.2.groups.getLsbD f.group.toNat = false

/-- The body an admitted submission is stored with. -/
def SubmitBody (f : SubmitFields) (b : OrderBody) : Prop :=
  (f.kind = 1 → ∃ g : Fin 16, g.val = f.group.toNat ∧ b = .band g f.value.toNat)
    ∧ (f.kind = 2 → ∃ g : Fin 16, g.val = f.group.toNat ∧
        b = .relay g (if f.value = 0 then .shed else .on) (if f.restore = 0 then none else some f.restore.toNat))
    ∧ (f.kind = 3 → b = .query f.target.toNat)

/-- The phase is involved in a submission: an occupied entry on it holds the group, or it is the target's phase (R4). -/
def SubmitInvolves (s : State) (f : SubmitFields) (p : Phase) : Prop :=
  (f.kind ≠ 3 ∧ ∃ e ∈ s.dir.houses, e.2.phase = p ∧ e.2.groups.getLsbD f.group.toNat = true)
    ∨ (f.kind = 3 ∧ ∃ h, s.house f.target.toNat = some h ∧ h.phase = p)

/-- An order that ends with a closing reason (R15): its active stages are STOPPED, and it is CLOSING while a slot of it is
in flight and otherwise final; a PENDING mark passes unless the reason is EXPIRED (R117). -/
def endedOrder (o : Order) (reason : Reason) (now : Nat) : Order :=
  let flying := o.progress.a.inFlight || o.progress.b.inFlight || o.progress.c.inFlight
  { o with
    progress := o.progress.map fun pp =>
      { pp with stage := if pp.stage = .queued ∨ pp.stage = .serving ∨ pp.stage = .paused then .stopped else pp.stage }
    state := if flying then .closing else reason.final
    closing := if flying then some reason else none
    finishedAt := if flying then o.finishedAt else some now
    mark := if reason ≠ .expired ∧ o.mark = some .pending then some .passed else o.mark }

/-- A line controller without a frame staged for the order. -/
def withoutStaged (l : Line) (tag : Tag) : Line :=
  { l with staged := l.staged.bind fun f => if f.work = .order tag then none else some f }

/-- A statistics count after one event: it stands still at 65535 (R92). -/
def countUp (n : Nat) : Nat := if n < 65535 then n + 1 else n

/-- A line controller after an abort by QUIET or by loss of the phase (R84). -/
def abortedLine (l : Line) : Line :=
  { l with
    causes := { l.causes with held := l.causes.held || l.holdPending }
    holdPending := false
    segment := .none
    txEnable := false
    onLine := none
    staged := none
    stats := { l.stats with slotsAborted := countUp l.stats.slotsAborted } }

/-- What GET_STATUS reports of one phase (R152, Table 11-8). -/
def phaseBytes (s : State) (p : Phase) : List Byte :=
  [(s.mains p).presence.code,
    if (s.line p).segment ≠ .none then 0x01 else if (s.line p).causes = ⟨false, false, false, false⟩ then 0x00 else 0x02,
    num8 ((s.line p).causes.site.toNat + 2 * (s.line p).causes.lost.toNat + 4 * (s.line p).causes.quiet.toNat
      + 8 * (s.line p).causes.held.toNat),
    if (s.line p).holdPending then 0x01 else 0x00]
  ++ bytes16 (((s.orm.table.filter fun o => decide ((o.progress.get p).stage = .serving)).map (·.tag)).headD 0)
  ++ [num8 (s.queue p).length]

/-! ### Notions of the statements: the directory -/

/-- The freeze table as FREEZE and THAW report it: the count, and four slots of five bytes, the unused ones 0. -/
def freezeBytes (fs : List Freeze) : List Byte :=
  num8 fs.length :: fs.flatMap (fun f => num16 f.first ++ num16 f.last ++ [f.mode.code]) ++ List.replicate (20 - 5 * fs.length) 0

/-- How a reference count stands after a route changes: one less if only the old route named the entry, one more if only the
new one does (R38). -/
def countAfter (old new : List Nat) (j n : Nat) : Nat :=
  if j ∈ old ∧ j ∉ new then n - 1 else if j ∈ new ∧ j ∉ old then n + 1 else n

/-! ### Notions of the statements: orders -/

/-- The tag counter's next value (R7). -/
def tagAfter (t : Tag) : Tag := if t = 65535 then 1 else t + 1

/-- Tag `a` is newer than tag `b` (R7). -/
abbrev Newer (a b : Tag) : Prop := 1 ≤ (a - b).toNat ∧ (a - b).toNat ≤ 32767

/-- The record is superseded by the admission of an order of the given body (R13). -/
abbrev SupersededBy (b : OrderBody) (x : Order) : Prop :=
  b.group ≠ none ∧ x.body.group = b.group ∧ x.body.kindCode = b.kindCode ∧ (x.state = .waiting ∨ x.state = .running)

/-- A live order after a clock reading: once E is at or before a reading, that is noted for good (R11, R67). -/
def noted (o : Order) (now : Nat) : Order :=
  { o with reached :=
      o.reached || (decide (o.state = .waiting ∨ o.state = .running) && decide (∃ e ∈ o.effective, e ≤ now)) }

/-- A record without its adoption mark. -/
def unmarked (o : Order) : Order := { o with mark := none }

/-- An order with its slot in flight on a phase cleared: a CLOSING one with no other in flight enters the final state its
closing reason names (R16). -/
def slotCleared (o : Order) (p : Phase) (now : Nat) : Order :=
  let o1 := { o with progress := o.progress.set p { o.progress.get p with inFlight := false } }
  match o1.state, o1.closing with
  | .closing, some reason =>
    if o1.progress.a.inFlight || o1.progress.b.inFlight || o1.progress.c.inFlight then o1
    else { o1 with state := reason.final, closing := none, finishedAt := some now }
  | _, _ => o1

/-- An order's place on a phase: its cursor and its attempts at the cursor. -/
def placeOn (o : Order) (p : Phase) : Place := ⟨(o.progress.get p).cursor, (o.progress.get p).attempts⟩

/-- An order whose slot on a phase is aborted: slot in flight is cleared, and the cursor and the attempts at it stand as
before the slot began (R84). -/
def slotAborted (l : Line) (o : Order) (p : Phase) (now : Nat) : Order :=
  slotCleared
    (match l.onLine.bind fun ol => ol.before with
      | some x => { o with
          progress := o.progress.set p { o.progress.get p with cursor := x.cursor, attempts := x.attempts } }
      | none => o) p now

/-- An order with one more repeat sent on a phase (R96). -/
def repeated (o : Order) (p : Phase) : Order :=
  { o with
    progress := o.progress.set p { o.progress.get p with repeatsSent := (o.progress.get p).repeatsSent + 1 } }

/-- The notices of the orders whose CLOSING ends with the slot of a phase (R16, R18). -/
def closingNotices (s : State) (p : Phase) : List Notice :=
  s.orm.table.filterMap fun o =>
    if (s.line p).slotOrder = some o.tag ∧ o.state = .closing ∧ (slotCleared o p s.now).state ≠ .closing then
      some (.orderEnd o.tag (slotCleared o p s.now).state)
    else none

/-- The candidate is due for adoption (R117, R118). -/
abbrev DueForAdoption (o : Order) (now : Nat) : Prop :=
  o.mark = some .pending
    ∧ (o.state = .waiting ∨ o.state = .running ∨ o.state = .complete ∨ o.state = .partly ∨ o.state = .expired
        ∨ (o.state = .closing ∧ o.closing = some .expired))
    ∧ EachPhase (fun p => (o.progress.get p).stage = .notInvolved ∨ (o.progress.get p).repeatsSent = o.repeatCount)
    ∧ ∀ e ∈ o.effective, e ≤ now

/-- The state with one group's standing record replaced. -/
def withStanding (s : State) (g : Fin 16) (x : Standing) : State :=
  { s with rfs := { s.rfs with standing := s.rfs.standing.set g x } }

/-- The state with the adoption mark of one record replaced. -/
def withMark (s : State) (tag : Tag) (m : Mark) : State :=
  { s with orm := { s.orm with table := s.orm.table.map fun o => if o.tag = tag then { o with mark := some m } else o } }

/-- Bytes of a reply by the offsets of Table 11-7, where offset 0 is the reply code. -/
def field (l : List Byte) (offset bytes : Nat) : List Byte := (l.drop (offset - 1)).take bytes

/-- The unsigned number in `n` bytes from an offset, most significant byte first (R164). -/
def number (l : List Byte) (offset n : Nat) : Nat := ((l.drop offset).take n).foldl (fun a (b : Byte) => 256 * a + b.toNat) 0

/-! ### Notices and lines -/

/-- Notices posted one after another. -/
def State.postAll (s : State) (l : List Notice) : State := l.foldl (fun s n => s.post n) s

/-- The state with a new order admitted (R12, R13), before any adoption: the live record of its kind and group has ended
SUPERSEDED, with its ORDER_END posted where no slot of it is in flight. -/
def admitted (s : State) (o : Order) : State :=
  let gone := s.orm.table.filter fun x => decide (SupersededBy o.body x)
  State.postAll
    { s with
      orm :=
        { table := (s.orm.table.map fun x => if x ∈ gone then endedOrder x .superseded s.now else x) ++ [o]
          tagCounter := tagAfter o.tag
          seqCounter := s.orm.seqCounter + 1
          floor := s.orm.floor }
      lines := s.lines.map fun l =>
        { l with staged := l.staged.bind fun f => if ∃ x ∈ gone, f.work = .order x.tag then none else some f } }
    ((gone.filter fun x => decide ((endedOrder x .superseded s.now).state = .superseded)).map fun x =>
      .orderEnd x.tag .superseded)

/-- The adoption check of one record after another (R118). -/
def adoptEach : List Tag → State → Host.Outcome State Fault Refusal
  | [], s => .next s
  | tag :: l, s =>
    match exec (.adoption tag) s with
    | .next t => adoptEach l t
    | .fault r => .fault r
    | .refused r => .refused r

/-- The state with a record in sending, so that what is posted waits in the notice queue. -/
def whileSending (s : State) : State :=
  { s with rlc := { s.rlc with transmitter := .sending (.notice (.quiet true)) } }

/-- The state a row leaves while a record is in sending, with the transmitter as it stood before. -/
def RowLeaves (outcome : Host.Outcome State Fault Refusal) (s t : State) : Prop :=
  ∃ u, outcome = .next u ∧ t = { u with rlc := { u.rlc with transmitter := s.rlc.transmitter } }

/-- The adoption check of every record in admission order (R118). -/
def AdoptionsFrom (s t : State) : Prop := RowLeaves (adoptEach (s.orm.table.map (·.tag)) (whileSending s)) s t

/-- The state with the order table's records replaced. -/
def withTable (s : State) (table : List Order) : State := { s with orm := { s.orm with table := table } }

/-- The state with one phase's refresh queue replaced. -/
def withQueue (s : State) (p : Phase) (q : List QueueEntry) : State :=
  { s with rfs := { s.rfs with queues := s.rfs.queues.set p q } }

/-- The state with one phase's line controller replaced. -/
def withLine (s : State) (p : Phase) (l : Line) : State := { s with lines := s.lines.set p l }

/-- The state with one phase's mains items replaced, at a timebase reading of at least `t`. -/
def withMains (s : State) (p : Phase) (m : Mains) (t : Nat) : State :=
  { s with mtb := { s.mtb with phases := s.mtb.phases.set p m, timebase := max s.mtb.timebase t } }

/-- The zeroed statistics. -/
def noStats : Stats := ⟨0, 0, 0, 0, 0, 0, none⟩

/-- The history of a phase after an in-range interval (R133). -/
def historyWith (h : List Nat) (i : Nat) : List Nat := if h.length < 16 then h ++ [i] else h.tail ++ [i]

/-- The mains items of a PRESENT phase after an accepted crossing at `t` (R132). -/
def crossedMains (m : Mains) (last t : Nat) : Mains :=
  let m1 := { m with lastCrossing := some t, hc := m.hc + 1 }
  if t - last ≤ 12500 then
    { m1 with history := historyWith m.history (t - last), period := (historyWith m.history (t - last)).sum / 16 }
  else m1

/-- A crossing at `t` is accepted on a PRESENT phase: 8,000 to 25,000 µs after the last accepted one (R131, R134). At 25,000
the loss is due at the same moment, and a crossing commanded there is the one taken first (notes/assumptions/14.md). -/
def CrossingAt (s : State) (p : Phase) (last t : Nat) : Prop :=
  (s.mains p).presence = .present ∧ (s.mains p).lastCrossing = some last ∧ last + 8000 ≤ t ∧ t ≤ last + 25000

/-- A line controller whose slot has ended at its gap: the on-line buffer is empty and a pending hold has taken effect (R75,
R86); the staged frame is still to be judged. -/
def endedLine (l : Line) (stats : Stats) : Line :=
  { l with
    causes := { l.causes with held := l.causes.held || l.holdPending }
    holdPending := false
    segment := .none
    txEnable := false
    onLine := none
    stats := stats }

/-- The slot on a phase stands at the crossing `offset` half-cycles after its start. -/
def AtOffset (s : State) (p : Phase) (ol : OnLine) (offset : Nat) : Prop := ((s.mains p).hc - ol.start).toNat = offset

/-- What an attempt's reply determines, by Table 5-2 and R105; `last` says that the attempt uses up the allowance. -/
def attemptResult (tag : Tag) (last : Bool) : Option (Byte × Tag) → Option Result
  | none => if last then some (.miss .noReply) else none
  | some (status, t) =>
    if (t = tag ∨ (t ≠ 0 ∧ Newer t tag)) ∧ (status = 1 ∨ status = 2) then some .confirmed
    else if (t = tag ∨ (t ≠ 0 ∧ Newer t tag)) ∧ status = 3 then some (.miss .override)
    else if (t = tag ∨ (t ≠ 0 ∧ Newer t tag)) ∧ status = 4 then some (.miss .notMember)
    else if last then some (.miss .rejected)
    else none

/-- The entry at an index is a member for a group on a phase (R29). -/
def MemberAt (s : State) (g : Fin 16) (p : Phase) (j : Nat) : Prop :=
  ∃ h, s.house j = some h ∧ h.phase = p ∧ h.groups.getLsbD g.val = true

/-- Index `j` lies beyond index `i` in a direction. -/
def Beyond (dirn : Direction) (i j : Nat) : Prop :=
  match dirn with
  | .ascending => i < j
  | .descending => j < i

/-- The cursor is at the first member beyond an index, or at END (R99, R100). -/
def CursorBeyond (s : State) (g : Fin 16) (p : Phase) (dirn : Direction) (i : Nat) : Cursor → Prop
  | .at j => MemberAt s g p j ∧ Beyond dirn i j ∧ ∀ k, MemberAt s g p k → Beyond dirn i k → k = j ∨ Beyond dirn j k
  | .atEnd => ∀ k, MemberAt s g p k → ¬Beyond dirn i k

/-- The mains items of a LOST phase after an accepted crossing with an in-range interval (R135). -/
def returningMains (m : Mains) (last t : Nat) : Mains :=
  { m with lastCrossing := some t, history := historyWith m.history (t - last), returnCount := m.returnCount + 1 }

/-- The remaining restore minutes of a REFRESH frame (R125). -/
def MinutesLeft (til : Option Nat) (now minutes : Nat) : Prop :=
  (∀ r, til = some r → now < r →
      minutes = 65535 ∧ 65535 * 60 < r - now ∨ minutes ≤ 65535 ∧ r - now ≤ 60 * minutes ∧ 60 * minutes < r - now + 60)
    ∧ ((∀ r, til = some r → r ≤ now) → minutes = 0)

/-- The REFRESH frame of a group, composed at one crossing for a start at another (Table 3-4, R125). -/
def refreshFrameOf (s : State) (g : Fin 16) (minutes : Nat) (composed start : Hc) : Frame where
  work := .refresh g
  step := .refresh
  content := .refresh s.scs.code g (s.standing g).band (s.standing g).relay minutes
  target := none
  route := []
  guard := s.params.guard
  carrier := 5
  hops := 0
  replyLen := none
  marginLen := none
  planned := s.params.guard + 5
  composedAt := composed
  plannedStart := start
  version := some (s.standing g).changeCount

/-- The delay field for an effective time, from the predicted end of the frame's last transmission in ms (R66): 0 with none
or one already reached, otherwise the tenths of a second that are left, rounded up, and at most 65535. -/
def DelayIs (te : Nat) (effective : Option Nat) (d : Nat) : Prop :=
  (effective = none → d = 0)
    ∧ ∀ e, effective = some e →
        (e * 1000 ≤ te → d = 0)
        ∧ (te < e * 1000 → (d = 65535 ∧ 65535 * 100 < e * 1000 - te)
            ∨ (d ≤ 65535 ∧ e * 1000 - te ≤ 100 * d ∧ 100 * d < e * 1000 - te + 100))

/-- A record with its phase progress on one phase replaced. -/
def withProgress (o : Order) (p : Phase) (pp : Progress) : Order := { o with progress := o.progress.set p pp }

/-- An order whose work on a phase is finished: a SERVING or PAUSED stage becomes DONE, and with every involved phase DONE a
RUNNING order is COMPLETE, or PARTIAL with a miss, from now on (R17, R113). -/
def finishedOn (o : Order) (p : Phase) (now : Nat) : Order :=
  let o1 := withProgress o p { o.progress.get p with stage := .done }
  if (o.progress.get p).stage = .serving ∨ (o.progress.get p).stage = .paused then
    if o.state = .running ∧ EachPhase fun q =>
        (o1.progress.get q).stage = .notInvolved ∨ (o1.progress.get q).stage = .done then
      { o1 with
        state := if o.misses = [] ∧ o.unlisted = 0 then .complete else .partly
        closing := none
        finishedAt := some now }
    else o1
  else o

/-- The notice of an order that has entered another state, which is then a final one (R18). -/
def endNotices (before after : Order) : List Notice :=
  if after.state = before.state then [] else [.orderEnd before.tag after.state]

/-- An order with one more miss: listed while the list holds fewer than 24, and otherwise counted (R5). -/
def missed (o : Order) (m : Miss) : Order :=
  if o.misses.length < 24 then { o with misses := o.misses ++ [m] } else { o with unlisted := o.unlisted + 1 }

/-- An order after the outcome of a visit at entry `i`: its tally, its miss if it is one, and the cursor moved on, where END
finishes the work on the phase (R106, R112). -/
def outcomeOf (s : State) (o : Order) (p : Phase) (i : Nat) (c : Cursor) (r : Result) : Order :=
  let o1 := withProgress o p { (o.progress.get p).tally r with cursor := c, attempts := 0 }
  let o2 :=
    match r with
    | .confirmed => o1
    | .miss reason => missed o1 ⟨i, ((s.house i).map (·.address)).getD 0, p, reason⟩
  if c = .atEnd then finishedOn o2 p s.now else o2

/-- An order after an attempt at entry `i` that determined an outcome, or none (R102 to R106). -/
def attempted (s : State) (o : Order) (p : Phase) (i : Nat) (c : Cursor) : Option Result → Order
  | none => withProgress o p { o.progress.get p with attempts := (o.progress.get p).attempts + 1 }
  | some r => outcomeOf s o p i c r

/-- The health of a miss count (R33). -/
def healthAt (n : Nat) : Health := if n ≤ 2 then .good else if n ≤ 7 then .weak else .silent

/-- A house that has sent an accepted reply, and one whose visit ended in silence (R34). -/
def heard (h : House) (margin : Nat) : House := { h with missCount := 0, health := .good, margin := some margin }
def unheard (h : House) : House :=
  { h with missCount := min (h.missCount + 1) 15, health := healthAt (min (h.missCount + 1) 15) }

/-- The state with one directory entry replaced. -/
def withHouse (s : State) (i : Nat) (h : House) : State :=
  { s with dir := { s.dir with houses := s.dir.houses.map fun e => if e.1 = i then (i, h) else e } }

/-- The HEALTH notice of an entry whose health level has changed (R35). -/
def healthNotices (i : Nat) (before after : House) : List Notice :=
  if after.health = before.health then [] else [.health i before.address after.health after.missCount]

/-- The cursor is at the first member at or beyond an index, or at END (R98). -/
def CursorFrom (s : State) (g : Fin 16) (p : Phase) (dirn : Direction) (i : Nat) : Cursor → Prop
  | .at j => MemberAt s g p j ∧ ¬Beyond dirn j i
      ∧ ∀ k, MemberAt s g p k → ¬Beyond dirn k i → k = j ∨ Beyond dirn j k
  | .atEnd => ∀ k, MemberAt s g p k → Beyond dirn k i

/-- How many members a group has on a phase (R29). -/
def membersOn (s : State) (g : Fin 16) (p : Phase) : Nat :=
  s.dir.houses.countP fun e => decide (e.2.phase = p) && e.2.groups.getLsbD g.val

/-- An order whose last repeat on a phase has been counted: with policy NONE its work there is finished, and with policy ALL
its sweep begins, at the cursor `c`, where END closes it at once; a STOPPED stage has no more to do (R97, R98). -/
def broadcastDone (s : State) (o : Order) (p : Phase) (g : Fin 16) (c : Cursor) : Order :=
  if (o.progress.get p).stage = .serving ∨ (o.progress.get p).stage = .paused then
    match o.policy with
    | .none => finishedOn o p s.now
    | .all =>
      let o1 := withProgress o p { o.progress.get p with expected := membersOn s g p, cursor := c, attempts := 0 }
      if c = .atEnd then finishedOn o1 p s.now else o1
  else o

/-- The state after a slot of an order has been accounted, with its line controller, the order's record and the notices. -/
def accounted (s : State) (p : Phase) (l : Line) (tag : Tag) (f : Order → Order) (notices : List Notice) : State :=
  State.postAll
    (withLine (withTable s (s.orm.table.map fun x => if x.tag = tag then slotCleared (f x) p s.now else x)) p l) notices

/-! ### Notions of the statements: the QUIET input -/

/-- QUIET aborts the slot of a line controller: the part's own carrier may be on (R81). -/
abbrev CutByQuiet (l : Line) : Prop := l.segment = .guard ∨ l.segment = .send

/-- A line controller that QUIET has reached (R81, R84). -/
def quietedLine (l : Line) : Line :=
  let l1 := { l with causes := { l.causes with quiet := true } }
  if CutByQuiet l then abortedLine l1 else l1

/-- An order's record once QUIET has aborted the slots in GUARD and SEND: on each phase whose aborted slot served it, slot
in flight is cleared, and its progress stands as before that slot (R16, R84). -/
def quietedOrder (s : State) (o : Order) : Order :=
  [Phase.a, .b, .c].foldl (fun o p =>
    if CutByQuiet (s.line p) ∧ (s.line p).slotOrder = some o.tag then slotAborted (s.line p) o p s.now else o) o

/-! ### Notions of the statements: selection -/

/-- An order is eligible on a phase (R26). -/
def EligibleOn (s : State) (p : Phase) (o : Order) : Prop :=
  (o.state = .waiting ∨ o.state = .running)
    ∧ ((o.progress.get p).stage = .queued ∨ (o.progress.get p).stage = .serving ∨ (o.progress.get p).stage = .paused)
    ∧ o.priority ≤ s.orm.floor ∧ ∀ e ∈ o.effective, e ≤ s.now + s.params.lead

/-- The sweep of an order is what its next step comes from, its cursor at an index (R94, R99). -/
def SweepsAt (o : Order) (pp : Progress) (g : Fin 16) (i : Nat) : Prop :=
  o.body.group = some g ∧ o.repeatCount ≤ pp.repeatsSent ∧ o.policy = .all ∧ pp.cursor = .at i

/-- What an order has to do next on a phase, from a phase progress and the directory (R94, R98, R99, R111). -/
def HasStep (s : State) (p : Phase) (o : Order) (pp : Progress) : NextStep → Prop
  | .slot (.repeatNo n) => o.body.group ≠ none ∧ pp.repeatsSent < o.repeatCount ∧ n = pp.repeatsSent + 1
  | .slot (.attempt i n) => ∃ g c, SweepsAt o pp g c
      ∧ ((MemberAt s g p c ∧ i = c ∧ n = pp.attempts + 1)
        ∨ (¬MemberAt s g p c ∧ CursorBeyond s g p o.direction c (.at i) ∧ n = 1))
  | .slot (.query i n) => o.body = .query i ∧ pp.cursor ≠ .atEnd ∧ (∃ h, s.house i = some h ∧ h.phase = p)
      ∧ n = pp.attempts + 1
  | .slot .refresh => False
  | .close => ∃ g c, SweepsAt o pp g c ∧ ¬MemberAt s g p c ∧ CursorBeyond s g p o.direction c .atEnd
  | .vacant => ∃ i, o.body = .query i ∧ pp.cursor ≠ .atEnd ∧ ∀ h, s.house i = some h → h.phase ≠ p

/-- Order `x` is chosen before order `y`: by priority, then by service of the phase, then by admission (R74). -/
def Before (p : Phase) (x y : Order) : Prop :=
  x.priority < y.priority
    ∨ (x.priority = y.priority
      ∧ ((x.progress.get p).stage = .serving
        ∨ ((y.progress.get p).stage ≠ .serving ∧ 1 ≤ (y.seq - x.seq).toNat ∧ (y.seq - x.seq).toNat ≤ 2147483647)))

/-- The head of a refresh queue is urgent (R124). -/
def UrgentHead (s : State) (e : QueueEntry) (rest : List QueueEntry) : Prop :=
  4 ≤ (e :: rest).length ∨ s.params.refreshPeriod / 2 ≤ s.now - e.queuedAt

/-- No cause blocks the line and no hold is pending (R73). -/
def OpenLine (l : Line) : Prop := l.causes = ⟨false, false, false, false⟩ ∧ l.holdPending = false

/-- What selection names, given which steps make which orders candidates and the refresh queue (R73): `named` says what
follows from a choice. -/
def SelectionNames (s : State) (p : Phase) (candidate : Order → NextStep → Prop) (queue : List QueueEntry)
    (named : Choice → Prop) : Prop :=
  (¬OpenLine (s.line p) → named .nothing)
    ∧ (OpenLine (s.line p) → (∀ o ∈ s.orm.table, ∀ st, ¬candidate o st) → queue = [] → named .nothing)
    ∧ (∀ e rest, OpenLine (s.line p) → queue = e :: rest →
        (UrgentHead s e rest ∨ ∀ o ∈ s.orm.table, ∀ st, ¬candidate o st) → named (.refresh e.group))
    ∧ ∀ o st, OpenLine (s.line p) → (∀ e rest, queue = e :: rest → ¬UrgentHead s e rest) → o ∈ s.orm.table →
        candidate o st → (∀ y ∈ s.orm.table, y.tag ≠ o.tag → ∀ st', candidate y st' → Before p o y) →
        named (.order o.tag st)

/-- The order as its selection for a step on a phase leaves it: SERVING there; its first selection there makes a WAITING
order RUNNING, sets a query's expected, and begins the sweep of an order of repeat count 0 (R14, R76, R98, R111). -/
def servedFor (s : State) (p : Phase) (next : NextStep) (o : Order) : Order :=
  let pp := o.progress.get p
  if pp.stage = .queued then
    let begun :=
      match o.body, next with
      | .query i, _ => { pp with expected := if (s.house i).map House.phase = some p then 1 else 0 }
      | .band g _, .slot (.attempt i _) | .relay g _ _, .slot (.attempt i _) =>
        if o.repeatCount = 0 then { pp with expected := membersOn s g p, cursor := .at i, attempts := 0 } else pp
      | .band g _, .close | .relay g _ _, .close =>
        if o.repeatCount = 0 then { pp with expected := membersOn s g p, cursor := .atEnd, attempts := 0 } else pp
      | _, _ => pp
    { withProgress o p { begun with stage := .serving } with state := if o.state = .waiting then .running else o.state }
  else withProgress o p { pp with stage := .serving }

/-- The order that had service of the phase is PAUSED when another takes it (R76). -/
def setAside (p : Phase) (o : Order) : Order :=
  if (o.progress.get p).stage = .serving then withProgress o p { o.progress.get p with stage := .paused } else o

/-- The records after an order has been named on a phase. -/
def serviceTable (s : State) (p : Phase) (tag : Tag) (next : NextStep) : List Order :=
  s.orm.table.map fun x => if x.tag = tag then servedFor s p next x else setAside p x

/-- An order whose named step needed no slot: it has taken service, a query's target is VACANT, and the cursor is at END
(R74, R99, R112). -/
def settledOrder (s : State) (p : Phase) (next : NextStep) (o : Order) : Order :=
  let o1 := servedFor s p next o
  match o.body with
  | .query i => outcomeOf s o1 p i .atEnd (.miss .vacant)
  | _ => finishedOn (withProgress o1 p { o1.progress.get p with cursor := .atEnd, attempts := 0 }) p s.now

/-- The state after a step that needs no slot has been settled. -/
def settledState (s : State) (p : Phase) (o : Order) (next : NextStep) : State :=
  State.postAll
    (withTable s (s.orm.table.map fun x => if x.tag = o.tag then settledOrder s p next x else setAside p x))
    (endNotices (servedFor s p next o) (settledOrder s p next o))

/-- What selection names at a gap or an idle crossing, and the state it is named in: a step that needs no slot is settled,
and selection is taken again among what remains (R73, R74); followed for `n` settlings. -/
def Names : Nat → Phase → State → State → Choice → Prop
  | 0, _, _, _, _ => True
  | n + 1, p, s, t, c =>
    SelectionNames s p (fun o st => EligibleOn s p o ∧ HasStep s p o (o.progress.get p) st) (s.queue p) fun named =>
      match named with
      | .nothing => t = s ∧ c = .nothing
      | .refresh g => t = s ∧ c = .refresh g
      | .order tag (.slot step) => t = s ∧ c = .order tag (.slot step)
      | .order tag next => ∀ o ∈ s.orm.table, o.tag = tag → Names n p (settledState s p o next) t c

/-! ### Notions of the statements: frames and slots -/

/-- The delay field of an order's frame whose last outbound transmission ends `span` half-cycles from now: 0 once the clock
has reached E, and otherwise as R66 computes it (R67). -/
def OrderDelay (s : State) (o : Order) (period span d : Nat) : Prop :=
  (o.reached = true → d = 0)
    ∧ (o.reached = false → DelayIs (s.now * 1000 + s.mtb.clock.subcount + span * period / 1000) o.effective d)

/-- A frame of an order, composed at one crossing for a start at another (Table 3-4, R54). -/
def frameOf (s : State) (work : Work) (step : Step) (content : Content) (target : Option Nat) (route : List Nat)
    (carrier : Nat) (reply : Option Nat) (composed start : Hc) : Frame where
  work := work
  step := step
  content := content
  target := target
  route := route
  guard := s.params.guard
  carrier := carrier
  hops := route.length
  replyLen := reply
  marginLen := reply.map fun _ => s.params.margin
  planned :=
    match reply with
    | none => s.params.guard + carrier
    | some rr => s.params.guard + s.params.margin + 1 + carrier + rr + route.length * (carrier + rr + 2)
  composedAt := composed
  plannedStart := start
  version := none

/-- The frame of an order's step, composed on a phase for a start `k` half-cycles ahead (Table 3-1, R95, R101, R111). -/
def IsOrderFrame (s : State) (p : Phase) (k : Nat) (o : Order) (step : Step) (f : Frame) : Prop :=
  let hc := (s.mains p).hc
  let start := hc + BitVec.ofNat 32 k
  let address := fun i => ((s.house i).map (·.address)).getD 0
  let route := fun i => ((s.house i).map (·.route)).getD []
  match o.body, step with
  | .band g b, .repeatNo _ => ∃ d, OrderDelay s o (s.mains p).period (k + s.params.guard + 4) d
      ∧ f = frameOf s (.order o.tag) step (.groupBand s.scs.code g o.tag b d) none [] 4 none hc start
  | .relay g v restore, .repeatNo _ => ∃ d, OrderDelay s o (s.mains p).period (k + s.params.guard + 5) d
      ∧ f = frameOf s (.order o.tag) step (.groupRelay s.scs.code g o.tag v (restore.getD 0) d) none [] 5 none hc start
  | .band _ b, .attempt i n => ∃ d h, h = (route i).length
      ∧ OrderDelay s o (s.mains p).period (k + s.params.guard + (6 + h) + h * (6 + h + 1)) d
      ∧ f = frameOf s (.order o.tag) step
          (.directBand s.scs.code (address i) ((route i).map address) o.tag b d n o.retryLimit)
          (some i) (route i) (6 + h) (some 5) hc start
  | .relay _ v restore, .attempt i n => ∃ d h, h = (route i).length
      ∧ OrderDelay s o (s.mains p).period (k + s.params.guard + (6 + h) + h * (6 + h + 1)) d
      ∧ f = frameOf s (.order o.tag) step
          (.directRelay s.scs.code (address i) ((route i).map address) o.tag v (restore.getD 0) d n o.retryLimit)
          (some i) (route i) (6 + h) (some 5) hc start
  | .query _, .query i _ =>
      f = frameOf s (.order o.tag) step (.query s.scs.code (address i) ((route i).map address) (o.tag.setWidth 8))
          (some i) (route i) (4 + (route i).length) (some 7) hc start
  | _, _ => False

/-- The frame of a choice is composed for a start `k` half-cycles ahead and staged; an order takes service as it is composed
(R57, R61, R76). -/
def StagedBy (p : Phase) (k : Nat) (s : State) (c : Choice) (t : State) : Prop :=
  match c with
  | .nothing => t = s
  | .refresh g => ∃ minutes, MinutesLeft (s.standing g).restoreUntil s.now minutes
      ∧ t = withLine s p { s.line p with
          staged := some (refreshFrameOf s g minutes (s.mains p).hc ((s.mains p).hc + BitVec.ofNat 32 k)) }
  | .order tag (.slot step) => ∃ o ∈ s.orm.table, o.tag = tag ∧ ∃ f, IsOrderFrame s p k o step f
      ∧ t = withLine (withTable s (serviceTable s p tag (.slot step))) p { s.line p with staged := some f }
  | .order _ _ => False

/-- The allowance of a visit, fixed at the start of its first counted attempt: 1 for a SILENT house, and otherwise the
order's retry limit (R102). -/
def visitAllowance (s : State) (o : Order) (i n : Nat) : Nat :=
  if n ≤ 1 ∧ (s.house i).map (·.health) = some .silent then 1 else o.retryLimit

/-- The allowance a slot's start fixes: none for a broadcast (R102). -/
def startedAllowance (s : State) (o : Order) : Step → Option Nat
  | .attempt i n | .query i n => some (visitAllowance s o i n)
  | _ => none

/-- An order whose slot begins on a phase: slot in flight, and the cursor moved to the member an attempt is for (R3, R100).
-/
def flown (p : Phase) (step : Step) (o : Order) : Order :=
  match step with
  | .attempt i _ => withProgress o p { o.progress.get p with
      inFlight := true
      cursor := .at i
      attempts := if (o.progress.get p).cursor = .at i then (o.progress.get p).attempts else 0 }
  | _ => withProgress o p { o.progress.get p with inFlight := true }

/-- A slot begins at this crossing with a frame: GUARD, the frame on line, nothing staged (R49, R56, R59). `before` is the
place at which it finds its order on the phase (R84). -/
def begunWith (s : State) (p : Phase) (f : Frame) (allowance : Option Nat) (before : Option Place) : State :=
  withLine s p { s.line p with
    segment := .guard, onLine := some ⟨f, (s.mains p).hc, allowance, before⟩, staged := none }

/-- A gap's judgement of the staged frame, and the slot that begins there (R59, R75, R109). `answered` is the work of the
slot that has ended on an accepted reply. -/
def GapGives (p : Phase) (answered : Option Work) (s : State) (c : Choice) (t : State) : Prop :=
  match c with
  | .nothing => t = withLine s p { s.line p with staged := none }
  | .refresh g =>
    (∀ f, (s.line p).staged = some f → f.plannedStart = (s.mains p).hc → answered ≠ some f.work → f.work = .refresh g →
        f.version = some (s.standing g).changeCount → t = begunWith s p f none none)
    ∧ ((∀ f, (s.line p).staged = some f → f.plannedStart ≠ (s.mains p).hc ∨ answered = some f.work ∨ f.work ≠ .refresh g
          ∨ f.version ≠ some (s.standing g).changeCount) →
        ∃ minutes, MinutesLeft (s.standing g).restoreUntil s.now minutes
          ∧ t = begunWith s p (refreshFrameOf s g minutes (s.mains p).hc (s.mains p).hc) none none)
  | .order tag (.slot step) => ∃ o ∈ s.orm.table, o.tag = tag
    ∧ (∀ f, (s.line p).staged = some f → f.plannedStart = (s.mains p).hc → answered ≠ some f.work → f.work = .order tag →
        f.step = step →
        t = begunWith (withTable s (s.orm.table.map fun x => if x.tag = tag then flown p step x else x)) p f
          (startedAllowance s o step) (some (placeOn o p)))
    ∧ ((∀ f, (s.line p).staged = some f → f.plannedStart ≠ (s.mains p).hc ∨ answered = some f.work
          ∨ f.work ≠ .order tag ∨ f.step ≠ step) →
        ∃ f, IsOrderFrame s p 0 o step f
          ∧ t = begunWith (withTable s ((serviceTable s p tag (.slot step)).map fun x =>
              if x.tag = tag then flown p step x else x)) p f (startedAllowance s o step)
            (some (placeOn (servedFor s p (.slot step) o) p)))
  | .order _ _ => False

/-- From the state in which a gap's slot, if any, has been accounted: what selection names, with the settlings on the way,
and what begins there. -/
def GapFrom (s : State) (p : Phase) (answered : Option Work) (t : State) : Prop :=
  ∃ u c, (∀ n, Names n p s u c) ∧ GapGives p answered u c t

/-- The tallies of an order on a phase, and its repeats sent there. -/
def talliesOn (o : Order) (p : Phase) : List Nat :=
  let pp := o.progress.get p
  [pp.repeatsSent, pp.confirmed, pp.override, pp.notMember, pp.noReply, pp.rejected, pp.vacant]

/-- From an idle crossing with nothing staged: what selection names, with the settlings on the way, and what is staged for
the next crossing. -/
def IdleFrom (s : State) (p : Phase) (t : State) : Prop :=
  ∃ u c, (∀ n, Names n p s u c) ∧ StagedBy p 1 u c t

/-- What a gap adds to an accounted slot leaves the counts of its order, the directory and the statistics as accounted. -/
def CountsStand (s t : State) (p : Phase) (tag : Tag) : Prop :=
  t.dir = s.dir ∧ (t.line p).stats = (s.line p).stats
    ∧ t.orm.table.map (fun o => if o.tag = tag then some (o.misses, o.unlisted, talliesOn o p) else none)
      = s.orm.table.map fun o => if o.tag = tag then some (o.misses, o.unlisted, talliesOn o p) else none

/-- The progress a staging point takes for an order: for the order of the slot in progress, what the slot's planned end
without an accepted reply would leave; for any other order, its progress as it stands (R58, R108). -/
def Predicted (s : State) (p : Phase) (f : Frame) (o : Order) (pp : Progress) : Prop :=
  if f.work = .order o.tag then
    match f.step, o.body.group with
    | .repeatNo n, _ => pp = { o.progress.get p with repeatsSent := n }
    | .attempt i n, some g =>
      (n < visitAllowance s o i n → pp = { o.progress.get p with cursor := .at i, attempts := n })
        ∧ (visitAllowance s o i n ≤ n →
          ∃ c, CursorBeyond s g p o.direction i c ∧ pp = { o.progress.get p with cursor := c, attempts := 0 })
    | .attempt i n, none =>
      pp = if n < visitAllowance s o i n then { o.progress.get p with cursor := .at i, attempts := n } else o.progress.get p
    | .query i n, _ =>
      pp = if n < visitAllowance s o i n then { o.progress.get p with attempts := n }
        else { o.progress.get p with cursor := .atEnd, attempts := 0 }
    | _, _ => pp = o.progress.get p
  else pp = o.progress.get p

/-- What selection names at the staging point of a slot in progress: a step that needs no slot gives no candidacy, and a
refresh in progress is taken to have left its queue (R58, R73, R74). -/
def NamesAhead (p : Phase) (f : Frame) (s : State) (c : Choice) : Prop :=
  SelectionNames s p
    (fun o st => EligibleOn s p o ∧ (∃ step, st = .slot step) ∧ ∃ pp, Predicted s p f o pp ∧ HasStep s p o pp st)
    (match f.work with
      | .refresh g => (s.queue p).filter fun e => decide (e.group ≠ g)
      | .order _ => s.queue p)
    fun named => c = named

/-- The staging point of a slot: what selection names on the predicted progress is composed and staged for the planned end,
`k` half-cycles ahead (R57, R58). -/
def StagingFrom (s : State) (p : Phase) (f : Frame) (k : Nat) (t : State) : Prop :=
  ∃ c, NamesAhead p f s c ∧ StagedBy p k s c t

/-- A frame is a reply that the slot in progress on a phase waits for at this crossing (R53, R89). -/
def Awaited (s : State) (p : Phase) (ol : OnLine) (f : RxFrame) : Prop :=
  (s.mains p).presence = .present ∧ f.cuts = (s.line p).cuts ∧ f.crcGood = true ∧ s.scs.state = .written
    ∧ word24 f.bytes 1 = s.scs.code ∧ (s.line p).onLine = some ol ∧ (s.line p).segment = .listen ∧ ol.frame.replyLen ≠ none
    ∧ ((byteAt f.bytes 0).toNat / 16 = 9 ∨ (byteAt f.bytes 0).toNat / 16 = 10)
    ∧ ol.frame.content.replyKind = some ((byteAt f.bytes 0).toNat / 16)
    ∧ ol.frame.content.address = some (word24 f.bytes 4)
    ∧ ol.frame.guard + ol.frame.carrier + ol.frame.hops * (ol.frame.carrier + 1) < ((s.mains p).hc - ol.start).toNat
    ∧ ((s.mains p).hc - ol.start).toNat ≤ ol.frame.planned

/-- A group whose next refresh stands at `due` fires (R122): it joins the queue of each phase with a member on which it does
not stand, REFRESH_LATE is posted, in an order that is left open, for each such phase on which it does, and next refresh
moves on. -/
def Fires (s : State) (g : Fin 16) (due : Nat) (t : State) : Prop :=
  ∃ (new : Nat) (late : List Phase),
    new = (if due + s.params.refreshPeriod ≤ s.now then s.now + s.params.refreshPeriod else due + s.params.refreshPeriod)
    ∧ (∀ p, (∀ i, ¬MemberAt s g p i) → t.queue p = s.queue p)
    ∧ (∀ p, (∃ e ∈ s.queue p, e.group = g) → t.queue p = s.queue p)
    ∧ (∀ p, (∃ i, MemberAt s g p i) → (∀ e ∈ s.queue p, e.group ≠ g) → t.queue p = s.queue p ++ [⟨g, s.now⟩])
    ∧ t.rfs.standing = s.rfs.standing.set g { s.standing g with nextRefresh := some (min new 4294967295) }
    ∧ late.Nodup ∧ (∀ p, p ∈ late ↔ (∃ i, MemberAt s g p i) ∧ ∃ e ∈ s.queue p, e.group = g)
    ∧ t.rlc = (s.postAll (late.map fun p => .refreshLate g p)).rlc
    ∧ t.orm = s.orm ∧ t.dir = s.dir ∧ t.lines = s.lines ∧ t.mtb = s.mtb ∧ t.scs = s.scs ∧ t.params = s.params
    ∧ t.pending = s.pending

/-- The state after one live order has ended EXPIRED: the frame staged for it is discarded, and ORDER_END is posted unless
it is CLOSING (R15, R19). -/
def expiredOne (s : State) (o : Order) : State :=
  State.postAll
    { s with
      orm := { s.orm with table := s.orm.table.map fun x => if x.tag = o.tag then endedOrder x .expired s.now else x }
      lines := s.lines.map fun l => withoutStaged l o.tag }
    (if (endedOrder o .expired s.now).state = .expired then [.orderEnd o.tag .expired] else [])

/-- One check against the clock's reading, of one order or one group. An adoption and a restore do what their rows do; a
timer that is not reached changes nothing. -/
def CheckDone (s : State) (c : Check) (t : State) : Prop :=
  match c with
  | .expire tag => ∃ o ∈ s.orm.table, o.tag = tag
      ∧ t = if (o.state = .waiting ∨ o.state = .running) ∧ o.expiry ≤ s.now then expiredOne s o else s
  | .adopt tag => RowLeaves (exec (.adoption tag) (whileSending s)) s t
  | .restore g => RowLeaves (exec (.selfRestore g) (whileSending s)) s t
  | .fire g => (∀ due, (s.standing g).nextRefresh = some due → due ≤ s.now → Fires s g due t)
      ∧ ((∀ due ∈ (s.standing g).nextRefresh, s.now < due) → t = s)

/-- Checks made one after another; the count of free picks is the model's own. -/
def ChecksDone : List Check → State → State → Prop
  | [], s, t => t = { s with picks := t.picks }
  | c :: l, s, t => ∃ u, CheckDone s c u ∧ ChecksDone l u t

/-- Whose list a check is in: ORM's, that of the restores, or that of the timers. -/
def checkKind : Check → Nat
  | .expire _ | .adopt _ => 0
  | .restore _ => 1
  | .fire _ => 2

/-- The checks of a new clock reading, from the state at that reading (R137, R138). The orders note it. Then ORM checks
every order's expiry and after them every adoption, each in admission order, and RFS every restore and every timer, each in
ascending group number; how these lists fall between one another is left open (R119, R120). -/
def ChecksMade (s t : State) : Prop :=
  ∃ checks : List Check, ChecksDone checks (withTable s (s.orm.table.map fun o => noted o s.now)) t
    ∧ checks.filter (fun c => checkKind c = 0)
        = (s.orm.table.map fun o => Check.expire o.tag) ++ (s.orm.table.map fun o => Check.adopt o.tag)
    ∧ checks.filter (fun c => checkKind c = 1) = (List.finRange 16).map Check.restore
    ∧ checks.filter (fun c => checkKind c = 2) = (List.finRange 16).map Check.fire

/-- Two orders are of one kind and group. -/
abbrev Alike (x y : Order) : Prop := x.body.group = y.body.group ∧ x.body.kindCode = y.body.kindCode

/-- What the adoption of an order leaves standing of its kind, where no newer part stands: its value and tag, or ON with its
tag where its restore-until is reached at once (R119, R120). -/
def AdoptedPart (o : Order) (before after : Standing) (now : Nat) : Prop :=
  match o.body with
  | .band _ b => (∀ y ∈ before.band, ¬Newer y.2 o.tag) → after.band = some (b, o.tag)
  | .relay _ v restore => (∀ y ∈ before.relay, ¬Newer y.2 o.tag) →
      ((v = .on ∨ ∀ m ∈ restore, now < min (o.effective.getD now + m * 60) 4294967295) → after.relay = some (v, o.tag))
      ∧ ∀ m ∈ restore, min (o.effective.getD now + m * 60) 4294967295 ≤ now → after.relay = some (.on, o.tag)
  | .query _ => True

/-- A newer part of the order's kind stands in its group's record. -/
def NewerStands (o : Order) (x : Standing) : Prop :=
  match o.body with
  | .band _ _ => ∃ y ∈ x.band, Newer y.2 o.tag
  | .relay _ _ _ => ∃ y ∈ x.relay, Newer y.2 o.tag
  | .query _ => False

/-- What these checks leave, whatever falls first. Every live order whose expiry is reached has ended EXPIRED; no candidate
is due for adoption, no restore is due, no timer stands reached short of the clock's end. A candidate that was due, alone of
its kind and group, stands adopted with its value and tag, or is PASSED under a newer part. Where no adoption came between,
every restore that was due is made, and every group whose timer was reached stands in the queue of each phase with a member.
A group with nothing due keeps its standing record and its places in the queues. -/
def ChecksLeave (s t : State) : Prop :=
  t.orm.table.map unmarked = (s.orm.table.map fun o => unmarked
      (if (o.state = .waiting ∨ o.state = .running) ∧ o.expiry ≤ s.now then endedOrder (noted o s.now) .expired s.now
        else noted o s.now))
    ∧ (∀ o ∈ t.orm.table, ¬DueForAdoption o s.now)
    ∧ (∀ g, ∀ r ∈ (t.standing g).restoreUntil, (t.standing g).relay ≠ none → s.now < r)
    ∧ (∀ g, ∀ x ∈ (t.standing g).nextRefresh, s.now < x ∨ x = 4294967295)
    ∧ (∀ o ∈ s.orm.table, ∀ g, DueForAdoption o s.now → o.body.group = some g →
        (∀ x ∈ s.orm.table, x.tag ≠ o.tag → Alike x o → ¬DueForAdoption x s.now) →
        AdoptedPart o (s.standing g) (t.standing g) s.now
        ∧ ∀ o' ∈ t.orm.table, o'.tag = o.tag →
            (¬NewerStands o (s.standing g) → o'.mark = some .adopted)
            ∧ (NewerStands o (s.standing g) → o'.mark = some .passed))
    ∧ ((∀ o ∈ s.orm.table, ¬DueForAdoption o s.now) →
        (∀ g v tag r, (s.standing g).relay = some (v, tag) → (s.standing g).restoreUntil = some r → r ≤ s.now →
          (t.standing g).relay = some (.on, tag) ∧ (t.standing g).restoreUntil = none)
        ∧ ∀ g x p, (s.standing g).nextRefresh = some x → x ≤ s.now → (∃ i, MemberAt s g p i) →
          ∃ e ∈ t.queue p, e.group = g)
    ∧ ∀ g, (∀ o ∈ s.orm.table, o.body.group = some g → ¬DueForAdoption o s.now) →
        ((s.standing g).relay = none ∨ ∀ r ∈ (s.standing g).restoreUntil, s.now < r) →
        (∀ x ∈ (s.standing g).nextRefresh, s.now < x) →
        t.standing g = s.standing g
        ∧ ∀ p, (t.queue p).filter (fun e => e.group = g) = (s.queue p).filter fun e => e.group = g

/-- The command is an event of one phase. -/
def EventOn (c : Instr) (p : Phase) : Prop :=
  c = .holdTakesEffect p ∨ (∃ t, c = .zeroCrossing p t) ∨ c = .phaseReturn p ∨ c = .phaseLost p ∨ c = .guardEnd p
    ∨ c = .sendComplete p ∨ c = .relayEnd p ∨ c = .slotPlannedEnd p ∨ (∃ f, c = .lineFrameTaken p f)
    ∨ ∃ f, c = .frontEndFrameComplete p f

end Sys2Proof.Machine

open Sys2Proof Sys2Proof.Machine

/-! ### The queue of commands and the link -/

/-- A step runs the command at the front of the queue with the queue's rest. -/
def Obligations.StepRunsFrontCommand : Prop :=
  ∀ (c : Instr) (rest : List Instr) (s : State),
    s.pending = c :: rest → step s = exec c { s with pending := rest }

/-- A request or a record that completes while another is in processing enters an empty holding place; with the place full
it is discarded, and the link-overrun flag is set (R145). Nothing else changes but that a FREE transmitter begins a record.
That it begins one within the same command is the model's reading (notes/assumptions/6.md). -/
def Obligations.RequestWaitsOrIsDiscarded : Prop :=
  ∀ (r : Request) (s : State), s.rlc.processing ≠ none →
    (s.rlc.holding = none →
      exec (requestCommand r) s = .next { s with rlc := { s.rlc with holding := some (requestRecord r) } }.pump)
    ∧ (s.rlc.holding ≠ none →
      exec (requestCommand r) s = .next { s with rlc := { s.rlc with overrun := true } }.pump)
    ∧ ∀ rec : Record,
      (s.rlc.holding = none →
        exec (.recordComplete rec) s
          = .next { s with rlc := { s.rlc with receiver := .hunt, holding := some rec } }.pump)
      ∧ (s.rlc.holding ≠ none →
        exec (.recordComplete rec) s
          = .next { s with rlc := { s.rlc with receiver := .hunt, overrun := true } }.pump)

/-- The record of a request passes the envelope checks and spells that request, whatever its fields hold. -/
def Obligations.RequestRoundTrip : Prop :=
  ∀ r : Request, checkEnvelope (requestRecord r) = .request r

/-- From HUNT, the bytes of a request's record received one after another do what the request's command does; the bytes
before the last change nothing but the receiver. The request commands are the model's reading of the rows
(notes/assumptions/5.md). -/
def Obligations.ReceivedBytesMakeTheRequest : Prop :=
  ∀ (r : Request) (s : State), s.rlc.receiver = .hunt → s.pump = s →
    receiveAll
      (0xC3 :: covered (requestType r) (requestBody r)
        ++ bytes16 (crc16 (covered (requestType r) (requestBody r)))) s
      = exec (requestCommand r) s

/-- A record that completes with no request in processing draws the ERROR reply of the first check it fails (R146), and
changes no state outside the link controller; one that passes does what its request's command does, with the receiver in
HUNT. -/
def Obligations.EnvelopeErrors : Prop :=
  ∀ s : State, s.rlc.processing = none →
    (∀ len : Byte, exec (.recordComplete (.badLength len)) s
      = .next ({ s with rlc := { s.rlc with receiver := .hunt } }.owing (.badLength len) ⟨0xFF, .badLength, [0]⟩))
    ∧ (∀ r : Request, exec (.recordComplete (requestRecord r)) s
      = exec (requestCommand r) { s with rlc := { s.rlc with receiver := .hunt } })
    ∧ ∀ (type : Byte) (body : List Byte) (crc : BitVec 16),
      (crc ≠ crc16 (covered type body) →
        exec (.recordComplete (.whole type body crc)) s
          = .next ({ s with rlc := { s.rlc with receiver := .hunt } }.owing (.whole type body crc) ⟨0xFF, .badCrc, [type]⟩))
      ∧ (crc = crc16 (covered type body) → (∀ n, (type, n) ∉ catalogue) →
        exec (.recordComplete (.whole type body crc)) s
          = .next ({ s with rlc := { s.rlc with receiver := .hunt } }.owing (.whole type body crc) ⟨0xFF, .badType, [type]⟩))
      ∧ (∀ n, crc = crc16 (covered type body) → (type, n) ∈ catalogue → body.length ≠ n →
        exec (.recordComplete (.whole type body crc)) s
          = .next ({ s with rlc := { s.rlc with receiver := .hunt } }.owing (.whole type body crc)
              ⟨0xFF, .badLength, [type]⟩))

/-- In HUNT a byte of C3h opens a record and any other byte changes nothing; in RECORD a byte that does not complete the
record joins it, C3h like any other; a length byte of 0 or 251 to 255 completes the record at once, and the last CRC byte
completes it whatever its envelope; a gap and a byte without its stop bit discard what was assembled (R143). -/
def Obligations.ReceiverEvents : Prop :=
  ∀ s : State,
    (s.rlc.receiver = .hunt →
      exec (.linkByteReceived 0xC3) s = .next { s with rlc := { s.rlc with receiver := .record [] } }.pump)
    ∧ (∀ b : Byte, s.rlc.receiver = .hunt → b ≠ 0xC3 → exec (.linkByteReceived b) s = .next s.pump)
    ∧ (∀ b : Byte, s.rlc.receiver = .record [] → 1 ≤ b.toNat → b.toNat ≤ 250 →
        exec (.linkByteReceived b) s = .next { s with rlc := { s.rlc with receiver := .record [b] } }.pump)
    ∧ (∀ (len : Byte) (l : List Byte) (b : Byte), s.rlc.receiver = .record (len :: l) → l.length + 2 < len.toNat + 3 →
        exec (.linkByteReceived b) s = .next { s with rlc := { s.rlc with receiver := .record (len :: l ++ [b]) } }.pump)
    ∧ (∀ b : Byte, s.rlc.receiver = .record [] → (b.toNat = 0 ∨ 251 ≤ b.toNat) →
        exec (.linkByteReceived b) s = exec (.recordComplete (.badLength b)) s)
    ∧ (∀ (len type : Byte) (body : List Byte) (hi lo : Byte), s.rlc.receiver = .record (len :: type :: body ++ [hi]) →
        body.length + 1 = len.toNat →
        exec (.linkByteReceived lo) s = exec (.recordComplete (.whole type body (hi ++ lo))) s)
    ∧ exec .linkGapTimeout s = .next { s with rlc := { s.rlc with receiver := .hunt } }.pump
    ∧ exec .byteWithoutStopBit s = .next { s with rlc := { s.rlc with receiver := .hunt } }.pump

/-- A FREE transmitter begins the owed reply ahead of every notice; with no reply owed it begins the oldest notice, which
leaves the queue. A record in sending is not broken into, and a notice does not go before an owed reply (R149). -/
def Obligations.TransmitterBegins : Prop :=
  ∀ s : State,
    (∀ rec reply, s.rlc.transmitter = .free → s.rlc.processing = some ⟨rec, .owed reply⟩ →
      exec .sendReply s = .next { s with rlc := { s.rlc with transmitter := .sending (.reply reply) } }
      ∧ exec .sendNotice s = .next s)
    ∧ (∀ n rest, s.rlc.transmitter = .free → (∀ rec reply, s.rlc.processing ≠ some ⟨rec, .owed reply⟩) →
        s.rlc.notices = n :: rest →
      exec .sendNotice s
        = .next { s with rlc := { s.rlc with transmitter := .sending (.notice n), notices := rest } }
      ∧ exec .sendReply s = .next s)
    ∧ (∀ x, s.rlc.transmitter = .sending x → exec .sendReply s = .next s ∧ exec .sendNotice s = .next s)
    ∧ ((∀ rec reply, s.rlc.processing ≠ some ⟨rec, .owed reply⟩) →
      exec .sendReply s = .next s ∧ (s.rlc.notices = [] → exec .sendNotice s = .next s))

/-- At a record's last byte the transmitter is FREE and chooses again; at a reply's last byte its request is complete, and a
held record, good or not, is taken into processing with the holding place empty, and does what it does when it completes
with nothing in processing, but that the receiver goes on with what it is assembling (R144, R145, R149). With a FREE
transmitter no last byte leaves, and with a request in processing, or nothing held, no record is taken. That the next record
is taken and begun within the same command, and what the rows do with nothing to act on, are the model's choice
(notes/assumptions/4.md and 6.md). -/
def Obligations.TransmissionEnds : Prop :=
  ∀ s : State,
    (∀ n, s.rlc.transmitter = .sending (.notice n) →
      exec .transmitEnd s = .next { s with rlc := { s.rlc with transmitter := .free } }.pump)
    ∧ (∀ x, s.rlc.transmitter = .sending (.reply x) → s.rlc.holding = none →
      exec .transmitEnd s = .next { s with rlc := { s.rlc with transmitter := .free, processing := none } }.pump)
    ∧ (∀ x r, s.rlc.transmitter = .sending (.reply x) → s.rlc.holding = some (requestRecord r) →
      exec .transmitEnd s
        = exec (requestCommand r)
            { s with rlc := { s.rlc with transmitter := .free, processing := none, holding := none } })
    ∧ (∀ x rec t, s.rlc.transmitter = .sending (.reply x) → s.rlc.holding = some rec →
      exec (.recordComplete rec)
        { s with rlc := { s.rlc with transmitter := .free, processing := none, holding := none } } = .next t →
      exec .transmitEnd s = .next { t with rlc := { t.rlc with receiver := s.rlc.receiver } })
    ∧ (s.rlc.transmitter = .free → exec .transmitEnd s = .next s.pump)
    ∧ (∀ r, s.rlc.processing = none → s.rlc.holding = some (requestRecord r) →
      exec .holdingPlaceTaken s = exec (requestCommand r) { s with rlc := { s.rlc with holding := none } })
    ∧ (∀ rec t, s.rlc.processing = none → s.rlc.holding = some rec →
      exec (.recordComplete rec) { s with rlc := { s.rlc with holding := none } } = .next t →
      exec .holdingPlaceTaken s = .next { t with rlc := { t.rlc with receiver := s.rlc.receiver } })
    ∧ (s.rlc.processing ≠ none ∨ s.rlc.holding = none → exec .holdingPlaceTaken s = .next s.pump)
    ∧ (∀ rec, s.rlc.processing = none → s.rlc.holding = some rec →
      ∃ t, exec .holdingPlaceTaken s = .next t ∧ t.rlc.holding = none ∧ ∃ stage, t.rlc.processing = some ⟨rec, stage⟩)
    ∧ (∀ n rest, s.rlc.processing = none → s.rlc.holding = none → s.rlc.transmitter = .free →
        s.rlc.notices = n :: rest →
      exec .holdingPlaceTaken s
        = .next { s with rlc := { s.rlc with transmitter := .sending (.notice n), notices := rest } })

/-- A record that has begun is sent to its last byte: no command but its end and a power-up takes it off the transmitter. -/
def Obligations.SendingIsNotInterrupted : Prop :=
  ∀ (c : Instr) (s t : State) (x : Outgoing),
    s.rlc.transmitter = .sending x → c ≠ .transmitEnd → (∀ quiet touched, c ≠ .powerUp quiet touched) →
    exec c s = .next t → t.rlc.transmitter = .sending x

/-! ### Reset and power-up -/

/-- The machine right after reset holds what Table 9-3 lists, for a part whose store is BLANK and with QUIET_IN released;
those two are the model's choice (notes/assumptions/1.md). -/
def Obligations.ResetState : Prop :=
  State.reset.orm = ⟨[], 1, 0, 7⟩ ∧ State.reset.dir = ⟨[], []⟩
    ∧ (EachPhase fun p => State.reset.line p
        = ⟨⟨true, true, false, false⟩, false, .none, false, none, none, ⟨0, 0, 0, 0, 0, 0, none⟩, [], 0⟩)
    ∧ (EachPhase fun p => State.reset.mains p = ⟨.lost, none, 0, [], 10000, 0⟩ ∧ State.reset.queue p = [])
    ∧ (∀ g, State.reset.standing g = ⟨none, none, none, none, 0⟩)
    ∧ State.reset.mtb.clock.isSet = false ∧ State.reset.mtb.clock.seconds = 0 ∧ State.reset.mtb.clock.subcount = 0
    ∧ State.reset.mtb.quiet = false ∧ State.reset.mtb.releaseEnd = none
    ∧ State.reset.rlc = ⟨.hunt, none, none, .free, [.started .power], false, false, .power⟩
    ∧ State.reset.scs.state = .blank ∧ State.reset.params = ⟨2, 1, 900, 600, 1⟩ ∧ State.reset.pending = []

/-- POWER_UP gives every block its power-up state, whatever stood before; of the store only its cells, and what an
interrupted programming left in them, decide its state: BLANK where mark and code cells are unprogrammed, WRITTEN where the
mark is WRITTEN over a code in range, and FAULT for any other content. The operands, the waiting commands, the FREE
transmitter, the timebase's first reading and the count of discarded receptions are the model's choice
(notes/assumptions/1.md, 6.md, 8.md and 9.md). -/
def Obligations.PowerUpState : Prop :=
  ∀ (s : State) (quiet touched : Bool), ∃ t,
    exec (.powerUp quiet touched) s = .next t
    ∧ t.pending = s.pending ∧ t.orm = ⟨[], 1, 0, 7⟩ ∧ t.dir = ⟨[], []⟩ ∧ t.params = ⟨2, 1, 900, 600, 1⟩
    ∧ (∀ p, t.line p = ⟨⟨decide (t.scs.state ≠ .written), true, quiet, false⟩, false, .none, false, none, none,
        ⟨0, 0, 0, 0, 0, 0, none⟩, [], 0⟩)
    ∧ (∀ p, t.mains p = ⟨.lost, none, 0, [], 10000, 0⟩) ∧ (∀ p, t.queue p = [])
    ∧ (∀ g, t.standing g = ⟨none, none, none, none, 0⟩)
    ∧ t.mtb.timebase = 0 ∧ t.mtb.clock = ⟨false, 0, 0, 0⟩ ∧ t.mtb.quietIn = quiet ∧ t.mtb.quiet = quiet
    ∧ t.mtb.releaseEnd = none
    ∧ t.rlc = ⟨.hunt, none, none, .free, [.started .power], false, false, .power⟩
    ∧ t.scs.programming = none ∧ t.scs.markCells = s.scs.markCells
    ∧ (s.scs.markCells = .unprogrammed → s.scs.codeCells = .unprogrammed →
        t.scs.state = (if s.scs.programming ≠ none ∧ touched = true then .fault else .blank))
    ∧ t.scs.codeCells = (if s.scs.programming ≠ none ∧ touched = true then .partly else s.scs.codeCells)
    ∧ (∀ c : Addr, s.scs.markCells = .written → s.scs.codeCells = .holds c → (s.scs.programming = none ∨ touched = false) →
        1 ≤ c.toNat → c.toNat ≤ 0xFFFFFE → t.scs.state = .written ∧ t.scs.code = c)
    ∧ (∀ c : Addr, s.scs.markCells = .written → s.scs.codeCells = .holds c →
        (c.toNat = 0 ∨ 0xFFFFFE < c.toNat) → t.scs.state = .fault)
    ∧ (s.scs.programming ≠ none → touched = true → t.scs.state = .fault)
    ∧ (s.scs.markCells = .unprogrammed → s.scs.codeCells ≠ .unprogrammed → t.scs.state = .fault)
    ∧ (s.scs.markCells = .written → (∀ c : Addr, s.scs.codeCells ≠ .holds c) → t.scs.state = .fault)
    ∧ (s.scs.markCells = .fault ∨ s.scs.markCells = .other → t.scs.state = .fault)

/-! ### Status, time and configuration -/

/-- GET_STATUS reports the part as it stands and then clears both link flags; GET_IDENTITY reports the part's constants, its
site code while WRITTEN, and the last start cause, and changes nothing. The 01h of a set hold pending flag is the model's
choice (notes/assumptions/29.md). -/
def Obligations.StatusAndIdentity : Prop :=
  ∀ s : State, s.rlc.processing = none →
    (exec .getStatus s = .next ({ s with rlc := { s.rlc with overrun := false, noticeLost := false } }.replied .getStatus .ok
      (num32 s.mtb.clock.seconds
        ++ [flagByte s.mtb.clock.isSet, s.scs.state.code, flagByte s.mtb.quiet, num8 s.orm.floor]
        ++ (([.waiting, .running, .closing, .complete, .partly, .expired, .superseded, .cancelled] : List OrderState).map
            fun (st : OrderState) => num8 (s.orm.table.countP fun (o : Order) => decide (o.state = st)))
        ++ phaseBytes s .a ++ phaseBytes s .b ++ phaseBytes s .c
        ++ [num8 s.rlc.notices.length, num8 (s.rlc.overrun.toNat + 2 * s.rlc.noticeLost.toNat)])))
    ∧ exec .getIdentity s = .next (s.replied .getIdentity .ok
      ([0x03, 0x40, num8 Config.designLevel, 32, 0x01, 0xE0, 16, 4, 24, 16]
        ++ bytes24 (if s.scs.state = .written then s.scs.code else 0) ++ [s.rlc.startCause.code]))
    ∧ 1 ≤ Config.designLevel ∧ Config.designLevel ≤ 255

/-- GET_TIME changes nothing and reports the seconds, the subcount and the clock state as they stand; an UNSET clock is
reported as 0 s and 0 ms, a stopped one with 0 ms. -/
def Obligations.GetTimeReports : Prop :=
  ∀ s : State, s.rlc.processing = none →
    exec .getTime s = .next (s.replied .getTime .ok
      (num32 s.mtb.clock.seconds ++ num16 s.mtb.clock.subcount ++ [if s.mtb.clock.isSet then 0x01 else 0x00]))
    ∧ (s.mtb.clock.Sound → s.mtb.clock.isSet = false →
        exec .getTime s = .next (s.replied .getTime .ok [0, 0, 0, 0, 0, 0, 0]))
    ∧ (s.mtb.clock.Sound → s.mtb.clock.seconds = 4294967295 →
        exec .getTime s = .next (s.replied .getTime .ok [0xFF, 0xFF, 0xFF, 0xFF, 0, 0, 0x01]))

/-- GET_CONFIG changes nothing; an id that is not one of the five draws BAD_FIELD, and otherwise the reply carries the id
and the stored value, with the tag counter for TAG_BASE. -/
def Obligations.GetConfigReports : Prop :=
  ∀ s : State, s.rlc.processing = none →
    (∀ id : Byte, id ≠ 1 → id ≠ 2 → id ≠ 3 → id ≠ 4 → id ≠ 5 →
      exec (.getConfig id) s = .next (s.replied (.getConfig id) .badField []))
    ∧ exec (.getConfig 1) s = .next (s.replied (.getConfig 1) .ok (1 :: num16 s.params.guard ++ [0, 0]))
    ∧ exec (.getConfig 2) s = .next (s.replied (.getConfig 2) .ok (2 :: num16 s.params.margin ++ [0, 0]))
    ∧ exec (.getConfig 3) s = .next (s.replied (.getConfig 3) .ok (3 :: num16 s.params.refreshPeriod ++ [0, 0]))
    ∧ exec (.getConfig 4) s = .next (s.replied (.getConfig 4) .ok (4 :: num16 s.params.lead ++ [0, 0]))
    ∧ exec (.getConfig 5) s = .next (s.replied (.getConfig 5) .ok (5 :: num16 s.params.tagBase ++ bytes16 s.orm.tagCounter))

/-- SET_CONFIG refuses an unknown id, stores a value clamped to its parameter's range, and for TAG_BASE is refused while the
table holds any record and otherwise loads the tag counter; SET_FLOOR stores a floor of at most 7. Nothing else changes.
That a TAG_BASE of the value already stored loads the counter too is the model's choice (notes/assumptions/28.md). -/
def Obligations.SettingsAreStored : Prop :=
  ∀ s : State, s.rlc.processing = none →
    (∀ (id : Byte) (v : BitVec 16), id ≠ 1 → id ≠ 2 → id ≠ 3 → id ≠ 4 → id ≠ 5 →
      exec (.setConfig id v) s = .next (s.replied (.setConfig id v) .badField []))
    ∧ (∀ (v : BitVec 16) (n : Nat), n = min (max v.toNat 1) 4 →
      exec (.setConfig 1 v) s = .next ({ s with params := { s.params with guard := n } }.replied (.setConfig 1 v)
        (if n = v.toNat then .ok else .clamped) (1 :: num16 n)))
    ∧ (∀ (v : BitVec 16) (n : Nat), n = min v.toNat 3 →
      exec (.setConfig 2 v) s = .next ({ s with params := { s.params with margin := n } }.replied (.setConfig 2 v)
        (if n = v.toNat then .ok else .clamped) (2 :: num16 n)))
    ∧ (∀ (v : BitVec 16) (n : Nat), n = min (max v.toNat 60) 3600 →
      exec (.setConfig 3 v) s = .next ({ s with params := { s.params with refreshPeriod := n } }.replied (.setConfig 3 v)
        (if n = v.toNat then .ok else .clamped) (3 :: num16 n)))
    ∧ (∀ (v : BitVec 16) (n : Nat), n = min (max v.toNat 60) 6000 →
      exec (.setConfig 4 v) s = .next ({ s with params := { s.params with lead := n } }.replied (.setConfig 4 v)
        (if n = v.toNat then .ok else .clamped) (4 :: num16 n)))
    ∧ (∀ v : BitVec 16, s.orm.table ≠ [] → exec (.setConfig 5 v) s = .next (s.replied (.setConfig 5 v) .notEmpty []))
    ∧ (∀ (v : BitVec 16) (n : Nat), s.orm.table = [] → n = max v.toNat 1 →
      exec (.setConfig 5 v) s
        = .next ({ s with
            params := { s.params with tagBase := n }
            orm := { s.orm with tagCounter := BitVec.ofNat 16 n } }.replied (.setConfig 5 v)
          (if n = v.toNat then .ok else .clamped) (5 :: num16 n)))
    ∧ (∀ (v : Byte) (n : Nat), n = min v.toNat 7 →
      exec (.setFloor v) s = .next ({ s with orm := { s.orm with floor := n } }.replied (.setFloor v)
        (if v.toNat ≤ 7 then .ok else .clamped) [num8 n]))

/-- SET_TIME sets the clock to the given second with subcount 0, empties every staged buffer, touches no slot in progress,
no directory entry, no store, no parameter and no other state of the mains block, makes every check against the new reading
(expiry, adoption, restore and timer), brings a next refresh that then lies more than a period ahead back to one period, and
replies with the reading before; its notices follow the reply. An order notes that E has been reached, and keeps it
(notes/assumptions/24.md); which of an adoption and a check of RFS comes first is left open (notes/assumptions/3.md). -/
def Obligations.SetTimeSets : Prop :=
  ∀ (s s1 : State) (v : BitVec 32), s.rlc.processing = none → s.orm.Sound → s.orm.Distinct → s.params.Sound → s.dir.Sound →
    s1 = { s with
      mtb := { s.mtb with clock := ⟨true, v.toNat, 0, s.mtb.timebase⟩ }
      lines := s.lines.map fun (l : Line) => { l with staged := none } } →
    ∃ u t, ChecksMade s1 u ∧ ChecksLeave s1 u
    ∧ t = State.owing
        { u with rfs := { u.rfs with standing := u.rfs.standing.map fun (x : Standing) =>
            { x with nextRefresh := x.nextRefresh.map fun n => min n (v.toNat + s.params.refreshPeriod) } } }
        (requestRecord (.setTime v))
        ⟨0x83, .ok, bytes32 v ++ num32 s.mtb.clock.seconds ++ num16 s.mtb.clock.subcount ++ [flagByte s.mtb.clock.isSet]⟩
    ∧ exec (.setTime v) s = .next t
    ∧ t.mtb = s1.mtb ∧ t.lines = s1.lines ∧ t.dir = s.dir ∧ t.scs = s.scs ∧ t.params = s.params ∧ t.pending = s.pending
    ∧ t.orm.tagCounter = s.orm.tagCounter ∧ t.orm.seqCounter = s.orm.seqCounter ∧ t.orm.floor = s.orm.floor
    ∧ ∀ g, ∀ x ∈ (t.standing g).nextRefresh, x ≤ v.toNat + s.params.refreshPeriod

/-! ### The directory -/

/-- HOUSE_GET changes nothing: it refuses an index above 479 and a vacant entry, and reports an occupied one with its frozen
and busy indications. The 01h of those two flags, when set, is the model's choice (notes/assumptions/29.md). -/
def Obligations.HouseGetReports : Prop :=
  ∀ (s : State) (i : BitVec 16), s.rlc.processing = none →
    (479 < i.toNat → exec (.houseGet i) s = .next (s.replied (.houseGet i) .badField []))
    ∧ (i.toNat ≤ 479 → s.house i.toNat = none → exec (.houseGet i) s = .next (s.replied (.houseGet i) .vacant []))
    ∧ ∀ (h : House) (frozen busy : Bool), i.toNat ≤ 479 → s.house i.toNat = some h →
        (frozen = true ↔ FrozenAt s i.toNat) → (busy = true ↔ BusyAt s i.toNat) →
        exec (.houseGet i) s = .next (s.replied (.houseGet i) .ok
          (bytes16 i ++ bytes24 h.address ++ [phaseCode h.phase] ++ bytes16 h.groups ++ [num8 h.route.length]
            ++ num16 (h.route.getD 0 0) ++ num16 (h.route.getD 1 0) ++ num16 h.refCount
            ++ [num8 h.missCount, h.health.code, marginCode h.margin, if frozen then 0x01 else 0x00,
              if busy then 0x01 else 0x00]))

/-- HOUSE_FIND changes nothing: it refuses an address out of range, and otherwise answers with the one occupied entry that
holds the address, frozen or busy as it may be, or with VACANT. -/
def Obligations.HouseFindAnswers : Prop :=
  ∀ (s : State) (a : Addr), s.rlc.processing = none → s.dir.Sound →
    ((a.toNat = 0 ∨ 0xFFFFFE < a.toNat) → exec (.houseFind a) s = .next (s.replied (.houseFind a) .badField []))
    ∧ (∀ (i : Nat) (h : House), s.house i = some h → h.address = a →
        exec (.houseFind a) s = .next (s.replied (.houseFind a) .ok (num16 i ++ [phaseCode h.phase])))
    ∧ (1 ≤ a.toNat → a.toNat ≤ 0xFFFFFE → (∀ i h, s.house i = some h → h.address ≠ a) →
        exec (.houseFind a) s = .next (s.replied (.houseFind a) .vacant []))

/-- HOUSE_PUT draws the code of the first check of R37 that fails, and then changes no entry and nothing else; a request
that passes all six is answered OK. -/
def Obligations.HousePutIsChecked : Prop :=
  ∀ (s : State) (f : PutFields), s.rlc.processing = none →
    (¬PutInRange f → exec (.housePut f) s = .next (s.replied (.housePut f) .badField []))
    ∧ (PutInRange f → FrozenAt s f.index.toNat →
        exec (.housePut f) s = .next (s.replied (.housePut f) .frozen []))
    ∧ (PutInRange f → ¬FrozenAt s f.index.toNat → BusyAt s f.index.toNat →
        exec (.housePut f) s = .next (s.replied (.housePut f) .busyEntry []))
    ∧ (PutInRange f → ¬FrozenAt s f.index.toNat → ¬BusyAt s f.index.toNat → AddressTaken s f →
        exec (.housePut f) s = .next (s.replied (.housePut f) .duplicate []))
    ∧ (PutInRange f → ¬FrozenAt s f.index.toNat → ¬BusyAt s f.index.toNat → ¬AddressTaken s f → ¬PutRouteOk s f →
        exec (.housePut f) s = .next (s.replied (.housePut f) .noRoute []))
    ∧ (PutInRange f → ¬FrozenAt s f.index.toNat → ¬BusyAt s f.index.toNat → ¬AddressTaken s f → PutRouteOk s f →
        ¬PutReferenceOk s f → exec (.housePut f) s = .next (s.replied (.housePut f) .inUse []))
    ∧ (PutPasses s f → ∃ t rest, exec (.housePut f) s = .next t
        ∧ t.rlc.processing = some ⟨requestRecord (.housePut f), .owed ⟨0x90, .ok, rest⟩⟩)

/-- A HOUSE_PUT that passes its checks writes the entry, keeps its reference count, keeps its health items only for a house
of the same address, moves the reference counts of the entries its routes name, and changes nothing else. -/
def Obligations.HousePutEdits : Prop :=
  ∀ (s : State) (f : PutFields) (old : List Nat), s.rlc.processing = none → s.dir.Sound → PutPasses s f →
    ((s.house f.index.toNat).map (·.route)).getD [] = old →
    ∃ (d : Dir) (h : House),
      exec (.housePut f) s = .next ({ s with dir := d }.replied (.housePut f) .ok
        (bytes16 f.index ++ [num8 h.missCount, h.health.code]))
      ∧ d.freezes = s.dir.freezes ∧ (d.houses.map (·.1)).Pairwise (· < ·)
      ∧ d.get f.index.toNat = some h
      ∧ h.address = f.address ∧ phaseCode h.phase = f.phase ∧ h.groups = f.groups ∧ h.route = putHops f
      ∧ h.refCount = ((s.house f.index.toNat).map (·.refCount)).getD 0
      ∧ (∀ k, s.house f.index.toNat = some k → k.address = f.address →
          h.missCount = k.missCount ∧ h.health = k.health ∧ h.margin = k.margin)
      ∧ ((∀ k, s.house f.index.toNat = some k → k.address ≠ f.address) →
          h.missCount = 0 ∧ h.health = .good ∧ h.margin = none)
      ∧ ∀ j, j ≠ f.index.toNat →
          d.get j = (s.house j).map fun k => { k with refCount := countAfter old (putHops f) j k.refCount }

/-- HOUSE_REMOVE draws the code of the first check of R39 that fails and then changes nothing; otherwise the entry becomes
vacant and the reference counts of its repeaters fall by 1. -/
def Obligations.HouseRemoveDecides : Prop :=
  ∀ (s : State) (i : BitVec 16), s.rlc.processing = none → s.dir.Sound →
    (479 < i.toNat → exec (.houseRemove i) s = .next (s.replied (.houseRemove i) .badField []))
    ∧ (i.toNat ≤ 479 → FrozenAt s i.toNat → exec (.houseRemove i) s = .next (s.replied (.houseRemove i) .frozen []))
    ∧ (i.toNat ≤ 479 → ¬FrozenAt s i.toNat → BusyAt s i.toNat →
        exec (.houseRemove i) s = .next (s.replied (.houseRemove i) .busyEntry []))
    ∧ (∀ h, i.toNat ≤ 479 → ¬FrozenAt s i.toNat → ¬BusyAt s i.toNat → s.house i.toNat = some h → h.refCount ≠ 0 →
        exec (.houseRemove i) s = .next (s.replied (.houseRemove i) .inUse []))
    ∧ (i.toNat ≤ 479 → ¬FrozenAt s i.toNat → ¬BusyAt s i.toNat → s.house i.toNat = none →
        exec (.houseRemove i) s = .next (s.replied (.houseRemove i) .vacant []))
    ∧ (∀ h, i.toNat ≤ 479 → ¬FrozenAt s i.toNat → ¬BusyAt s i.toNat → s.house i.toNat = some h → h.refCount = 0 →
        ∃ d : Dir, exec (.houseRemove i) s = .next ({ s with dir := d }.replied (.houseRemove i) .ok [])
          ∧ d.freezes = s.dir.freezes ∧ (d.houses.map (·.1)).Pairwise (· < ·) ∧ d.get i.toNat = none
          ∧ ∀ j, j ≠ i.toNat → d.get j = (s.house j).map fun k =>
              { k with refCount := if j ∈ h.route then k.refCount - 1 else k.refCount })

/-- FREEZE refuses a span or mode out of range and a full table, and otherwise appends its range and reports the table; an
index it covers is frozen from then on. -/
def Obligations.FreezeAppends : Prop :=
  ∀ (s : State) (first last : BitVec 16) (mode : Byte), s.rlc.processing = none →
    (¬(first.toNat ≤ last.toNat ∧ last.toNat ≤ 479 ∧ (mode = 0 ∨ mode = 1)) →
      exec (.freeze first last mode) s = .next (s.replied (.freeze first last mode) .badField []))
    ∧ (first.toNat ≤ last.toNat → last.toNat ≤ 479 → (mode = 0 ∨ mode = 1) → 4 ≤ s.dir.freezes.length →
      exec (.freeze first last mode) s = .next (s.replied (.freeze first last mode) .tableFull []))
    ∧ (∀ (m : FreezeMode) (fs : List Freeze), first.toNat ≤ last.toNat → last.toNat ≤ 479 → m.code = mode →
        s.dir.freezes.length < 4 → fs = s.dir.freezes ++ [⟨first.toNat, last.toNat, m⟩] →
      exec (.freeze first last mode) s
        = .next ({ s with dir := { s.dir with freezes := fs } }.replied (.freeze first last mode) .ok (freezeBytes fs))
      ∧ ∀ i, first.toNat ≤ i → i ≤ last.toNat → FrozenAt { s with dir := { s.dir with freezes := fs } } i)

/-- THAW refuses a span out of range, and otherwise removes the SOFT ranges that lie wholly within the span and reports how
many and what stays; over the whole directory it removes every SOFT range, and no request removes a HARD one. -/
def Obligations.ThawRemoves : Prop :=
  ∀ s : State, s.rlc.processing = none → s.dir.FreezesSound →
    (∀ first last : BitVec 16, ¬(first.toNat ≤ last.toNat ∧ last.toNat ≤ 479) →
      exec (.thaw first last) s = .next (s.replied (.thaw first last) .badField []))
    ∧ (∀ (first last : BitVec 16) (fs : List Freeze), first.toNat ≤ last.toNat → last.toNat ≤ 479 →
        fs = s.dir.freezes.filter (fun f => decide (f.mode = .hard ∨ f.first < first.toNat ∨ last.toNat < f.last)) →
      exec (.thaw first last) s = .next ({ s with dir := { s.dir with freezes := fs } }.replied (.thaw first last) .ok
        (num8 (s.dir.freezes.length - fs.length) :: freezeBytes fs)))
    ∧ (∃ t, exec (.thaw 0 479) s = .next t ∧ t.dir.freezes = s.dir.freezes.filter fun f => decide (f.mode = .hard))
    ∧ ∀ (r : Request) (t : State), exec (requestCommand r) s = .next t →
        (s.dir.freezes.filter fun f => decide (f.mode = .hard)).Sublist t.dir.freezes

/-! ### Orders -/

/-- ORDER_SUBMIT draws the code of the first step of R9 that fails, and then changes nothing. -/
def Obligations.SubmitRefused : Prop :=
  ∀ (s : State) (f : SubmitFields), s.rlc.processing = none →
    (s.scs.state ≠ .written → exec (.orderSubmit f) s = .next (s.replied (.orderSubmit f) .noSite []))
    ∧ (s.scs.state = .written → s.mtb.clock.isSet = false →
        exec (.orderSubmit f) s = .next (s.replied (.orderSubmit f) .clockUnset []))
    ∧ (s.scs.state = .written → s.mtb.clock.isSet = true →
        (¬SubmitInRange f s.now → exec (.orderSubmit f) s = .next (s.replied (.orderSubmit f) .badField []))
        ∧ (SubmitInRange f s.now → SubmitTargetVacant s f →
            exec (.orderSubmit f) s = .next (s.replied (.orderSubmit f) .vacant []))
        ∧ (SubmitInRange f s.now → ¬SubmitTargetVacant s f → f.expiry.toNat ≤ s.now →
            exec (.orderSubmit f) s = .next (s.replied (.orderSubmit f) .expiryPast []))
        ∧ (SubmitInRange f s.now → ¬SubmitTargetVacant s f → s.now < f.expiry.toNat → SubmitNoMember s f →
            exec (.orderSubmit f) s = .next (s.replied (.orderSubmit f) .noMembers []))
        ∧ (SubmitInRange f s.now → ¬SubmitTargetVacant s f → s.now < f.expiry.toNat → ¬SubmitNoMember s f →
            32 ≤ s.orm.table.length → exec (.orderSubmit f) s = .next (s.replied (.orderSubmit f) .tableFull [])))

/-- An ORDER_SUBMIT that passes the six steps admits one record: its tag is the first free one from the tag counter, its
fields are stored as checked and clamped, its involved phases are QUEUED, and the live record of its kind and group ends
SUPERSEDED, its PENDING mark PASSED, with ORDER_END posted where no slot of it is in flight. The directory, the clock, the
lines' slots and the refresh queues are left as they stand, and the notices are that ORDER_END and those of adoptions. After
the admission of a BAND or RELAY order each record is checked for adoption in admission order, as ADOPTION checks one, and
none is due then; where none is due, the new one among them, no standing record changes, no mark but the superseded one's,
and the new record's mark is PENDING, or none for a QUERY. That a QUERY's repeat count is not compared for the code CLAMPED
is the model's reading (notes/assumptions/16.md), and so is the note that E is reached (24.md). -/
def Obligations.SubmitAdmits : Prop :=
  ∀ (s : State) (f : SubmitFields), s.rlc.processing = none → s.orm.Sound → s.orm.Distinct →
    s.scs.state = .written → s.mtb.clock.isSet = true → SubmitInRange f s.now → ¬SubmitTargetVacant s f →
    s.now < f.expiry.toNat → ¬SubmitNoMember s f → s.orm.table.length < 32 →
    ∃ (t : State) (o : Order) (reply : Reply), exec (.orderSubmit f) s = .next t
    ∧ t.orm.table.map unmarked
        = (s.orm.table.map fun x => unmarked (if SupersededBy o.body x then endedOrder x .superseded s.now else x))
          ++ [unmarked o]
    ∧ (∃ k, o.tag = tagAfter^[k] s.orm.tagCounter ∧ (∀ x ∈ s.orm.table, x.tag ≠ o.tag)
        ∧ ∀ j < k, ∃ x ∈ s.orm.table, x.tag = tagAfter^[j] s.orm.tagCounter)
    ∧ t.orm.tagCounter = tagAfter o.tag ∧ o.seq = s.orm.seqCounter ∧ t.orm.seqCounter = s.orm.seqCounter + 1
    ∧ t.orm.floor = s.orm.floor ∧ SubmitBody f o.body ∧ o.priority = f.priority.toNat
    ∧ o.effective = (if f.effFlag = 0 then none else some f.effective.toNat)
    ∧ o.expiry = expiryAsStored f.expiry.toNat s.now ∧ o.repeatCount = (if f.kind = 3 then 0 else min f.repeats.toNat 4)
    ∧ o.retryLimit = min (max f.retryLimit.toNat 1) 7
    ∧ (o.policy = .none ↔ f.kind ≠ 3 ∧ f.policy = 0) ∧ (o.direction = .descending ↔ f.kind ≠ 3 ∧ f.direction = 1)
    ∧ (o.reached = true ↔ f.effFlag ≠ 0 ∧ f.effective.toNat ≤ s.now)
    ∧ o.state = .waiting ∧ o.closing = none ∧ o.finishedAt = none ∧ o.misses = [] ∧ o.unlisted = 0 ∧ o.result = none
    ∧ (∀ p, SubmitInvolves s f p → (o.progress.get p).stage = .queued)
    ∧ (∀ p, ¬SubmitInvolves s f p → (o.progress.get p).stage = .notInvolved)
    ∧ (∀ p, o.progress.get p = ⟨(o.progress.get p).stage, 0,
        if o.direction = .ascending then .at 0 else .at 479, 0, 0, 0, 0, 0, 0, 0, 0, false⟩)
    ∧ (∀ p, (∀ x ∈ s.orm.table, ¬SupersededBy o.body x) → t.line p = s.line p)
    ∧ (∀ p, ∀ x ∈ s.orm.table, SupersededBy o.body x → t.line p = withoutStaged (s.line p) x.tag)
    ∧ t.dir = s.dir ∧ t.mtb = s.mtb ∧ t.scs = s.scs ∧ t.params = s.params ∧ t.pending = s.pending
    ∧ (∀ p, t.queue p = s.queue p)
    ∧ ((∀ x ∈ s.orm.table, ¬DueForAdoption x s.now) → (f.kind = 3 ∨ f.repeats ≠ 0) →
        t.rfs = s.rfs ∧ o.mark = (if f.kind = 3 then none else some .pending)
        ∧ t.orm.table
            = (s.orm.table.map fun x => if SupersededBy o.body x then endedOrder x .superseded s.now else x) ++ [o])
    ∧ (f.kind ≠ 3 → ∀ x ∈ t.orm.table, ¬DueForAdoption x s.now)
    ∧ (∀ u, u = (admitted s { o with mark := if f.kind = 3 then none else some .pending }).owing
          (requestRecord (.orderSubmit f)) reply →
        (f.kind = 3 → t = u) ∧ (f.kind ≠ 3 → adoptEach (u.orm.table.map (·.tag)) u = .next t))
    ∧ reply = ⟨0xA0,
        if o.expiry = f.expiry.toNat ∧ o.retryLimit = f.retryLimit.toNat
            ∧ (f.kind = 3 ∨ o.repeatCount = f.repeats.toNat) then .ok else .clamped,
        bytes16 o.tag ++ bytes32 o.seq ++ [num8 o.repeatCount, num8 o.retryLimit] ++ num32 o.expiry⟩
    ∧ ∃ adoptions : List Notice, (∀ n ∈ adoptions, ∃ g v tag cause, n = .standing g v tag cause)
        ∧ t.rlc = ((State.postAll (admitted s o) adoptions).owing (requestRecord (.orderSubmit f)) reply).rlc

/-- ORDER_LIST and ORDER_READ change nothing. ORDER_LIST reports the records in listing order. ORDER_READ checks its section
before its tag, and lays the RECORD section out as Table 11-7 does and the MISSES section as the text after it. The 01h of a
set slot in flight and of a set override flag is the model's choice (notes/assumptions/29.md). -/
def Obligations.OrdersAreRead : Prop :=
  ∀ s : State, s.rlc.processing = none → s.orm.Distinct →
    exec .orderList s = .next (s.replied .orderList .ok (num8 s.orm.table.length :: s.orm.table.flatMap fun o =>
      bytes16 o.tag ++ [o.body.kindCode, num8 ((o.body.group.map (·.val)).getD 0), num8 o.priority, o.state.code]))
    ∧ (∀ (tag : Tag) (x : Byte), x ≠ 1 → x ≠ 2 →
        exec (.orderRead tag x) s = .next (s.replied (.orderRead tag x) .badField []))
    ∧ (∀ (tag : Tag) (x : Byte), (x = 1 ∨ x = 2) → (tag = 0 ∨ ∀ o ∈ s.orm.table, o.tag ≠ tag) →
        exec (.orderRead tag x) s = .next (s.replied (.orderRead tag x) .unknownTag []))
    ∧ (∀ o ∈ s.orm.table, o.tag ≠ 0 →
        exec (.orderRead o.tag 2) s = .next (s.replied (.orderRead o.tag 2) .ok
          ([0x02, num8 o.misses.length]
            ++ (o.misses.flatMap fun m => num16 m.index ++ bytes24 m.address ++ [phaseCode m.phase, m.reason.code])
            ++ num16 o.unlisted)))
    ∧ ∀ o ∈ s.orm.table, o.tag ≠ 0 → ∃ l,
        exec (.orderRead o.tag 1) s = .next (s.replied (.orderRead o.tag 1) .ok l)
        ∧ l.length = 107 ∧ field l 1 1 = [0x01]
        ∧ field l 2 1 = [num8 (o.effective.isSome.toNat + 2 * o.closing.isSome.toNat + 4 * o.finishedAt.isSome.toNat
            + 8 * o.result.isSome.toNat + 16 * o.body.restore.isSome.toNat + 32 * o.body.group.isSome.toNat
            + 64 * o.body.target.isSome.toNat + 128 * o.body.group.isSome.toNat)]
        ∧ field l 3 2 = bytes16 o.tag ∧ field l 5 4 = bytes32 o.seq ∧ field l 9 1 = [o.body.kindCode]
        ∧ field l 10 1 = [num8 ((o.body.group.map (·.val)).getD 0)] ∧ field l 11 2 = num16 (o.body.target.getD 0)
        ∧ field l 13 1 = [match o.body with | .band _ b => num8 b | .relay _ v _ => v.code | .query _ => 0]
        ∧ field l 14 2 = num16 (o.body.restore.getD 0) ∧ field l 16 1 = [num8 o.priority]
        ∧ field l 17 4 = num32 (o.effective.getD 0) ∧ field l 21 4 = num32 o.expiry
        ∧ field l 25 5 = [num8 o.repeatCount, o.policy.code, num8 o.retryLimit, o.direction.code, o.state.code]
        ∧ field l 30 1 = [(o.closing.map (·.code)).getD 0] ∧ field l 31 4 = num32 (o.finishedAt.getD 0)
        ∧ (∀ (p : Phase) (k : Nat), (p = .a ∧ k = 35) ∨ (p = .b ∧ k = 55) ∨ (p = .c ∧ k = 75) →
            field l k 20 = [(o.progress.get p).stage.code, num8 (o.progress.get p).repeatsSent]
              ++ (match (o.progress.get p).cursor with | .at i => num16 i | .atEnd => [0xFF, 0xFF])
              ++ [num8 (o.progress.get p).attempts] ++ num16 (o.progress.get p).confirmed
              ++ num16 (o.progress.get p).override ++ num16 (o.progress.get p).notMember
              ++ num16 (o.progress.get p).noReply ++ num16 (o.progress.get p).rejected ++ num16 (o.progress.get p).vacant
              ++ num16 (o.progress.get p).expected ++ [if (o.progress.get p).inFlight then 0x01 else 0x00])
        ∧ field l 95 1 = [num8 o.misses.length] ∧ field l 96 2 = num16 o.unlisted
        ∧ (o.result = none → field l 98 10 = List.replicate 10 0)
        ∧ ∀ r, o.result = some r → field l 98 10
            = [(r.band.map num8).getD 0xFF, (r.relay.map (·.code)).getD 0xFF] ++ bytes16 r.groups ++ bytes16 r.bandTag
              ++ bytes16 r.relayTag ++ [if r.override then 0x01 else 0x00, num8 r.margin]

/-- ORDER_CANCEL ends a WAITING or RUNNING order with reason CANCELLED, and is answered with the record's state; a CLOSING
or final order it leaves as it stands. ORDER_RELEASE removes a final record and leaves every other one in its place; a live
or CLOSING record stays. A tag that no record holds, and tag 0, draw UNKNOWN_TAG and change nothing. -/
def Obligations.OrdersAreCancelledAndReleased : Prop :=
  ∀ (s : State) (tag : Tag), s.rlc.processing = none → s.orm.Distinct →
    ((tag = 0 ∨ ∀ o ∈ s.orm.table, o.tag ≠ tag) →
      exec (.orderCancel tag) s = .next (s.replied (.orderCancel tag) .unknownTag [])
      ∧ exec (.orderRelease tag) s = .next (s.replied (.orderRelease tag) .unknownTag []))
    ∧ (∀ o ∈ s.orm.table, o.tag = tag → tag ≠ 0 →
      (o.state ≠ .waiting → o.state ≠ .running →
        exec (.orderCancel tag) s = .next (s.replied (.orderCancel tag) .alreadyFinished [o.state.code]))
      ∧ (∀ u : State, (o.state = .waiting ∨ o.state = .running) →
          u = { s with
            orm := { s.orm with table := s.orm.table.map fun x => if x.tag = tag then endedOrder x .cancelled s.now else x }
            lines := s.lines.map fun l => withoutStaged l tag } →
          exec (.orderCancel tag) s
            = .next ((if (endedOrder o .cancelled s.now).state = .cancelled then u.post (.orderEnd tag .cancelled) else u).replied
                (.orderCancel tag) .ok [(endedOrder o .cancelled s.now).state.code])))
    ∧ ∀ (o : Order) (before after : List Order), s.orm.table = before ++ o :: after → o.tag = tag → tag ≠ 0 →
      ((o.state = .waiting ∨ o.state = .running ∨ o.state = .closing) →
        exec (.orderRelease tag) s = .next (s.replied (.orderRelease tag) .notFinished []))
      ∧ (o.state ≠ .waiting → o.state ≠ .running → o.state ≠ .closing →
        exec (.orderRelease tag) s
          = .next ({ s with orm := { s.orm with table := before ++ after } }.replied (.orderRelease tag) .ok []))

/-! ### Holds, statistics, standing state and reset -/

/-- PHASE_HOLD holds a line without a slot at once and otherwise leaves a pending hold; PHASE_RESUME withdraws both and
reports what stood; a pending hold with no slot in progress takes effect. Nothing else changes, and an unknown phase code
draws BAD_FIELD. -/
def Obligations.PhaseHoldsAndResumes : Prop :=
  ∀ s : State, s.rlc.processing = none →
    (∀ c : Byte, c ≠ 1 → c ≠ 2 → c ≠ 3 →
      exec (.phaseHold c) s = .next (s.replied (.phaseHold c) .badField [])
      ∧ exec (.phaseResume c) s = .next (s.replied (.phaseResume c) .badField []))
    ∧ ∀ (p : Phase) (l : Line), s.line p = l →
      (l.causes.held = true →
        exec (.phaseHold (phaseCode p)) s = .next (s.replied (.phaseHold (phaseCode p)) .ok [0x02]))
      ∧ (l.causes.held = false → l.holdPending = true →
        exec (.phaseHold (phaseCode p)) s = .next (s.replied (.phaseHold (phaseCode p)) .ok [0x01]))
      ∧ (l.causes.held = false → l.holdPending = false → l.segment ≠ .none →
        exec (.phaseHold (phaseCode p)) s
          = .next ((withLine s p { l with holdPending := true }).replied (.phaseHold (phaseCode p)) .ok [0x01]))
      ∧ (l.causes.held = false → l.holdPending = false → l.segment = .none →
        exec (.phaseHold (phaseCode p)) s
          = .next ((withLine s p { l with causes := { l.causes with held := true } }).replied (.phaseHold (phaseCode p)) .ok
              [0x02]))
      ∧ exec (.phaseResume (phaseCode p)) s
          = .next ((withLine s p { l with causes := { l.causes with held := false }, holdPending := false }).replied
              (.phaseResume (phaseCode p)) .ok
              [if l.causes.held then 0x02 else if l.holdPending then 0x01 else 0x00])
      ∧ (l.holdPending = true → l.segment = .none →
        exec (.holdTakesEffect p) s
          = .next (withLine s p { l with causes := { l.causes with held := true }, holdPending := false }).pump)
      ∧ (l.holdPending = false ∨ l.segment ≠ .none → exec (.holdTakesEffect p) s = .next s.pump)

/-- PHASE_STATS reports the counts and the last quality of the named phase and, if asked, zeroes them; STANDING_READ reports
a group's standing record and its places in the three queues and changes nothing. -/
def Obligations.StatsAndStandingAreRead : Prop :=
  ∀ s : State, s.rlc.processing = none →
    (∀ c clear : Byte, c ≠ 1 → c ≠ 2 → c ≠ 3 →
      exec (.phaseStats c clear) s = .next (s.replied (.phaseStats c clear) .badField []))
    ∧ (∀ (p : Phase) (clear : Byte) (x : Stats), (s.line p).stats = x →
      exec (.phaseStats (phaseCode p) clear) s
        = .next ((if clear = 0 then s else withLine s p { s.line p with stats := noStats }).replied
            (.phaseStats (phaseCode p) clear) .ok
            (num16 x.framesSent ++ num16 x.slotsAborted ++ num16 x.repliesAccepted ++ num16 x.crcErrors ++ num16 x.stray
              ++ num16 x.foreign ++ [if x.quality.isSome then 0x01 else 0x00, x.quality.getD 0])))
    ∧ (∀ c : Byte, 16 ≤ c.toNat → exec (.standingRead c) s = .next (s.replied (.standingRead c) .badField []))
    ∧ ∀ (g : Fin 16) (x : Standing) (qa qb qc : Option Nat), s.standing g = x →
        ((s.queue .a).find? (fun e => e.group = g)).map (·.queuedAt) = qa →
        ((s.queue .b).find? (fun e => e.group = g)).map (·.queuedAt) = qb →
        ((s.queue .c).find? (fun e => e.group = g)).map (·.queuedAt) = qc →
        exec (.standingRead (num8 g.val)) s = .next (s.replied (.standingRead (num8 g.val)) .ok
          ([num8 g.val, num8 (x.restoreUntil.isSome.toNat + 2 * x.nextRefresh.isSome.toNat + 4 * qa.isSome.toNat
              + 8 * qb.isSome.toNat + 16 * qc.isSome.toNat)]
            ++ [(x.band.map fun b => num8 b.1).getD 0xFF] ++ bytes16 ((x.band.map (·.2)).getD 0)
            ++ [(x.relay.map fun r => r.1.code).getD 0xFF] ++ bytes16 ((x.relay.map (·.2)).getD 0)
            ++ num32 (x.restoreUntil.getD 0) ++ num32 (x.nextRefresh.getD 0) ++ bytes16 x.changeCount
            ++ num32 (qa.getD 0) ++ num32 (qb.getD 0) ++ num32 (qc.getD 0)))

/-- RESET empties the order table and the refresh queues, sets the floor to 7, aborts every slot and with it discards what
is in reception, discards the frames that wait, releases holds, zeroes the statistics, removes the SOFT ranges, and empties
the holding place, the notices and the flags behind a STARTED (SOFT) notice. Everything else keeps its state. That a
reception is discarded only where a slot is aborted, and the count of such cuts, which stands as it stood where no slot is
in progress, are the model's choice (notes/assumptions/8.md). -/
def Obligations.ResetClears : Prop :=
  ∀ s : State, s.rlc.processing = none →
    exec .reset s = .next ({ s with
      orm := { s.orm with table := [], floor := 7 }
      dir := { s.dir with freezes := s.dir.freezes.filter fun (f : Freeze) => decide (f.mode = FreezeMode.hard) }
      lines := s.lines.map fun (l : Line) =>
        ⟨{ l.causes with held := false }, false, .none, false, none, none, noStats, [],
          if l.segment = Segment.none then l.cuts else l.cuts + 1⟩
      rfs := { s.rfs with queues := ⟨[], [], []⟩ }
      rlc := { s.rlc with
        holding := none
        notices := [.started .soft]
        overrun := false
        noticeLost := false
        startCause := .soft } }.replied .reset .ok [])

/-- WRITE_SITE refuses a code out of range and a store that is not BLANK, and otherwise stays in HANDLING while the store
programs. When programming ends, a code that reads back equal makes the store WRITTEN and takes SITE from every phase, and
any other makes it FAULT; the reply is owed. With nothing programming the end changes nothing. The row's operand and a
FAULT's cells are the model's choice (notes/assumptions/10.md). -/
def Obligations.SiteIsWritten : Prop :=
  ∀ s : State,
    (s.rlc.processing = none → ∀ code : Addr,
      ((code.toNat = 0 ∨ 0xFFFFFE < code.toNat) →
        exec (.writeSite code) s = .next (s.replied (.writeSite code) .badField []))
      ∧ (1 ≤ code.toNat → code.toNat ≤ 0xFFFFFE → s.scs.state = .written →
        exec (.writeSite code) s = .next (s.replied (.writeSite code) .siteWritten []))
      ∧ (1 ≤ code.toNat → code.toNat ≤ 0xFFFFFE → s.scs.state = .fault →
        exec (.writeSite code) s = .next (s.replied (.writeSite code) .siteFault []))
      ∧ (1 ≤ code.toNat → code.toNat ≤ 0xFFFFFE → s.scs.state = .blank →
        exec (.writeSite code) s
          = .next { s with
              scs := { s.scs with programming := some code }
              rlc := { s.rlc with processing := some ⟨requestRecord (.writeSite code), .handling⟩ } }.pump))
    ∧ (∀ (code : Addr) (rec : Record), s.scs.programming = some code → s.rlc.processing = some ⟨rec, .handling⟩ →
      exec (.writeSiteComplete true) s
        = .next ({ s with
            scs := ⟨.written, code, .written, .holds code, none⟩
            lines := s.lines.map fun (l : Line) => { l with causes := { l.causes with site := false } } }.owing rec
              ⟨0x87, .ok, bytes24 code⟩)
      ∧ exec (.writeSiteComplete false) s
        = .next ({ s with scs := ⟨.fault, 0, .fault, .partly, none⟩ }.owing rec ⟨0x87, .siteFault, []⟩))
    ∧ ∀ equal, s.scs.programming = none → exec (.writeSiteComplete equal) s = .next s.pump

/-! ### The seconds clock and its checks -/

/-- A running clock counts milliseconds on the timebase and, at the rollover, its second: every live order whose expiry is
reached ends EXPIRED, every candidate that is due is adopted or passed, every restore that is due is made, and every timer
that is reached fires. A clock that is UNSET or has stopped does not run. That the row itself runs the timebase on to its
moment is the model's choice (notes/assumptions/7.md), the note that E is reached too (24.md); which of an adoption and a
check of RFS comes first is left open (3.md), and a FREE transmitter begins after the last notice (27.md). -/
def Obligations.ClockRuns : Prop :=
  ∀ (s : State) (c : Clock), s.mtb.clock = c →
    (c.isSet = true → c.seconds < 4294967295 → c.subcount < 999 →
      exec .subcountAdvance s = .next { s with
        mtb := { s.mtb with
          timebase := max s.mtb.timebase (c.mark + 1000)
          clock := { c with subcount := c.subcount + 1, mark := c.mark + 1000 } } }.pump)
    ∧ (c.isSet = false ∨ 4294967295 ≤ c.seconds ∨ 999 ≤ c.subcount → exec .subcountAdvance s = .next s.pump)
    ∧ (c.isSet = false ∨ 4294967295 ≤ c.seconds → exec .clockIncrement s = .next s.pump)
    ∧ ∀ (s1 : State) (roll : Nat), c.isSet = true → c.seconds < 4294967295 → roll = c.mark + 1000 * (1000 - c.subcount) →
        s1 = { s with
          mtb := { s.mtb with timebase := max s.mtb.timebase roll, clock := ⟨true, c.seconds + 1, 0, roll⟩ } } →
        s.orm.Sound → s.orm.Distinct → s.params.Sound → s.dir.Sound →
        ∃ u, ChecksMade s1 u ∧ ChecksLeave s1 u ∧ exec .clockIncrement s = .next u.pump
        ∧ u.mtb = s1.mtb
        ∧ (∀ p, u.line p = { s.line p with staged := (u.line p).staged }
            ∧ ((u.line p).staged = (s.line p).staged ∨ (u.line p).staged = none))
        ∧ u.dir = s.dir ∧ u.scs = s.scs ∧ u.params = s.params ∧ u.pending = s.pending
        ∧ u.orm.tagCounter = s.orm.tagCounter ∧ u.orm.seqCounter = s.orm.seqCounter ∧ u.orm.floor = s.orm.floor

/-- ORM's expiry check ends every WAITING or RUNNING order whose expiry is at or before now, in admission order and with
their notices in that order, and discards the frames staged for them; it changes no other order and nothing else. The end of
CLOSING comes with no slot in flight left, and enters the final state the closing reason names. That each row acts on what
stands due is the model's choice (notes/assumptions/4.md). So is that all the notices are posted before a FREE transmitter
begins the first (27.md). -/
def Obligations.OrdersExpireAndClose : Prop :=
  ∀ s : State, s.orm.Distinct →
    (∀ (due : List Order) (u : State),
      due = s.orm.table.filter (fun o => decide ((o.state = .waiting ∨ o.state = .running) ∧ o.expiry ≤ s.now)) →
      u = { s with
        orm := { s.orm with table := s.orm.table.map fun o => if o ∈ due then endedOrder o .expired s.now else o }
        lines := s.lines.map fun l =>
          { l with staged := l.staged.bind fun f => if ∃ o ∈ due, f.work = .order o.tag then none else some f } } →
      exec .orderExpiry s = .next (u.postAll ((due.filter fun o => decide ((endedOrder o .expired s.now).state = .expired)).map
        fun o => .orderEnd o.tag .expired)).pump)
    ∧ (∀ (o : Order) (reason : Reason), o ∈ s.orm.table → o.state = .closing → o.closing = some reason →
      (∀ p, (o.progress.get p).inFlight = false) →
      exec (.orderClosingEnd o.tag) s
        = .next ({ s with orm := { s.orm with table := s.orm.table.map fun (x : Order) =>
            if x.tag = o.tag then { x with state := reason.final, closing := none, finishedAt := some s.now } else x } }.post
              (.orderEnd o.tag reason.final)).pump)
    ∧ ∀ tag, (∀ o ∈ s.orm.table, o.tag = tag → o.state ≠ .closing ∨ ∃ p, (o.progress.get p).inFlight = true) →
      exec (.orderClosingEnd tag) s = .next s.pump

/-- The adoption of a due order puts its value and tag into its group's standing record, unless a newer tag of its kind
stands there; a restore-until that is already reached is followed at once by the restore. A record that is not due is left
as it stands. The row checks one order (the model's choice, notes/assumptions/4.md, as is that a FREE transmitter begins
after the last notice, 27.md). -/
def Obligations.OrdersAreAdopted : Prop :=
  ∀ s : State, s.orm.Distinct →
    (∀ (o : Order) (g : Fin 16) (b : Nat) (x : Standing), o ∈ s.orm.table → DueForAdoption o s.now → o.body = .band g b →
      s.standing g = x →
      ((∃ y ∈ x.band, Newer y.2 o.tag) → exec (.adoption o.tag) s = .next (withMark s o.tag .passed).pump)
      ∧ ((∀ y ∈ x.band, ¬Newer y.2 o.tag) →
        exec (.adoption o.tag) s
          = .next ((withMark (withStanding s g { x with
                band := some (b, o.tag)
                changeCount := x.changeCount + 1
                nextRefresh := some (min (s.now + s.params.refreshPeriod) 4294967295) }) o.tag .adopted).post
              (.standing g (.band b) o.tag .adopted)).pump))
    ∧ (∀ (o : Order) (g : Fin 16) (v : RelayValue) (restore til : Option Nat) (x : Standing), o ∈ s.orm.table →
      DueForAdoption o s.now → o.body = .relay g v restore → s.standing g = x →
      til = (if v = .shed then restore.map (fun m => min (o.effective.getD s.now + m * 60) 4294967295) else none) →
      ((∃ y ∈ x.relay, Newer y.2 o.tag) → exec (.adoption o.tag) s = .next (withMark s o.tag .passed).pump)
      ∧ ((∀ y ∈ x.relay, ¬Newer y.2 o.tag) → (∀ r ∈ til, s.now < r) →
        exec (.adoption o.tag) s
          = .next ((withMark (withStanding s g { x with
                relay := some (v, o.tag)
                restoreUntil := til
                changeCount := x.changeCount + 1
                nextRefresh := some (min (s.now + s.params.refreshPeriod) 4294967295) }) o.tag .adopted).post
              (.standing g (.relay v) o.tag .adopted)).pump)
      ∧ ((∀ y ∈ x.relay, ¬Newer y.2 o.tag) → (∃ r ∈ til, r ≤ s.now) →
        exec (.adoption o.tag) s
          = .next (((withMark (withStanding s g { x with
                relay := some (.on, o.tag)
                restoreUntil := none
                changeCount := x.changeCount + 2
                nextRefresh := some (min (s.now + s.params.refreshPeriod) 4294967295) }) o.tag .adopted).post
              (.standing g (.relay v) o.tag .adopted)).post (.standing g (.relay .on) o.tag .restored)).pump))
    ∧ ∀ tag, (∀ o ∈ s.orm.table, o.tag = tag → ¬DueForAdoption o s.now) → exec (.adoption tag) s = .next s.pump

/-- A restore-until that is reached turns the standing relay ON with the same tag. A refresh timer that is reached queues
its group on each phase with a member, posts REFRESH_LATE (in an order that is left open) for each such phase on whose queue
it still stands, and moves next refresh on by one period, or to one period from now. A clock that does not run brings no
check of a timer, so that a group that fired as the clock stopped does not fire again. Otherwise nothing changes. The rows
check one group, and the open order is a free choice (the model's choices, notes/assumptions/3.md and 4.md), and a FREE
transmitter begins after the last notice (27.md). -/
def Obligations.RestoresAndRefreshesFall : Prop :=
  ∀ (s : State) (g : Fin 16) (x : Standing), s.standing g = x →
    (∀ (v : RelayValue) (tag : Tag) (r : Nat), x.relay = some (v, tag) → x.restoreUntil = some r → r ≤ s.now →
      exec (.selfRestore g) s
        = .next ((withStanding s g { x with
              relay := some (.on, tag), restoreUntil := none, changeCount := x.changeCount + 1 }).post
            (.standing g (.relay .on) tag .restored)).pump)
    ∧ ((x.relay = none ∨ ∀ r ∈ x.restoreUntil, s.now < r) → exec (.selfRestore g) s = .next s.pump)
    ∧ ((∀ r ∈ x.nextRefresh, s.now < r) → exec (.refreshTimerFire g) s = .next s.pump)
    ∧ (s.mtb.clock.isSet = false ∨ 4294967295 ≤ s.mtb.clock.seconds → exec (.refreshTimerFire g) s = .next s.pump)
    ∧ ∀ due : Nat, x.nextRefresh = some due → due ≤ s.now → s.mtb.clock.isSet = true → s.mtb.clock.seconds < 4294967295 →
        s.dir.Sound → ∃ u, exec (.refreshTimerFire g) s = .next u.pump ∧ Fires s g due u

/-! ### Crossings and presence -/

/-- An edge less than 8,000 µs after the last accepted crossing changes nothing but that time has run on. On a LOST phase
any other edge is accepted: an in-range interval joins the history and counts toward the return, which the 64th completes,
and any other crossing restarts the count. HC does not move. Edges carry their timebase reading (the model's choice,
notes/assumptions/7.md). -/
def Obligations.CrossingsAreJudged : Prop :=
  ∀ (s : State) (p : Phase) (t : Nat) (m : Mains), s.mains p = m →
    (∀ last, m.lastCrossing = some last → t < last + 8000 →
      exec (.zeroCrossing p t) s = .next { s with mtb := { s.mtb with timebase := max s.mtb.timebase t } }.pump)
    ∧ (∀ last, m.presence = .lost → m.lastCrossing = some last → last + 8000 ≤ t → t ≤ last + 12500 →
        m.returnCount ≠ 63 → exec (.zeroCrossing p t) s = .next (withMains s p (returningMains m last t) t).pump)
    ∧ (∀ last period, m.presence = .lost → m.lastCrossing = some last → last + 8000 ≤ t → t ≤ last + 12500 →
        m.returnCount = 63 → period = (historyWith m.history (t - last)).sum / 16 →
        exec (.zeroCrossing p t) s
          = .next ((withLine (withMains s p { returningMains m last t with presence := .present, period := period } t) p
              { s.line p with causes := { (s.line p).causes with lost := false } }).post (.phase p .present period)).pump)
    ∧ (m.presence = .lost → (m.lastCrossing = none ∨ ∃ last, m.lastCrossing = some last ∧ last + 12500 < t) →
        exec (.zeroCrossing p t) s
          = .next (withMains s p { m with lastCrossing := some t, returnCount := 0 } t).pump)

/-- A crossing accepted on a PRESENT phase adds 1 to HC, and an in-range interval enters the history and sets the period
afresh, whatever the line then does; it takes every frame that waits. With none waiting, the crossing is at once the move of
the slot in progress, if one is due there. On a line without a slot that is blocked, or has no order and no refresh to send,
nothing else changes. A crossing commanded at 25,000 µs is taken before the loss due then, and the phase stays PRESENT (R134
leaves which is first to the commands, notes/assumptions/14.md). (Readings: notes/assumptions/7.md.) -/
def Obligations.CrossingsAreCounted : Prop :=
  ∀ (s : State) (p : Phase) (last t : Nat) (m : Mains), CrossingAt s p last t → m = crossedMains (s.mains p) last t →
    (∃ u, exec (.zeroCrossing p t) s = .next u ∧ u.mtb = (withMains s p m t).mtb ∧ (u.line p).waiting = [])
    ∧ ((s.line p).waiting = [] →
      ((s.line p).segment = .guard → exec (.zeroCrossing p t) s = exec (.guardEnd p) (withMains s p m t))
      ∧ ((s.line p).segment = .send → exec (.zeroCrossing p t) s = exec (.sendComplete p) (withMains s p m t))
      ∧ ((s.line p).segment = .relay → exec (.zeroCrossing p t) s = exec (.relayEnd p) (withMains s p m t))
      ∧ ((s.line p).segment = .listen → exec (.zeroCrossing p t) s = exec (.slotPlannedEnd p) (withMains s p m t))
      ∧ ((s.line p).segment = .none → (s.line p).staged = none →
          ((s.line p).causes ≠ ⟨false, false, false, false⟩ ∨ (s.orm.table = [] ∧ s.queue p = [])) →
          exec (.zeroCrossing p t) s = .next (withMains s p m t).pump))

/-- At an idle crossing with the staged buffer empty, selection names work by R73 and R74 and it is composed and staged for
the next crossing: an urgent head of the refresh queue, otherwise the eligible order with a further step that is first by
priority, service and admission, otherwise the head of the queue. A named order takes service; a step that needs no slot
(the close of a sweep, a query settled VACANT) is settled first and selection taken again. A blocked line names nothing.
Where a staged frame has been discarded before its gap, the crossing is an idle one too, at k = 1 (the model's choice,
notes/assumptions/30.md). -/
def Obligations.IdleLineStagesAFrame : Prop :=
  ∀ (s : State) (p : Phase) (last t : Nat), CrossingAt s p last t → (s.line p).segment = .none →
    (s.line p).waiting = [] → (s.line p).staged = none → s.orm.Distinct → s.dir.Sound →
    ∃ w, exec (.zeroCrossing p t) s = .next w.pump
      ∧ IdleFrom (withMains s p (crossedMains (s.mains p) last t) t) p w

/-- At the planned start of a frame staged at an idle crossing, the frame begins its slot if selection still names its work
at its step and, for a refresh, its group's standing record has not changed; otherwise it is discarded, and what selection
names is composed afresh at that crossing and begins there. The slot of an order sets slot in flight, moves the cursor to
the member it is for, and fixes the visit's allowance at its first attempt. On a blocked line the frame is discarded and
nothing begins. -/
def Obligations.StagedFrameBegins : Prop :=
  ∀ (s : State) (p : Phase) (last t : Nat) (m : Mains) (f : Frame), CrossingAt s p last t →
    m = crossedMains (s.mains p) last t → (s.line p).segment = .none → (s.line p).onLine = none →
    (s.line p).waiting = [] → (s.line p).holdPending = false → (s.line p).staged = some f → f.plannedStart = m.hc →
    s.orm.Distinct → s.dir.Sound →
    (∃ w, exec (.zeroCrossing p t) s = .next w.pump ∧ GapFrom (withMains s p m t) p none w)
    ∧ ((s.line p).causes ≠ ⟨false, false, false, false⟩ →
        exec (.zeroCrossing p t) s = .next (withLine (withMains s p m t) p { s.line p with staged := none }).pump)

/-- The loss of a PRESENT phase empties its history and return count, keeps its HC and period, and enters LOST: the staged
frame goes, what waits or is in reception is discarded, and a slot in progress is aborted, which clears its order's slot in
flight, leaves its progress as it stood before the slot, also where the slot's start moved the cursor
(notes/assumptions/25.md), and counts nothing else. A LOST phase has no more to lose. An edge after the 25,000 µs have run
out is judged after the loss. PHASE_RETURN completes a return whose count stands at 64, and otherwise changes nothing. That
a row runs time on to its moment, that an edge past it takes the loss first, the order of the notices, and when a FREE
transmitter begins them are the model's choices (notes/assumptions/7.md, 12.md and 27.md). -/
def Obligations.PhasesAreLostAndReturn : Prop :=
  ∀ (s : State) (p : Phase) (m : Mains) (l : Line), s.mains p = m → s.line p = l →
    (m.presence = .lost → exec (.phaseLost p) s = .next s.pump)
    ∧ (∀ last, m.presence = .present → m.lastCrossing = some last → l.segment = .none →
        exec (.phaseLost p) s
          = .next ((withLine (withMains s p { m with presence := .lost, history := [], returnCount := 0 } (last + 25000)) p
              { l with causes := { l.causes with lost := true }, waiting := [], cuts := l.cuts + 1, staged := none }).post
                (.phase p .lost m.period)).pump)
    ∧ (∀ last, m.presence = .present → m.lastCrossing = some last → l.segment ≠ .none → s.orm.Distinct →
        exec (.phaseLost p) s
          = .next ((State.postAll
              (withLine (withMains
                  (withTable s (s.orm.table.map fun o => if l.slotOrder = some o.tag then slotAborted l o p s.now else o))
                  p { m with presence := .lost, history := [], returnCount := 0 } (last + 25000)) p
                (abortedLine { l with causes := { l.causes with lost := true }, waiting := [], cuts := l.cuts + 1 }))
              (closingNotices s p)).post (.phase p .lost m.period)).pump)
    ∧ (∀ last t u, m.presence = .present → m.lastCrossing = some last → last + 25000 < t → exec (.phaseLost p) s = .next u →
        exec (.zeroCrossing p t) s = exec (.zeroCrossing p t) u)
    ∧ (m.presence = .lost → m.returnCount = 64 →
        exec (.phaseReturn p) s
          = .next ((withLine (withMains s p { m with presence := .present, period := m.history.sum / 16 } 0) p
              { l with causes := { l.causes with lost := false } }).post (.phase p .present (m.history.sum / 16))).pump)
    ∧ (m.presence = .present ∨ m.returnCount ≠ 64 → exec (.phaseReturn p) s = .next s.pump)

/-- An assertion of QUIET_IN makes the conditioned state ASSERTED: QUIET enters every phase, slots in GUARD or SEND are
aborted, and those in RELAY or LISTEN run on. An abort clears its order's slot in flight, leaves its progress as before the
slot, and counts nothing else; a CLOSING order with no other slot in flight ends with it. A release starts the 1 s timer, a
new assertion stops it, and when it runs out QUIET leaves every phase; an assertion after that moment finds the release
taken. Readings, the moment of the timeout and that release are the model's choice (notes/assumptions/7.md), and so are the
order of the notices (12.md; of several aborts, left open, 3.md), when a FREE transmitter begins them (27.md) and that a
cursor moved by the slot's start goes back too (25.md). -/
def Obligations.QuietIsConditioned : Prop :=
  ∀ (s : State) (t : Nat),
    (s.mtb.quiet = false → s.mtb.releaseEnd = none → s.orm.Distinct → ∃ (ends : List Notice) (n : Nat),
      ends.Perm (s.orm.table.flatMap fun o => endNotices o (quietedOrder s o))
      ∧ exec (.quietAssert t) s
        = .next ((State.postAll { s with
            orm := { s.orm with table := s.orm.table.map (quietedOrder s) }
            lines := s.lines.map quietedLine
            mtb := { s.mtb with timebase := max s.mtb.timebase t, quietIn := true, quiet := true }
            picks := n } ends).post (.quiet true)).pump)
    ∧ (∀ e u, s.mtb.releaseEnd = some e → e < t → exec .quietReleaseTimeout s = .next u →
        exec (.quietAssert t) s = exec (.quietAssert t) u)
    ∧ (s.mtb.quiet = true → (∀ e ∈ s.mtb.releaseEnd, t ≤ e) →
        exec (.quietAssert t) s = .next { s with
          mtb := { s.mtb with timebase := max s.mtb.timebase t, quietIn := true, releaseEnd := none } }.pump)
    ∧ (s.mtb.quiet = true → s.mtb.releaseEnd = none →
        exec (.quietInputRelease t) s = .next { s with
          mtb := { s.mtb with timebase := max s.mtb.timebase t, quietIn := false, releaseEnd := some (t + 1000000) } }.pump)
    ∧ (s.mtb.quiet = true → s.mtb.releaseEnd ≠ none →
        exec (.quietInputRelease t) s = .next { s with
          mtb := { s.mtb with timebase := max s.mtb.timebase t, quietIn := false } }.pump)
    ∧ (s.mtb.quiet = false →
        exec (.quietInputRelease t) s = .next { s with
          mtb := { s.mtb with timebase := max s.mtb.timebase t, quietIn := false, releaseEnd := none } }.pump)
    ∧ (∀ e, s.mtb.releaseEnd = some e →
        exec .quietReleaseTimeout s
          = .next (({ s with
                mtb := { s.mtb with timebase := max s.mtb.timebase e, quiet := false, releaseEnd := none }
                lines := s.lines.map fun (l : Line) => { l with causes := { l.causes with quiet := false } } } : State).post
              (.quiet false)).pump)
    ∧ (s.mtb.releaseEnd = none → exec .quietReleaseTimeout s = .next s.pump)

/-! ### Slots -/

/-- The segments of a slot move at the crossings their lengths give: GUARD ends at s + G with the transmit enable asserted;
SEND ends at s + G + C with it released and the frame counted as sent, an addressed slot going to RELAY, or with no hop to
LISTEN; RELAY ends at s + G + C + h(C + 1). LISTEN ends at the planned end. At any other crossing of its segment, and in any
other segment, a row changes nothing. The beginning of SEND of a broadcast slot, and of LISTEN of an addressed one, is the
staging point: what selection names on the progress predicted for the slot's planned end is composed and staged for that
crossing. That a row acts only on a move that stands due is the model's choice (notes/assumptions/4.md). -/
def Obligations.SegmentsMove : Prop :=
  ∀ (s : State) (p : Phase) (l : Line), s.line p = l →
    (∀ ol, l.onLine = some ol → l.segment = .guard → AtOffset s p ol ol.frame.guard → ol.frame.replyLen ≠ none →
      exec (.guardEnd p) s = .next (withLine s p { l with segment := .send, txEnable := true }).pump)
    ∧ (∀ ol, l.onLine = some ol → l.segment = .guard → AtOffset s p ol ol.frame.guard → ol.frame.replyLen = none →
      s.orm.Distinct → s.dir.Sound →
      ∃ w, exec (.guardEnd p) s = .next w.pump
        ∧ StagingFrom (withLine s p { l with segment := .send, txEnable := true }) p ol.frame ol.frame.carrier w)
    ∧ (l.segment ≠ .guard → exec (.guardEnd p) s = .next s.pump)
    ∧ (∀ ol, l.onLine = some ol → l.segment = .guard → ¬AtOffset s p ol ol.frame.guard →
      exec (.guardEnd p) s = .next s.pump)
    ∧ (∀ ol, l.onLine = some ol → l.segment = .send → AtOffset s p ol (ol.frame.guard + ol.frame.carrier) →
      ol.frame.replyLen ≠ none → 0 < ol.frame.hops →
      exec (.sendComplete p) s = .next (withLine s p { l with
        segment := .relay
        txEnable := false
        stats := { l.stats with framesSent := countUp l.stats.framesSent } }).pump)
    ∧ (∀ ol rr margin, l.onLine = some ol → l.segment = .send → AtOffset s p ol (ol.frame.guard + ol.frame.carrier) →
      ol.frame.replyLen = some rr → ol.frame.marginLen = some margin → ol.frame.hops = 0 → s.orm.Distinct → s.dir.Sound →
      ∃ w, exec (.sendComplete p) s = .next w.pump
        ∧ StagingFrom (withLine s p { l with
            segment := .listen
            txEnable := false
            stats := { l.stats with framesSent := countUp l.stats.framesSent } }) p ol.frame (1 + rr + margin) w)
    ∧ (l.segment ≠ .send → exec (.sendComplete p) s = .next s.pump)
    ∧ (∀ ol, l.onLine = some ol → l.segment = .send → ¬AtOffset s p ol (ol.frame.guard + ol.frame.carrier) →
      exec (.sendComplete p) s = .next s.pump)
    ∧ (∀ ol rr margin, l.onLine = some ol → l.segment = .relay →
      AtOffset s p ol (ol.frame.guard + ol.frame.carrier + ol.frame.hops * (ol.frame.carrier + 1)) →
      ol.frame.replyLen = some rr → ol.frame.marginLen = some margin → s.orm.Distinct → s.dir.Sound →
      ∃ w, exec (.relayEnd p) s = .next w.pump
        ∧ StagingFrom (withLine s p { l with segment := .listen }) p ol.frame
            (1 + rr + ol.frame.hops * (rr + 1) + margin) w)
    ∧ (l.segment ≠ .relay → exec (.relayEnd p) s = .next s.pump)
    ∧ (∀ ol, l.onLine = some ol → l.segment = .relay →
      ¬AtOffset s p ol (ol.frame.guard + ol.frame.carrier + ol.frame.hops * (ol.frame.carrier + 1)) →
      exec (.relayEnd p) s = .next s.pump)
    ∧ (l.segment ≠ .listen → exec (.slotPlannedEnd p) s = .next s.pump)
    ∧ (∀ ol, l.onLine = some ol → l.segment = .listen → ¬AtOffset s p ol ol.frame.planned →
      exec (.slotPlannedEnd p) s = .next s.pump)

/-- The SEND of a broadcast slot completes at its gap: the frame counts as sent, a served refresh leaves its queue, and a
repeat is counted. The last repeat of an order brings the adoption check of every record in admission order, each as the
ADOPTION row makes it, which leaves no candidate due, and then finishes a SERVING or PAUSED phase with policy NONE, or
begins its sweep with policy ALL: expected, the first member, or the close at once. With its last involved phase finished
the order is COMPLETE, or PARTIAL with a miss, and ORDER_END is posted. Selection and the next slot follow at the same
crossing. The order of the notices, and that a FREE transmitter begins after the last, are the model's choices
(notes/assumptions/12.md and 27.md). -/
def Obligations.BroadcastSlotEnds : Prop :=
  ∀ (s : State) (p : Phase) (l l' : Line) (ol : OnLine), s.line p = l → l.onLine = some ol → l.segment = .send →
    AtOffset s p ol (ol.frame.guard + ol.frame.carrier) → ol.frame.replyLen = none → s.orm.Distinct → s.dir.Sound →
    l' = endedLine l { l.stats with framesSent := countUp l.stats.framesSent } →
    (∀ g, ol.frame.work = .refresh g →
      ∃ w, exec (.sendComplete p) s = .next w.pump
        ∧ GapFrom (withLine (withQueue s p ((s.queue p).filter fun e => decide (e.group ≠ g))) p l') p none w)
    ∧ (∀ (o : Order) (n : Nat) (v : State), ol.frame.work = .order o.tag → ol.frame.step = .repeatNo n →
      o ∈ s.orm.table → o.body.group ≠ none → (o.progress.get p).repeatsSent + 1 < o.repeatCount →
      v = accounted s p l' o.tag (fun x => repeated x p) (endNotices o (slotCleared (repeated o p) p s.now)) →
      ∃ w, exec (.sendComplete p) s = .next w.pump ∧ GapFrom v p none w ∧ CountsStand v w p o.tag)
    ∧ ∀ (o : Order) (n i : Nat) (g : Fin 16) (c : Cursor), ol.frame.work = .order o.tag → ol.frame.step = .repeatNo n →
      o ∈ s.orm.table → s.orm.Sound → o.body.group = some g → (o.progress.get p).repeatsSent + 1 = o.repeatCount →
      (o.progress.get p).cursor = .at i → CursorFrom s g p o.direction i c →
      ∃ a v w, AdoptionsFrom (withTable s (s.orm.table.map fun x => if x.tag = o.tag then repeated x p else x)) a
        ∧ v = accounted a p l' o.tag (fun x => broadcastDone s x p g c)
            (endNotices o (slotCleared (broadcastDone s (repeated o p) p g c) p s.now))
        ∧ exec (.sendComplete p) s = .next w.pump ∧ GapFrom v p none w ∧ CountsStand v w p o.tag
        ∧ v.orm.table.map unmarked = (s.orm.table.map fun x =>
            unmarked (if x.tag = o.tag then slotCleared (broadcastDone s (repeated x p) p g c) p s.now else x))
        ∧ (∀ x ∈ v.orm.table, ¬DueForAdoption x s.now)
        ∧ ((∀ x ∈ s.orm.table, ¬DueForAdoption (if x.tag = o.tag then repeated x p else x) s.now) → v.rfs = s.rfs)
        ∧ (∃ adoptions, (∀ x ∈ adoptions, ∃ k value tag cause, x = .standing k value tag cause)
            ∧ v.rlc = (s.postAll
                (adoptions ++ endNotices o (slotCleared (broadcastDone s (repeated o p) p g c) p s.now))).rlc)
        ∧ v.lines = (withLine s p l').lines ∧ v.rfs.queues = s.rfs.queues ∧ v.dir = s.dir ∧ v.mtb = s.mtb ∧ v.scs = s.scs
        ∧ v.params = s.params

/-- A frame taken at a crossing is judged by the first check of R89 that applies: a bad CRC, a foreign site code, the part's
own kinds, and a frame that is no reply awaited there are counted, or ignored, and change nothing else. On a LOST phase no
frame is taken, nor one whose reception a loss or a RESET has discarded. A frame that completes between crossings waits for
the next one, which takes it: a frame that is not awaited is counted before the crossing's own work, an awaited one ends its
slot there, and of two awaited ones the first judged does and the other is stray. The two rows' moments, and how a discarded
reception is told apart, are the model's reading (notes/assumptions/8.md), the frames' place before the segment's move too
(13.md). -/
def Obligations.FramesAreJudged : Prop :=
  ∀ (s : State) (p : Phase) (f : RxFrame) (l : Line) (kind : Nat), s.line p = l → kind = (byteAt f.bytes 0).toNat / 16 →
    ((s.mains p).presence = .lost ∨ f.cuts ≠ l.cuts →
      exec (.lineFrameTaken p f) s = .next s.pump ∧ exec (.frontEndFrameComplete p f) s = .next s.pump)
    ∧ ((s.mains p).presence = .present → f.cuts = l.cuts →
      exec (.frontEndFrameComplete p f) s = .next (withLine s p { l with waiting := l.waiting ++ [f] }).pump
      ∧ (f.crcGood = false → exec (.lineFrameTaken p f) s
          = .next (withLine s p { l with stats := { l.stats with crcErrors := countUp l.stats.crcErrors } }).pump)
      ∧ (f.crcGood = true → (s.scs.state ≠ .written ∨ word24 f.bytes 1 ≠ s.scs.code) →
        exec (.lineFrameTaken p f) s
          = .next (withLine s p { l with stats := { l.stats with foreign := countUp l.stats.foreign } }).pump)
      ∧ (f.crcGood = true → s.scs.state = .written → word24 f.bytes 1 = s.scs.code → 1 ≤ kind → kind ≤ 6 →
        exec (.lineFrameTaken p f) s = .next s.pump)
      ∧ (f.crcGood = true → s.scs.state = .written → word24 f.bytes 1 = s.scs.code → (kind = 0 ∨ 6 < kind) →
        (∀ ol, ¬Awaited s p ol f) →
        exec (.lineFrameTaken p f) s
          = .next (withLine s p { l with stats := { l.stats with stray := countUp l.stats.stray } }).pump))
    ∧ ∀ (last t : Nat) (u : State), CrossingAt s p last t →
      u = withMains (withLine s p { l with waiting := [] }) p (crossedMains (s.mains p) last t) t →
      (∀ stats : Stats, l.waiting = [f] → (∀ ol, ¬Awaited u p ol f) →
          exec (.lineFrameTaken p f) u = .next (withLine u p { l with waiting := [], stats := stats }).pump →
        exec (.zeroCrossing p t) s = exec (.zeroCrossing p t) (withLine s p { l with waiting := [], stats := stats }))
      ∧ (∀ ol, l.waiting = [f] → Awaited u p ol f → s.params.Sound → (∀ x ∈ l.staged, x.guard ≠ 0) →
        exec (.zeroCrossing p t) s = exec (.lineFrameTaken p f) u)
      ∧ ∀ ol f', l.waiting = [f, f'] → Awaited u p ol f → Awaited u p ol f' →
        ∃ w, exec (.zeroCrossing p t) s = .next w
          ∧ (w.line p).stats.repliesAccepted = countUp l.stats.repliesAccepted
          ∧ (w.line p).stats.stray = countUp l.stats.stray
          ∧ ((w.line p).stats.quality = some f.quality ∨ (w.line p).stats.quality = some f'.quality)

/-- An attempt ends at its planned end without a reply, or at the crossing of the reply it accepts, and is accounted: the
judgement of the reply by its tag and status, or of the silence, determines an outcome or leaves the visit going on; an
outcome adds to its tally, records its miss, and moves the cursor to the next member, where END finishes a SERVING or PAUSED
phase and with its last one the order. An accepted reply sets the house's miss count to 0 and its margin, and a NO_REPLY
outcome raises its miss count; a changed health posts HEALTH, and a final state ORDER_END. Selection and the next slot
follow at the same crossing, where after an accepted reply no staged frame of the same order stands
(notes/assumptions/26.md). The order of the notices, and that a FREE transmitter begins after the last, are the model's
choices (12.md and 27.md). -/
def Obligations.AttemptsAreAccounted : Prop :=
  ∀ (s : State) (p : Phase) (l : Line) (ol : OnLine) (o : Order) (g : Fin 16) (i n allowance : Nat) (h : House)
      (c : Cursor) (last : Bool),
    s.line p = l → l.onLine = some ol → l.segment = .listen → s.orm.Distinct → o ∈ s.orm.table →
    ol.frame.work = .order o.tag → ol.frame.step = .attempt i n → ol.allowance = some allowance → o.body.group = some g →
    s.house i = some h → s.dir.Sound → CursorBeyond s g p o.direction i c →
    last = decide (allowance ≤ (o.progress.get p).attempts + 1) →
    (∀ v, AtOffset s p ol ol.frame.planned →
      v = (if last then
          accounted (withHouse s i (unheard h)) p (endedLine l l.stats) o.tag
            (fun x => attempted s x p i c (some (.miss .noReply)))
            (healthNotices i h (unheard h)
              ++ endNotices o (slotCleared (attempted s o p i c (some (.miss .noReply))) p s.now))
        else
          accounted s p (endedLine l l.stats) o.tag (fun x => attempted s x p i c none)
            (endNotices o (slotCleared (attempted s o p i c none) p s.now))) →
      ∃ w, exec (.slotPlannedEnd p) s = .next w.pump ∧ GapFrom v p none w ∧ CountsStand v w p o.tag)
    ∧ ∀ (f : RxFrame) (r : Option Result) (house : House) (v : State), Awaited s p ol f →
      (byteAt f.bytes 0).toNat / 16 = 9 →
      r = attemptResult o.tag last (some (byteAt f.bytes 7, word16 f.bytes 8)) →
      house = heard h ((byteAt f.bytes 10).toNat % 64) →
      v = accounted (withHouse s i house) p
          (endedLine l { l.stats with repliesAccepted := countUp l.stats.repliesAccepted, quality := some f.quality }) o.tag
          (fun x => attempted s x p i c r)
          (healthNotices i h house ++ endNotices o (slotCleared (attempted s o p i c r) p s.now)) →
      ∃ w, exec (.lineFrameTaken p f) s = .next w.pump ∧ GapFrom v p (some (.order o.tag)) w ∧ CountsStand v w p o.tag

/-- A query is answered by its first accepted LONG reply, which fills the query result if it is absent and confirms the
target; its last allowed attempt that ends in silence is NO_REPLY, with its miss, and raises the house's miss count; an
earlier one leaves the visit going on. An outcome puts the cursor at END and finishes a SERVING or PAUSED phase, and with it
the order. Selection and the next slot follow at the same crossing, where after an accepted reply no staged frame of the
same order stands (notes/assumptions/26.md). The order of the notices, and that a FREE transmitter begins after the last,
are the model's choices (12.md and 27.md). -/
def Obligations.QueriesAreAccounted : Prop :=
  ∀ (s : State) (p : Phase) (l : Line) (ol : OnLine) (o : Order) (i n allowance : Nat) (h : House),
    s.line p = l → l.onLine = some ol → l.segment = .listen → s.orm.Distinct → o ∈ s.orm.table →
    ol.frame.work = .order o.tag → ol.frame.step = .query i n → ol.allowance = some allowance → o.body = .query i →
    s.house i = some h → s.dir.Sound →
    (∀ (f : RxFrame) (result : QueryResult) (answer : Order → Order) (house : House) (v : State), Awaited s p ol f →
      (byteAt f.bytes 0).toNat / 16 = 10 →
      result =
        ⟨if (byteAt f.bytes 7).toNat ≤ 7 then some (byteAt f.bytes 7).toNat else none,
         if byteAt f.bytes 8 = 0 then some .shed else if byteAt f.bytes 8 = 1 then some .on else none,
         word16 f.bytes 9, word16 f.bytes 11, word16 f.bytes 13, decide (128 ≤ (byteAt f.bytes 15).toNat),
         (byteAt f.bytes 15).toNat % 64⟩ →
      answer = (fun x => outcomeOf s { x with result := if x.result = none then some result else x.result } p i .atEnd
        .confirmed) →
      house = heard h ((byteAt f.bytes 15).toNat % 64) →
      v = accounted (withHouse s i house) p
          (endedLine l { l.stats with repliesAccepted := countUp l.stats.repliesAccepted, quality := some f.quality }) o.tag
          answer (healthNotices i h house ++ endNotices o (slotCleared (answer o) p s.now)) →
      ∃ w, exec (.lineFrameTaken p f) s = .next w.pump ∧ GapFrom v p (some (.order o.tag)) w ∧ CountsStand v w p o.tag)
    ∧ (∀ v, AtOffset s p ol ol.frame.planned → allowance ≤ (o.progress.get p).attempts + 1 →
      v = accounted (withHouse s i (unheard h)) p (endedLine l l.stats) o.tag
          (fun x => outcomeOf s x p i .atEnd (.miss .noReply))
          (healthNotices i h (unheard h)
            ++ endNotices o (slotCleared (outcomeOf s o p i .atEnd (.miss .noReply)) p s.now)) →
      ∃ w, exec (.slotPlannedEnd p) s = .next w.pump ∧ GapFrom v p none w ∧ CountsStand v w p o.tag)
    ∧ ∀ v, AtOffset s p ol ol.frame.planned → (o.progress.get p).attempts + 1 < allowance →
      v = accounted s p (endedLine l l.stats) o.tag (fun x => attempted s x p i .atEnd none)
          (endNotices o (slotCleared (attempted s o p i .atEnd none) p s.now)) →
      ∃ w, exec (.slotPlannedEnd p) s = .next w.pump ∧ GapFrom v p none w
        ∧ (h.phase = p → CountsStand v w p o.tag)

/-- The phases are independent: an event of one phase changes nothing of another phase's line controller, mains items,
refresh queue and phase progress, nothing of the clock, the QUIET state, the store and the parameters, and of the directory
only miss counts, healths and margins. -/
def Obligations.PhasesAreIndependent : Prop :=
  ∀ (c : Instr) (p q : Phase) (s t : State), EventOn c p → q ≠ p → exec c s = .next t →
    t.line q = s.line q ∧ t.mains q = s.mains q ∧ t.queue q = s.queue q
    ∧ t.orm.table.map (fun o => (o.tag, o.progress.get q)) = s.orm.table.map (fun o => (o.tag, o.progress.get q))
    ∧ t.orm.tagCounter = s.orm.tagCounter ∧ t.orm.seqCounter = s.orm.seqCounter ∧ t.orm.floor = s.orm.floor
    ∧ t.mtb.clock = s.mtb.clock ∧ t.mtb.quiet = s.mtb.quiet ∧ t.mtb.quietIn = s.mtb.quietIn
    ∧ t.mtb.releaseEnd = s.mtb.releaseEnd ∧ t.scs = s.scs ∧ t.params = s.params ∧ t.pending = s.pending
    ∧ t.dir.freezes = s.dir.freezes
    ∧ t.dir.houses.map (fun e => (e.1, e.2.address, e.2.phase, e.2.groups, e.2.route, e.2.refCount))
        = s.dir.houses.map (fun e => (e.1, e.2.address, e.2.phase, e.2.groups, e.2.route, e.2.refCount))
    ∧ t.rlc.receiver = s.rlc.receiver ∧ t.rlc.processing = s.rlc.processing ∧ t.rlc.holding = s.rlc.holding

/-! ### Frames, fields and comparisons -/

/-- A frame carries the delay field that its composition gives: the tenths of a second from the predicted end of its last
outbound transmission, on the phase's period as it stands, to the order's effective time, and 0 once the clock has reached
that time, whatever it reads since (R66, R67; the reading of the two together is the model's, notes/assumptions/24.md). -/
def Obligations.FramesCarryTheirDelay : Prop :=
  ∀ (s : State) (p : Phase) (k n i : Nat) (o : Order) (g : Fin 16) (hops : List Addr),
    hops = (((s.house i).map (·.route)).getD []).map (fun j => ((s.house j).map (·.address)).getD 0) →
    (∀ b, o.body = .band g b →
      (∃ d, (s.orderFrame p k o (.repeatNo n)).content = .groupBand s.scs.code g o.tag b d
        ∧ OrderDelay s o (s.mains p).period (k + s.params.guard + 4) d)
      ∧ ∃ d, (s.orderFrame p k o (.attempt i n)).content
            = .directBand s.scs.code (((s.house i).map (·.address)).getD 0) hops o.tag b d n o.retryLimit
          ∧ OrderDelay s o (s.mains p).period
              (k + s.params.guard + (18 + 3 * hops.length) / 3 + hops.length * ((18 + 3 * hops.length) / 3 + 1)) d)
    ∧ ∀ v restore, o.body = .relay g v restore →
      (∃ d, (s.orderFrame p k o (.repeatNo n)).content = .groupRelay s.scs.code g o.tag v (restore.getD 0) d
        ∧ OrderDelay s o (s.mains p).period (k + s.params.guard + 5) d)
      ∧ ∃ d, (s.orderFrame p k o (.attempt i n)).content
            = .directRelay s.scs.code (((s.house i).map (·.address)).getD 0) hops o.tag v (restore.getD 0) d n o.retryLimit
          ∧ OrderDelay s o (s.mains p).period
              (k + s.params.guard + (20 + 3 * hops.length) / 3 + hops.length * ((20 + 3 * hops.length) / 3 + 1)) d

/-- An outbound frame's bytes: its kind byte holds the kind, the hop count and relay position 0; its length is the one its
kind byte gives; its carrier takes three bytes to the half-cycle, the last one begun counting whole; its last two bytes are
the CRC of the others. Each field stands at its offset of Tables 11-10 and 11-11, most significant byte first. -/
def Obligations.FrameBytesFollowTheirKind : Prop :=
  ∀ (c : Content) (l : List Byte), c.hops.length ≤ 2 → l = c.bytes →
    l.length = c.size ∧ frameLength (byteAt l 0) = c.size
    ∧ (byteAt l 0).toNat % 4 = 0 ∧ (byteAt l 0).toNat / 4 % 4 = c.hops.length
    ∧ ((byteAt l 0).toNat / 16 = 1 ∧ c.size = 12 ∨ (byteAt l 0).toNat / 16 = 2 ∧ c.size = 14
      ∨ (byteAt l 0).toNat / 16 = 3 ∧ c.size = 15
      ∨ (byteAt l 0).toNat / 16 = 4 ∧ c.size = 16 + 3 * c.hops.length
      ∨ (byteAt l 0).toNat / 16 = 5 ∧ c.size = 18 + 3 * c.hops.length
      ∨ (byteAt l 0).toNat / 16 = 6 ∧ c.size = 10 + 3 * c.hops.length)
    ∧ c.size ≤ 3 * carrierOf c.size ∧ 3 * carrierOf c.size < c.size + 3
    ∧ number l (c.size - 2) 2 = (crc16 (l.take (c.size - 2))).toNat
    ∧ (∀ site g tag band d, c = .groupBand site g tag band d →
        number l 0 1 = 0x10 ∧ number l 1 3 = site.toNat ∧ number l 4 1 = g.val ∧ number l 5 2 = tag.toNat
        ∧ number l 7 1 = band % 256 ∧ number l 8 2 = d % 65536)
    ∧ (∀ site g tag v minutes d, c = .groupRelay site g tag v minutes d →
        number l 0 1 = 0x20 ∧ number l 1 3 = site.toNat ∧ number l 4 1 = g.val ∧ number l 5 2 = tag.toNat
        ∧ number l 7 1 = (if v = .on then 1 else 0) ∧ number l 8 2 = minutes % 65536 ∧ number l 10 2 = d % 65536)
    ∧ (∀ site g band relay minutes, c = .refresh site g band relay minutes →
        number l 0 1 = 0x30 ∧ number l 1 3 = site.toNat ∧ number l 4 1 = g.val
        ∧ (∀ b tag, band = some (b, tag) → number l 5 1 = b % 256 ∧ number l 6 2 = tag.toNat)
        ∧ (band = none → number l 5 1 = 0xFF ∧ number l 6 2 = 0)
        ∧ (∀ v tag, relay = some (v, tag) → number l 8 1 = (if v = .on then 1 else 0) ∧ number l 9 2 = tag.toNat)
        ∧ (relay = none → number l 8 1 = 0xFF ∧ number l 9 2 = 0)
        ∧ number l 11 2 = minutes % 65536)
    ∧ (∀ site target hops tag band d n limit k, c = .directBand site target hops tag band d n limit → k = 3 * hops.length →
        number l 0 1 = 0x40 + 4 * hops.length ∧ number l 1 3 = site.toNat ∧ number l 4 3 = target.toNat
        ∧ (∀ j a, hops[j]? = some a → number l (7 + 3 * j) 3 = a.toNat)
        ∧ number l (7 + k) 2 = tag.toNat ∧ number l (9 + k) 1 = band % 256 ∧ number l (10 + k) 2 = d % 65536
        ∧ number l (12 + k) 1 = n % 256 ∧ number l (13 + k) 1 = limit % 256)
    ∧ (∀ site target hops tag v minutes d n limit k, c = .directRelay site target hops tag v minutes d n limit →
        k = 3 * hops.length →
        number l 0 1 = 0x50 + 4 * hops.length ∧ number l 1 3 = site.toNat ∧ number l 4 3 = target.toNat
        ∧ (∀ j a, hops[j]? = some a → number l (7 + 3 * j) 3 = a.toNat)
        ∧ number l (7 + k) 2 = tag.toNat ∧ number l (9 + k) 1 = (if v = .on then 1 else 0)
        ∧ number l (10 + k) 2 = minutes % 65536 ∧ number l (12 + k) 2 = d % 65536
        ∧ number l (14 + k) 1 = n % 256 ∧ number l (15 + k) 1 = limit % 256)
    ∧ ∀ site target hops tagLow, c = .query site target hops tagLow →
        number l 0 1 = 0x60 + 4 * hops.length ∧ number l 1 3 = site.toNat ∧ number l 4 3 = target.toNat
        ∧ (∀ j a, hops[j]? = some a → number l (7 + 3 * j) 3 = a.toNat)
        ∧ number l (7 + 3 * hops.length) 1 = tagLow.toNat

/-- A notice posted while the queue holds fewer than 16 joins its end; one posted while it holds 16 is dropped, no queued
one is, and the notice-lost flag is set. A record the part sends stands in the envelope of Table 11-2, a reply's body with
its code first and a notice with the type of Table 8-2 and the fields of Table 11-8, each most significant byte first; the
codes are those of Tables 11-1 and 11-3. -/
def Obligations.NoticesQueue : Prop :=
  (∀ (s : State) (n : Notice),
    (s.rlc.notices.length < 16 → s.post n = { s with rlc := { s.rlc with notices := s.rlc.notices ++ [n] } })
    ∧ (16 ≤ s.rlc.notices.length → s.post n = { s with rlc := { s.rlc with noticeLost := true } }))
  ∧ (∀ (x : Outgoing) (l body : List Byte), l = x.wire → body = x.body → body.length ≤ 249 →
    l.length = body.length + 5 ∧ number l 0 1 = 0xC3 ∧ number l 1 1 = body.length + 1 ∧ number l 2 1 = x.typeByte.toNat
    ∧ (l.drop 3).take body.length = body
    ∧ number l (body.length + 3) 2 = (crc16 ((l.drop 1).take (body.length + 2))).toNat
    ∧ (∀ r, x = .reply r → x.typeByte = r.type ∧ body = r.code.byte :: r.rest)
    ∧ (∀ n, x = .notice n → x.typeByte = n.typeByte ∧ body = n.body))
  ∧ (∀ (n : Notice) (l : List Byte), l = n.body →
    (∀ cause, n = .started cause → n.typeByte = 0xC0 ∧ l.length = 1 ∧ number l 0 1 = cause.code.toNat)
    ∧ (∀ tag st, n = .orderEnd tag st →
        n.typeByte = 0xC1 ∧ l.length = 3 ∧ number l 0 2 = tag.toNat ∧ number l 2 1 = st.code.toNat)
    ∧ (∀ p pres period, n = .phase p pres period →
        n.typeByte = 0xC2 ∧ l.length = 4 ∧ number l 0 1 = (phaseCode p).toNat ∧ number l 1 1 = pres.code.toNat
        ∧ number l 2 2 = period % 65536)
    ∧ (∀ asserted, n = .quiet asserted →
        n.typeByte = 0xC3 ∧ l.length = 1 ∧ number l 0 1 = if asserted then 1 else 0)
    ∧ (∀ i a h miss, n = .health i a h miss →
        n.typeByte = 0xC4 ∧ l.length = 7 ∧ number l 0 2 = i % 65536 ∧ number l 2 3 = a.toNat
        ∧ number l 5 1 = h.code.toNat ∧ number l 6 1 = miss % 256)
    ∧ (∀ g p, n = .refreshLate g p →
        n.typeByte = 0xC5 ∧ l.length = 2 ∧ number l 0 1 = g.val ∧ number l 1 1 = (phaseCode p).toNat)
    ∧ ∀ g v tag cause, n = .standing g v tag cause →
        n.typeByte = 0xC6 ∧ l.length = 6 ∧ number l 0 1 = g.val ∧ number l 3 2 = tag.toNat ∧ number l 5 1 = cause.code.toNat
        ∧ (∀ b, v = .band b → number l 1 1 = 1 ∧ number l 2 1 = b % 256)
        ∧ ∀ r, v = .relay r → number l 1 1 = 2 ∧ number l 2 1 = r.code.toNat)
  ∧ [phaseCode .a, phaseCode .b, phaseCode .c] = [1, 2, 3]
  ∧ [RelayValue.shed, .on].map RelayValue.code = [0, 1]
  ∧ [Policy.none, .all].map Policy.code = [0, 1] ∧ [Direction.ascending, .descending].map Direction.code = [0, 1]
  ∧ [OrderState.waiting, .running, .closing, .complete, .partly, .expired, .superseded, .cancelled].map OrderState.code
      = [1, 2, 3, 4, 5, 6, 7, 8]
  ∧ [Reason.expired, .superseded, .cancelled].map Reason.code = [1, 2, 3]
  ∧ [MissReason.noReply, .override, .notMember, .rejected, .vacant].map MissReason.code = [1, 2, 3, 4, 5]
  ∧ [Stage.notInvolved, .queued, .serving, .paused, .done, .stopped].map Stage.code = [0, 1, 2, 3, 4, 5]
  ∧ [Health.good, .weak, .silent].map Health.code = [0, 1, 2] ∧ [FreezeMode.soft, .hard].map FreezeMode.code = [0, 1]
  ∧ [StandingCause.adopted, .restored].map StandingCause.code = [1, 2]
  ∧ [StartCause.power, .soft].map StartCause.code = [1, 2] ∧ [Presence.lost, .present].map Presence.code = [0, 1]
  ∧ [StoreState.blank, .written, .fault].map StoreState.code = [0, 1, 2]
  ∧ [Code.ok, .clamped, .badLength, .badType, .badField, .badCrc, .noSite, .clockUnset, .tableFull, .noMembers,
        .expiryPast, .unknownTag, .notFinished, .alreadyFinished, .frozen, .busyEntry, .inUse, .duplicate, .noRoute, .vacant,
        .siteWritten, .siteFault, .notEmpty].map Code.byte
      = [0x00, 0x01, 0x10, 0x11, 0x12, 0x13, 0x20, 0x21, 0x22, 0x23, 0x24, 0x30, 0x31, 0x32, 0x40, 0x41, 0x42, 0x43, 0x44,
        0x45, 0x50, 0x51, 0x52]
  ∧ (∀ b, OrderBody.kindCode b = match b with | .band .. => 1 | .relay .. => 2 | .query .. => 3)

/-! ### Invariants -/

/-- Every step keeps the line controllers and the store sound: a slot has its frame on line, the transmit enable is asserted
exactly in SEND, no GUARD or SEND stands with SITE, LOST or QUIET, those causes stand exactly while their conditions do, and
the store's state is what its cells spell. A store that is not BLANK keeps its state and code until the next power-up. -/
def Obligations.LinesStaySound : Prop :=
  ∀ s t : State, s.LinesSound → step s = .next t →
    t.LinesSound ∧ (s.scs.state ≠ .blank → (∀ quiet touched, s.pending.head? ≠ some (.powerUp quiet touched)) → t.scs = s.scs)

/-- Every step keeps the Mains and Time Block sound, so that every phase's period lies within 8,000 to 12,500 µs, and the
timebase runs back only at a power-up. -/
def Obligations.MainsAndTimeStaySound : Prop :=
  ∀ s t : State, s.mtb.Sound → step s = .next t →
    t.mtb.Sound
      ∧ ((∀ quiet touched, s.pending.head? ≠ some (.powerUp quiet touched)) → s.mtb.timebase ≤ t.mtb.timebase)

/-- Every step keeps the order records sound: at most 32 records of distinct nonzero tags, at most one live record for each
kind and group, at most one order serving each phase, closing reasons and finish times where the state calls for them, and
the misses listed and unlisted equal to the tallies. A live order whose effective time the clock reads or has passed has
noted it, and a note once made stays (the model's note, notes/assumptions/24.md). -/
def Obligations.OrdersStaySound : Prop :=
  ∀ s t : State, s.orm.Sound → s.orm.Distinct → step s = .next t →
    t.orm.Sound ∧ t.orm.Distinct ∧ (s.TimesNoted → t.TimesNoted)
      ∧ ∀ o ∈ s.orm.table, o.reached = true → ∀ o' ∈ t.orm.table, o'.tag = o.tag → o'.reached = true

/-- Every step keeps slot in flight true: it is set in an order's record exactly while the phase's slot serves the order,
and that order stands in the table and is not final. What a slot begins with (its frame, its start, its allowance and its
order's place before it, the model's own item, notes/assumptions/25.md) stands unchanged until it ends. -/
def Obligations.SlotsInFlightStayTrue : Prop :=
  ∀ s t : State, s.LinesSound → s.orm.Sound → s.orm.Distinct → s.SlotsAgree → step s = .next t →
    t.SlotsAgree
      ∧ ∀ p ol ol', (s.line p).onLine = some ol → (t.line p).onLine = some ol' → ol' = ol ∨ ol'.start = (t.mains p).hc

/-- A final order's record changes no more, but for its adoption mark, as long as it is in the table. -/
def Obligations.FinalOrdersStand : Prop :=
  ∀ s t : State, s.LinesSound → s.orm.Sound → s.orm.Distinct → s.SlotsAgree → step s = .next t →
    ∀ o ∈ s.orm.table, o.state.final = true → ∀ o' ∈ t.orm.table, o'.tag = o.tag → unmarked o' = unmarked o

/-- Every step keeps the directory sound: addresses distinct and in range, routes of at most two distinct occupied entries
of the same phase with empty routes, reference counts equal to the routes that name an entry, miss counts within 15 and the
health they give. It keeps the freeze table to at most four ranges in order, and every HARD range until the next power-up.
-/
def Obligations.DirectoryStaysSound : Prop :=
  ∀ s t : State, s.dir.Sound → step s = .next t →
    t.dir.Sound ∧ (s.dir.FreezesSound → t.dir.FreezesSound)
      ∧ ((∀ quiet touched, s.pending.head? ≠ some (.powerUp quiet touched)) →
          (s.dir.freezes.filter fun f => decide (f.mode = .hard)).Sublist t.dir.freezes)

/-- Every step keeps the addressed frames on line and staged in agreement with the directory: target and repeaters hold the
addresses and the route the frame was composed with, since busy entries are not edited. With the parameters in range it
keeps every frame's lengths as Tables 3-1 to 3-3 give them. -/
def Obligations.FramesAgreeWithDirectory : Prop :=
  ∀ s t : State, s.dir.Sound → s.orm.Distinct → s.FramesAgree → step s = .next t →
    t.FramesAgree ∧ (s.params.Sound → s.FramesSized → t.FramesSized)

/-- Every step keeps the standing records and refresh queues sound, and a standing part, once present, stays present until
the next power-up. -/
def Obligations.RefreshStaysSound : Prop :=
  ∀ s t : State, s.RefreshSound → step s = .next t →
    t.RefreshSound
      ∧ ((∀ quiet touched, s.pending.head? ≠ some (.powerUp quiet touched)) → ∀ g,
          ((s.standing g).band ≠ none → (t.standing g).band ≠ none)
            ∧ ((s.standing g).relay ≠ none → (t.standing g).relay ≠ none))

/-- Every step keeps the link controller sound: at most 16 notices, a record held only while a request is in processing, the
reply being sent the one that is owed, a request in HANDLING exactly while the store programs, and every parameter in its
range. -/
def Obligations.LinkAndParametersStaySound : Prop :=
  ∀ s t : State, s.rlc.Sound → s.HandlingAgrees → s.params.Sound → step s = .next t →
    t.rlc.Sound ∧ t.HandlingAgrees ∧ t.params.Sound

/-- Every invariant holds right after reset. -/
def Obligations.ResetIsSound : Prop :=
  State.reset.LinesSound ∧ State.reset.mtb.Sound ∧ State.reset.orm.Sound ∧ State.reset.orm.Distinct
    ∧ State.reset.SlotsAgree ∧ State.reset.dir.Sound ∧ State.reset.dir.FreezesSound ∧ State.reset.FramesAgree
    ∧ State.reset.FramesSized ∧ State.reset.TimesNoted
    ∧ State.reset.RefreshSound ∧ State.reset.rlc.Sound ∧ State.reset.HandlingAgrees ∧ State.reset.params.Sound
end

