-- ==== Sys2Proof/Laws/State.lean ====
section
/-! SUPPORT. One lemma per field per update of the state: what each update leaves as it was. -/

namespace Sys2Proof.Machine

@[simp] theorem State.modLine_pending (s : State) (p : Phase) (f : Line → Line) : (s.modLine p f).pending = s.pending := rfl
@[simp] theorem State.modLine_orm (s : State) (p : Phase) (f : Line → Line) : (s.modLine p f).orm = s.orm := rfl
@[simp] theorem State.modLine_dir (s : State) (p : Phase) (f : Line → Line) : (s.modLine p f).dir = s.dir := rfl
@[simp] theorem State.modLine_rfs (s : State) (p : Phase) (f : Line → Line) : (s.modLine p f).rfs = s.rfs := rfl
@[simp] theorem State.modLine_mtb (s : State) (p : Phase) (f : Line → Line) : (s.modLine p f).mtb = s.mtb := rfl
@[simp] theorem State.modLine_rlc (s : State) (p : Phase) (f : Line → Line) : (s.modLine p f).rlc = s.rlc := rfl
@[simp] theorem State.modLine_scs (s : State) (p : Phase) (f : Line → Line) : (s.modLine p f).scs = s.scs := rfl
@[simp] theorem State.modLine_params (s : State) (p : Phase) (f : Line → Line) : (s.modLine p f).params = s.params := rfl
@[simp] theorem State.modLine_picks (s : State) (p : Phase) (f : Line → Line) : (s.modLine p f).picks = s.picks := rfl

@[simp] theorem State.mapLines_pending (s : State) (f : Line → Line) : (s.mapLines f).pending = s.pending := rfl
@[simp] theorem State.mapLines_orm (s : State) (f : Line → Line) : (s.mapLines f).orm = s.orm := rfl
@[simp] theorem State.mapLines_dir (s : State) (f : Line → Line) : (s.mapLines f).dir = s.dir := rfl
@[simp] theorem State.mapLines_rfs (s : State) (f : Line → Line) : (s.mapLines f).rfs = s.rfs := rfl
@[simp] theorem State.mapLines_mtb (s : State) (f : Line → Line) : (s.mapLines f).mtb = s.mtb := rfl
@[simp] theorem State.mapLines_rlc (s : State) (f : Line → Line) : (s.mapLines f).rlc = s.rlc := rfl
@[simp] theorem State.mapLines_scs (s : State) (f : Line → Line) : (s.mapLines f).scs = s.scs := rfl
@[simp] theorem State.mapLines_params (s : State) (f : Line → Line) : (s.mapLines f).params = s.params := rfl
@[simp] theorem State.mapLines_picks (s : State) (f : Line → Line) : (s.mapLines f).picks = s.picks := rfl

@[simp] theorem State.setMains_pending (s : State) (p : Phase) (m : Mains) : (s.setMains p m).pending = s.pending := rfl
@[simp] theorem State.setMains_orm (s : State) (p : Phase) (m : Mains) : (s.setMains p m).orm = s.orm := rfl
@[simp] theorem State.setMains_dir (s : State) (p : Phase) (m : Mains) : (s.setMains p m).dir = s.dir := rfl
@[simp] theorem State.setMains_lines (s : State) (p : Phase) (m : Mains) : (s.setMains p m).lines = s.lines := rfl
@[simp] theorem State.setMains_rfs (s : State) (p : Phase) (m : Mains) : (s.setMains p m).rfs = s.rfs := rfl
@[simp] theorem State.setMains_rlc (s : State) (p : Phase) (m : Mains) : (s.setMains p m).rlc = s.rlc := rfl
@[simp] theorem State.setMains_scs (s : State) (p : Phase) (m : Mains) : (s.setMains p m).scs = s.scs := rfl
@[simp] theorem State.setMains_params (s : State) (p : Phase) (m : Mains) : (s.setMains p m).params = s.params := rfl
@[simp] theorem State.setMains_picks (s : State) (p : Phase) (m : Mains) : (s.setMains p m).picks = s.picks := rfl

@[simp] theorem State.setQueue_pending (s : State) (p : Phase) (q : List QueueEntry) : (s.setQueue p q).pending = s.pending := rfl
@[simp] theorem State.setQueue_orm (s : State) (p : Phase) (q : List QueueEntry) : (s.setQueue p q).orm = s.orm := rfl
@[simp] theorem State.setQueue_dir (s : State) (p : Phase) (q : List QueueEntry) : (s.setQueue p q).dir = s.dir := rfl
@[simp] theorem State.setQueue_lines (s : State) (p : Phase) (q : List QueueEntry) : (s.setQueue p q).lines = s.lines := rfl
@[simp] theorem State.setQueue_mtb (s : State) (p : Phase) (q : List QueueEntry) : (s.setQueue p q).mtb = s.mtb := rfl
@[simp] theorem State.setQueue_rlc (s : State) (p : Phase) (q : List QueueEntry) : (s.setQueue p q).rlc = s.rlc := rfl
@[simp] theorem State.setQueue_scs (s : State) (p : Phase) (q : List QueueEntry) : (s.setQueue p q).scs = s.scs := rfl
@[simp] theorem State.setQueue_params (s : State) (p : Phase) (q : List QueueEntry) : (s.setQueue p q).params = s.params := rfl
@[simp] theorem State.setQueue_picks (s : State) (p : Phase) (q : List QueueEntry) : (s.setQueue p q).picks = s.picks := rfl

@[simp] theorem State.advanceTo_pending (s : State) (t : Nat) : (s.advanceTo t).pending = s.pending := rfl
@[simp] theorem State.advanceTo_orm (s : State) (t : Nat) : (s.advanceTo t).orm = s.orm := rfl
@[simp] theorem State.advanceTo_dir (s : State) (t : Nat) : (s.advanceTo t).dir = s.dir := rfl
@[simp] theorem State.advanceTo_lines (s : State) (t : Nat) : (s.advanceTo t).lines = s.lines := rfl
@[simp] theorem State.advanceTo_rfs (s : State) (t : Nat) : (s.advanceTo t).rfs = s.rfs := rfl
@[simp] theorem State.advanceTo_rlc (s : State) (t : Nat) : (s.advanceTo t).rlc = s.rlc := rfl
@[simp] theorem State.advanceTo_scs (s : State) (t : Nat) : (s.advanceTo t).scs = s.scs := rfl
@[simp] theorem State.advanceTo_params (s : State) (t : Nat) : (s.advanceTo t).params = s.params := rfl
@[simp] theorem State.advanceTo_picks (s : State) (t : Nat) : (s.advanceTo t).picks = s.picks := rfl

@[simp] theorem State.post_pending (s : State) (n : Notice) : (s.post n).pending = s.pending := rfl
@[simp] theorem State.post_orm (s : State) (n : Notice) : (s.post n).orm = s.orm := rfl
@[simp] theorem State.post_dir (s : State) (n : Notice) : (s.post n).dir = s.dir := rfl
@[simp] theorem State.post_lines (s : State) (n : Notice) : (s.post n).lines = s.lines := rfl
@[simp] theorem State.post_rfs (s : State) (n : Notice) : (s.post n).rfs = s.rfs := rfl
@[simp] theorem State.post_mtb (s : State) (n : Notice) : (s.post n).mtb = s.mtb := rfl
@[simp] theorem State.post_scs (s : State) (n : Notice) : (s.post n).scs = s.scs := rfl
@[simp] theorem State.post_params (s : State) (n : Notice) : (s.post n).params = s.params := rfl
@[simp] theorem State.post_picks (s : State) (n : Notice) : (s.post n).picks = s.picks := rfl

@[simp] theorem State.pump_pending (s : State) : (s.pump).pending = s.pending := rfl
@[simp] theorem State.pump_orm (s : State) : (s.pump).orm = s.orm := rfl
@[simp] theorem State.pump_dir (s : State) : (s.pump).dir = s.dir := rfl
@[simp] theorem State.pump_lines (s : State) : (s.pump).lines = s.lines := rfl
@[simp] theorem State.pump_rfs (s : State) : (s.pump).rfs = s.rfs := rfl
@[simp] theorem State.pump_mtb (s : State) : (s.pump).mtb = s.mtb := rfl
@[simp] theorem State.pump_scs (s : State) : (s.pump).scs = s.scs := rfl
@[simp] theorem State.pump_params (s : State) : (s.pump).params = s.params := rfl
@[simp] theorem State.pump_picks (s : State) : (s.pump).picks = s.picks := rfl

@[simp] theorem State.modOrder_pending (s : State) (tag : Tag) (f : Order → Order) : (s.modOrder tag f).pending = s.pending := rfl
@[simp] theorem State.modOrder_dir (s : State) (tag : Tag) (f : Order → Order) : (s.modOrder tag f).dir = s.dir := rfl
@[simp] theorem State.modOrder_lines (s : State) (tag : Tag) (f : Order → Order) : (s.modOrder tag f).lines = s.lines := rfl
@[simp] theorem State.modOrder_rfs (s : State) (tag : Tag) (f : Order → Order) : (s.modOrder tag f).rfs = s.rfs := rfl
@[simp] theorem State.modOrder_mtb (s : State) (tag : Tag) (f : Order → Order) : (s.modOrder tag f).mtb = s.mtb := rfl
@[simp] theorem State.modOrder_rlc (s : State) (tag : Tag) (f : Order → Order) : (s.modOrder tag f).rlc = s.rlc := rfl
@[simp] theorem State.modOrder_scs (s : State) (tag : Tag) (f : Order → Order) : (s.modOrder tag f).scs = s.scs := rfl
@[simp] theorem State.modOrder_params (s : State) (tag : Tag) (f : Order → Order) : (s.modOrder tag f).params = s.params := rfl
@[simp] theorem State.modOrder_picks (s : State) (tag : Tag) (f : Order → Order) : (s.modOrder tag f).picks = s.picks := rfl

@[simp] theorem State.modProgress_pending (s : State) (tag : Tag) (p : Phase) (f : Progress → Progress) : (s.modProgress tag p f).pending = s.pending := rfl
@[simp] theorem State.modProgress_dir (s : State) (tag : Tag) (p : Phase) (f : Progress → Progress) : (s.modProgress tag p f).dir = s.dir := rfl
@[simp] theorem State.modProgress_lines (s : State) (tag : Tag) (p : Phase) (f : Progress → Progress) : (s.modProgress tag p f).lines = s.lines := rfl
@[simp] theorem State.modProgress_rfs (s : State) (tag : Tag) (p : Phase) (f : Progress → Progress) : (s.modProgress tag p f).rfs = s.rfs := rfl
@[simp] theorem State.modProgress_mtb (s : State) (tag : Tag) (p : Phase) (f : Progress → Progress) : (s.modProgress tag p f).mtb = s.mtb := rfl
@[simp] theorem State.modProgress_rlc (s : State) (tag : Tag) (p : Phase) (f : Progress → Progress) : (s.modProgress tag p f).rlc = s.rlc := rfl
@[simp] theorem State.modProgress_scs (s : State) (tag : Tag) (p : Phase) (f : Progress → Progress) : (s.modProgress tag p f).scs = s.scs := rfl
@[simp] theorem State.modProgress_params (s : State) (tag : Tag) (p : Phase) (f : Progress → Progress) : (s.modProgress tag p f).params = s.params := rfl
@[simp] theorem State.modProgress_picks (s : State) (tag : Tag) (p : Phase) (f : Progress → Progress) : (s.modProgress tag p f).picks = s.picks := rfl

@[simp] theorem State.takeService_pending (s : State) (p : Phase) (tag : Tag) : (s.takeService p tag).pending = s.pending := rfl
@[simp] theorem State.takeService_dir (s : State) (p : Phase) (tag : Tag) : (s.takeService p tag).dir = s.dir := rfl
@[simp] theorem State.takeService_lines (s : State) (p : Phase) (tag : Tag) : (s.takeService p tag).lines = s.lines := rfl
@[simp] theorem State.takeService_rfs (s : State) (p : Phase) (tag : Tag) : (s.takeService p tag).rfs = s.rfs := rfl
@[simp] theorem State.takeService_mtb (s : State) (p : Phase) (tag : Tag) : (s.takeService p tag).mtb = s.mtb := rfl
@[simp] theorem State.takeService_rlc (s : State) (p : Phase) (tag : Tag) : (s.takeService p tag).rlc = s.rlc := rfl
@[simp] theorem State.takeService_scs (s : State) (p : Phase) (tag : Tag) : (s.takeService p tag).scs = s.scs := rfl
@[simp] theorem State.takeService_params (s : State) (p : Phase) (tag : Tag) : (s.takeService p tag).params = s.params := rfl
@[simp] theorem State.takeService_picks (s : State) (p : Phase) (tag : Tag) : (s.takeService p tag).picks = s.picks := rfl

@[simp] theorem State.setStanding_pending (s : State) (g : Fin 16) (x : Standing) : (s.setStanding g x).pending = s.pending := rfl
@[simp] theorem State.setStanding_orm (s : State) (g : Fin 16) (x : Standing) : (s.setStanding g x).orm = s.orm := rfl
@[simp] theorem State.setStanding_dir (s : State) (g : Fin 16) (x : Standing) : (s.setStanding g x).dir = s.dir := rfl
@[simp] theorem State.setStanding_lines (s : State) (g : Fin 16) (x : Standing) : (s.setStanding g x).lines = s.lines := rfl
@[simp] theorem State.setStanding_mtb (s : State) (g : Fin 16) (x : Standing) : (s.setStanding g x).mtb = s.mtb := rfl
@[simp] theorem State.setStanding_rlc (s : State) (g : Fin 16) (x : Standing) : (s.setStanding g x).rlc = s.rlc := rfl
@[simp] theorem State.setStanding_scs (s : State) (g : Fin 16) (x : Standing) : (s.setStanding g x).scs = s.scs := rfl
@[simp] theorem State.setStanding_params (s : State) (g : Fin 16) (x : Standing) : (s.setStanding g x).params = s.params := rfl
@[simp] theorem State.setStanding_picks (s : State) (g : Fin 16) (x : Standing) : (s.setStanding g x).picks = s.picks := rfl

@[simp] theorem State.process_pending (s : State) (rec : Record) (st : ReqStage) : (s.process rec st).pending = s.pending := rfl
@[simp] theorem State.process_orm (s : State) (rec : Record) (st : ReqStage) : (s.process rec st).orm = s.orm := rfl
@[simp] theorem State.process_dir (s : State) (rec : Record) (st : ReqStage) : (s.process rec st).dir = s.dir := rfl
@[simp] theorem State.process_lines (s : State) (rec : Record) (st : ReqStage) : (s.process rec st).lines = s.lines := rfl
@[simp] theorem State.process_rfs (s : State) (rec : Record) (st : ReqStage) : (s.process rec st).rfs = s.rfs := rfl
@[simp] theorem State.process_mtb (s : State) (rec : Record) (st : ReqStage) : (s.process rec st).mtb = s.mtb := rfl
@[simp] theorem State.process_scs (s : State) (rec : Record) (st : ReqStage) : (s.process rec st).scs = s.scs := rfl
@[simp] theorem State.process_params (s : State) (rec : Record) (st : ReqStage) : (s.process rec st).params = s.params := rfl
@[simp] theorem State.process_picks (s : State) (rec : Record) (st : ReqStage) : (s.process rec st).picks = s.picks := rfl

@[simp] theorem State.setReceiver_pending (s : State) (x : Receiver) : (s.setReceiver x).pending = s.pending := rfl
@[simp] theorem State.setReceiver_orm (s : State) (x : Receiver) : (s.setReceiver x).orm = s.orm := rfl
@[simp] theorem State.setReceiver_dir (s : State) (x : Receiver) : (s.setReceiver x).dir = s.dir := rfl
@[simp] theorem State.setReceiver_lines (s : State) (x : Receiver) : (s.setReceiver x).lines = s.lines := rfl
@[simp] theorem State.setReceiver_rfs (s : State) (x : Receiver) : (s.setReceiver x).rfs = s.rfs := rfl
@[simp] theorem State.setReceiver_mtb (s : State) (x : Receiver) : (s.setReceiver x).mtb = s.mtb := rfl
@[simp] theorem State.setReceiver_scs (s : State) (x : Receiver) : (s.setReceiver x).scs = s.scs := rfl
@[simp] theorem State.setReceiver_params (s : State) (x : Receiver) : (s.setReceiver x).params = s.params := rfl
@[simp] theorem State.setReceiver_picks (s : State) (x : Receiver) : (s.setReceiver x).picks = s.picks := rfl

@[simp] theorem State.beginProgramming_pending (s : State) (code : Addr) : (s.beginProgramming code).pending = s.pending := rfl
@[simp] theorem State.beginProgramming_orm (s : State) (code : Addr) : (s.beginProgramming code).orm = s.orm := rfl
@[simp] theorem State.beginProgramming_dir (s : State) (code : Addr) : (s.beginProgramming code).dir = s.dir := rfl
@[simp] theorem State.beginProgramming_lines (s : State) (code : Addr) : (s.beginProgramming code).lines = s.lines := rfl
@[simp] theorem State.beginProgramming_rfs (s : State) (code : Addr) : (s.beginProgramming code).rfs = s.rfs := rfl
@[simp] theorem State.beginProgramming_mtb (s : State) (code : Addr) : (s.beginProgramming code).mtb = s.mtb := rfl
@[simp] theorem State.beginProgramming_rlc (s : State) (code : Addr) : (s.beginProgramming code).rlc = s.rlc := rfl
@[simp] theorem State.beginProgramming_params (s : State) (code : Addr) : (s.beginProgramming code).params = s.params := rfl
@[simp] theorem State.beginProgramming_picks (s : State) (code : Addr) : (s.beginProgramming code).picks = s.picks := rfl

@[simp] theorem State.setClock_pending (s : State) (seconds : Nat) : (s.setClock seconds).pending = s.pending := rfl
@[simp] theorem State.setClock_orm (s : State) (seconds : Nat) : (s.setClock seconds).orm = s.orm := rfl
@[simp] theorem State.setClock_dir (s : State) (seconds : Nat) : (s.setClock seconds).dir = s.dir := rfl
@[simp] theorem State.setClock_lines (s : State) (seconds : Nat) : (s.setClock seconds).lines = s.lines := rfl
@[simp] theorem State.setClock_rfs (s : State) (seconds : Nat) : (s.setClock seconds).rfs = s.rfs := rfl
@[simp] theorem State.setClock_rlc (s : State) (seconds : Nat) : (s.setClock seconds).rlc = s.rlc := rfl
@[simp] theorem State.setClock_scs (s : State) (seconds : Nat) : (s.setClock seconds).scs = s.scs := rfl
@[simp] theorem State.setClock_params (s : State) (seconds : Nat) : (s.setClock seconds).params = s.params := rfl
@[simp] theorem State.setClock_picks (s : State) (seconds : Nat) : (s.setClock seconds).picks = s.picks := rfl

@[simp] theorem State.noteTimes_pending (s : State) : s.noteTimes.pending = s.pending := rfl
@[simp] theorem State.noteTimes_dir (s : State) : s.noteTimes.dir = s.dir := rfl
@[simp] theorem State.noteTimes_lines (s : State) : s.noteTimes.lines = s.lines := rfl
@[simp] theorem State.noteTimes_rfs (s : State) : s.noteTimes.rfs = s.rfs := rfl
@[simp] theorem State.noteTimes_mtb (s : State) : s.noteTimes.mtb = s.mtb := rfl
@[simp] theorem State.noteTimes_rlc (s : State) : s.noteTimes.rlc = s.rlc := rfl
@[simp] theorem State.noteTimes_scs (s : State) : s.noteTimes.scs = s.scs := rfl
@[simp] theorem State.noteTimes_params (s : State) : s.noteTimes.params = s.params := rfl
@[simp] theorem State.noteTimes_picks (s : State) : s.noteTimes.picks = s.picks := rfl

@[simp] theorem State.withPending_orm (s : State) (q : List Instr) : (s.withPending q).orm = s.orm := rfl
@[simp] theorem State.withPending_dir (s : State) (q : List Instr) : (s.withPending q).dir = s.dir := rfl
@[simp] theorem State.withPending_lines (s : State) (q : List Instr) : (s.withPending q).lines = s.lines := rfl
@[simp] theorem State.withPending_rfs (s : State) (q : List Instr) : (s.withPending q).rfs = s.rfs := rfl
@[simp] theorem State.withPending_mtb (s : State) (q : List Instr) : (s.withPending q).mtb = s.mtb := rfl
@[simp] theorem State.withPending_rlc (s : State) (q : List Instr) : (s.withPending q).rlc = s.rlc := rfl
@[simp] theorem State.withPending_scs (s : State) (q : List Instr) : (s.withPending q).scs = s.scs := rfl
@[simp] theorem State.withPending_params (s : State) (q : List Instr) : (s.withPending q).params = s.params := rfl
@[simp] theorem State.withPending_picks (s : State) (q : List Instr) : (s.withPending q).picks = s.picks := rfl

/-! What the narrower updates keep inside the block they change. -/

@[simp] theorem State.setMains_clock (s : State) (p : Phase) (m : Mains) : (s.setMains p m).mtb.clock = s.mtb.clock := rfl
@[simp] theorem State.setMains_quiet (s : State) (p : Phase) (m : Mains) : (s.setMains p m).mtb.quiet = s.mtb.quiet := rfl
@[simp] theorem State.setMains_timebase (s : State) (p : Phase) (m : Mains) :
    (s.setMains p m).mtb.timebase = s.mtb.timebase := rfl
@[simp] theorem State.advanceTo_phases (s : State) (t : Nat) : (s.advanceTo t).mtb.phases = s.mtb.phases := rfl
@[simp] theorem State.advanceTo_clock (s : State) (t : Nat) : (s.advanceTo t).mtb.clock = s.mtb.clock := rfl
@[simp] theorem State.advanceTo_quiet (s : State) (t : Nat) : (s.advanceTo t).mtb.quiet = s.mtb.quiet := rfl
@[simp] theorem State.advanceTo_quietIn (s : State) (t : Nat) : (s.advanceTo t).mtb.quietIn = s.mtb.quietIn := rfl
@[simp] theorem State.advanceTo_releaseEnd (s : State) (t : Nat) :
    (s.advanceTo t).mtb.releaseEnd = s.mtb.releaseEnd := rfl
@[simp] theorem State.advanceTo_now (s : State) (t : Nat) : (s.advanceTo t).now = s.now := rfl
@[simp] theorem State.advanceTo_timebase (s : State) (t : Nat) :
    (s.advanceTo t).mtb.timebase = max s.mtb.timebase t := rfl
@[simp] theorem State.setQueue_standing (s : State) (p : Phase) (q : List QueueEntry) (g : Fin 16) :
    (s.setQueue p q).standing g = s.standing g := rfl
@[simp] theorem State.setStanding_queues (s : State) (g : Fin 16) (x : Standing) :
    (s.setStanding g x).rfs.queues = s.rfs.queues := rfl
@[simp] theorem State.modOrder_tagCounter (s : State) (tag : Tag) (f : Order → Order) :
    (s.modOrder tag f).orm.tagCounter = s.orm.tagCounter := rfl
@[simp] theorem State.modOrder_seqCounter (s : State) (tag : Tag) (f : Order → Order) :
    (s.modOrder tag f).orm.seqCounter = s.orm.seqCounter := rfl
@[simp] theorem State.modOrder_floor (s : State) (tag : Tag) (f : Order → Order) :
    (s.modOrder tag f).orm.floor = s.orm.floor := rfl
@[simp] theorem State.takeService_tagCounter (s : State) (p : Phase) (tag : Tag) :
    (s.takeService p tag).orm.tagCounter = s.orm.tagCounter := rfl
@[simp] theorem State.takeService_seqCounter (s : State) (p : Phase) (tag : Tag) :
    (s.takeService p tag).orm.seqCounter = s.orm.seqCounter := rfl
@[simp] theorem State.takeService_floor (s : State) (p : Phase) (tag : Tag) :
    (s.takeService p tag).orm.floor = s.orm.floor := rfl
@[simp] theorem State.noteTimes_tagCounter (s : State) : s.noteTimes.orm.tagCounter = s.orm.tagCounter := rfl
@[simp] theorem State.noteTimes_seqCounter (s : State) : s.noteTimes.orm.seqCounter = s.orm.seqCounter := rfl
@[simp] theorem State.noteTimes_floor (s : State) : s.noteTimes.orm.floor = s.orm.floor := rfl
@[simp] theorem Line.cutReception_waiting (l : Line) : l.cutReception.waiting = [] := rfl
@[simp] theorem Line.cutReception_cuts (l : Line) : l.cutReception.cuts = l.cuts + 1 := rfl
@[simp] theorem State.withPending_pending (s : State) (q : List Instr) : (s.withPending q).pending = q := rfl
@[simp] theorem State.withPending_withPending (s : State) (q r : List Instr) :
    (s.withPending q).withPending r = s.withPending r := rfl

end Sys2Proof.Machine
end

