-- ==== Sys2Proof/Laws/Ops.lean ====
section
/-! SUPPORT. What each shared operation can do, said once: access by phase, posting, the transmitter's choice, the order
table, the directory, and the ends of orders. -/

namespace Sys2Proof.Machine

/-! ### Access by phase -/

@[simp] theorem Tri.get_set_same {α : Type} (t : Tri α) (p : Phase) (x : α) : (t.set p x).get p = x := by
  cases p <;> rfl

@[simp] theorem Tri.get_set_ne {α : Type} (t : Tri α) {p q : Phase} (x : α) (h : q ≠ p) : (t.set p x).get q = t.get q := by
  cases p <;> cases q <;> first | rfl | exact absurd rfl h

@[simp] theorem Tri.get_map {α β : Type} (f : α → β) (t : Tri α) (p : Phase) : (t.map f).get p = f (t.get p) := by
  cases p <;> rfl

theorem Tri.ext_get {α : Type} {t u : Tri α} (h : ∀ p, t.get p = u.get p) : t = u := by
  have ha := h .a
  have hb := h .b
  have hc := h .c
  cases t; cases u
  simp only [Tri.get] at ha hb hc
  subst ha hb hc
  rfl

@[simp] theorem State.line_modLine_same (s : State) (p : Phase) (f : Line → Line) :
    (s.modLine p f).line p = f (s.line p) := by simp [State.line, State.modLine]

@[simp] theorem State.line_modLine_ne (s : State) {p q : Phase} (f : Line → Line) (h : q ≠ p) :
    (s.modLine p f).line q = s.line q := by simp [State.line, State.modLine, h]

@[simp] theorem State.line_mapLines (s : State) (f : Line → Line) (p : Phase) :
    (s.mapLines f).line p = f (s.line p) := by simp [State.line, State.mapLines]

@[simp] theorem State.mains_setMains_same (s : State) (p : Phase) (m : Mains) : (s.setMains p m).mains p = m := by
  simp [State.mains, State.setMains]

@[simp] theorem State.mains_setMains_ne (s : State) {p q : Phase} (m : Mains) (h : q ≠ p) :
    (s.setMains p m).mains q = s.mains q := by simp [State.mains, State.setMains, h]

@[simp] theorem State.queue_setQueue_same (s : State) (p : Phase) (q : List QueueEntry) : (s.setQueue p q).queue p = q := by
  simp [State.queue, State.setQueue]

@[simp] theorem State.queue_setQueue_ne (s : State) {p r : Phase} (q : List QueueEntry) (h : r ≠ p) :
    (s.setQueue p q).queue r = s.queue r := by simp [State.queue, State.setQueue, h]

@[simp] theorem State.standing_setStanding_same (s : State) (g : Fin 16) (x : Standing) : (s.setStanding g x).standing g = x := by
  simp [State.standing, State.setStanding]

@[simp] theorem State.standing_setStanding_ne (s : State) {g k : Fin 16} (x : Standing) (h : k ≠ g) :
    (s.setStanding g x).standing k = s.standing k := by
  have h' : g.val ≠ k.val := fun e => h (Fin.ext e.symm)
  simp [State.standing, State.setStanding, h']

@[simp] theorem State.line_post (s : State) (n : Notice) (p : Phase) : (s.post n).line p = s.line p := rfl
@[simp] theorem State.line_modOrder (s : State) (tag : Tag) (f : Order → Order) (p : Phase) :
    (s.modOrder tag f).line p = s.line p := rfl
@[simp] theorem State.line_setMains (s : State) (q : Phase) (m : Mains) (p : Phase) : (s.setMains q m).line p = s.line p := rfl
@[simp] theorem State.line_advanceTo (s : State) (t : Nat) (p : Phase) : (s.advanceTo t).line p = s.line p := rfl
@[simp] theorem State.line_pump (s : State) (p : Phase) : s.pump.line p = s.line p := rfl
@[simp] theorem State.mains_modLine (s : State) (q : Phase) (f : Line → Line) (p : Phase) :
    (s.modLine q f).mains p = s.mains p := rfl
@[simp] theorem State.mains_post (s : State) (n : Notice) (p : Phase) : (s.post n).mains p = s.mains p := rfl
@[simp] theorem State.mains_advanceTo (s : State) (t : Nat) (p : Phase) : (s.advanceTo t).mains p = s.mains p := rfl
@[simp] theorem State.mains_pump (s : State) (p : Phase) : s.pump.mains p = s.mains p := rfl

/-! ### Notices and the transmitter (R149, R150) -/

/-- A posted notice joins the end of a queue with room, and is otherwise dropped with the flag set. -/
theorem Rlc.post_cases (r : Rlc) (n : Notice) :
    (r.notices.length < 16 ∧ r.post n = { r with notices := r.notices ++ [n] })
      ∨ (16 ≤ r.notices.length ∧ r.post n = { r with noticeLost := true }) := by
  unfold Rlc.post
  by_cases h : r.notices.length < Config.noticeCapacity
  · exact .inl ⟨h, if_pos h⟩
  · exact .inr ⟨Nat.le_of_not_lt h, if_neg h⟩

/-- The queue never exceeds 16 notices by a posting. -/
theorem Rlc.post_notices_le (r : Rlc) (n : Notice) (h : r.notices.length ≤ 16) : (r.post n).notices.length ≤ 16 := by
  obtain ⟨hl, he⟩ | ⟨-, he⟩ := r.post_cases n
  · simp [he]; omega
  · simpa [he] using h

/-- The transmitter's choice: a record in sending stays; an owed reply goes first; otherwise the oldest notice leaves the
queue; otherwise nothing changes. -/
theorem Rlc.choose_cases (r : Rlc) :
    (∃ x, r.transmitter = .sending x ∧ r.choose = r)
      ∨ (∃ rec reply, r.transmitter = .free ∧ r.processing = some ⟨rec, .owed reply⟩
          ∧ r.choose = { r with transmitter := .sending (.reply reply) })
      ∨ (∃ n rest, r.transmitter = .free ∧ r.owes = false ∧ r.notices = n :: rest
          ∧ r.choose = { r with transmitter := .sending (.notice n), notices := rest })
      ∨ (r.transmitter = .free ∧ r.owes = false ∧ r.notices = [] ∧ r.choose = r) := by
  obtain ⟨rx, pr, ho, tx, ns, ov, nl, sc⟩ := r
  cases tx with
  | sending x => exact .inl ⟨x, rfl, rfl⟩
  | free =>
    rcases pr with _ | ⟨rec, _ | reply⟩
    · cases ns with
      | nil => exact .inr (.inr (.inr ⟨rfl, rfl, rfl, rfl⟩))
      | cons n rest => exact .inr (.inr (.inl ⟨n, rest, rfl, rfl, rfl, rfl⟩))
    · cases ns with
      | nil => exact .inr (.inr (.inr ⟨rfl, rfl, rfl, rfl⟩))
      | cons n rest => exact .inr (.inr (.inl ⟨n, rest, rfl, rfl, rfl, rfl⟩))
    · exact .inr (.inl ⟨rec, reply, rfl, rfl, rfl⟩)

/-- A transmitter that has chosen has nothing to choose again. -/
theorem Rlc.choose_choose (r : Rlc) : r.choose.choose = r.choose := by
  obtain ⟨x, ht, he⟩ | ⟨rec, reply, ht, hp, he⟩ | ⟨n, rest, ht, ho, hn, he⟩ | ⟨ht, ho, hn, he⟩ := r.choose_cases
  · rw [he, he]
  · rw [he]; rfl
  · rw [he]; rfl
  · rw [he, he]

@[simp] theorem State.pump_pump (s : State) : s.pump.pump = s.pump := by simp [State.pump, Rlc.choose_choose]

@[simp] theorem Rlc.choose_receiver (r : Rlc) : r.choose.receiver = r.receiver := by
  obtain ⟨x, ht, he⟩ | ⟨rec, reply, ht, hp, he⟩ | ⟨n, rest, ht, ho, hn, he⟩ | ⟨ht, ho, hn, he⟩ := r.choose_cases <;> rw [he]

@[simp] theorem Rlc.choose_processing (r : Rlc) : r.choose.processing = r.processing := by
  obtain ⟨x, ht, he⟩ | ⟨rec, reply, ht, hp, he⟩ | ⟨n, rest, ht, ho, hn, he⟩ | ⟨ht, ho, hn, he⟩ := r.choose_cases <;> rw [he]

@[simp] theorem Rlc.choose_holding (r : Rlc) : r.choose.holding = r.holding := by
  obtain ⟨x, ht, he⟩ | ⟨rec, reply, ht, hp, he⟩ | ⟨n, rest, ht, ho, hn, he⟩ | ⟨ht, ho, hn, he⟩ := r.choose_cases <;> rw [he]

/-! ### Free orders -/

theorem freeOrderFrom_perm {α : Type} (fuel : Nat) (l : List α) (k : Nat) : (freeOrderFrom fuel l k).1.Perm l := by
  induction fuel generalizing l k with
  | zero => exact .refl _
  | succ fuel ih =>
    match l with
    | [] => exact .refl _
    | [x] => exact .refl _
    | x :: y :: rest =>
      have hi : Config.freePick k % ((y :: rest).length + 1) < (x :: y :: rest).length := Nat.mod_lt _ (by simp)
      have hg : (x :: y :: rest).getD (Config.freePick k % ((y :: rest).length + 1)) x
          = (x :: y :: rest)[Config.freePick k % ((y :: rest).length + 1)] := by
        rw [List.getD_eq_getElem?_getD, List.getElem?_eq_getElem hi]; rfl
      simp only [freeOrderFrom, hg]
      exact ((ih _ _).cons _).trans (List.getElem_cons_eraseIdx_perm hi)

/-- A free order visits exactly the elements of the list. -/
theorem freeOrder_perm {α : Type} (l : List α) (k : Nat) : (freeOrder l k).1.Perm l := freeOrderFrom_perm _ l k

/-- What holds before, and is kept for each element, holds after, whatever order is taken. -/
theorem State.forEachFree_induct {α : Type} {P : State → Prop} (s : State) (l : List α) (f : State → α → State)
    (hp : ∀ s n, P s → P { s with picks := n }) (hf : ∀ s, ∀ x ∈ l, P s → P (f s x)) (h : P s) : P (s.forEachFree l f) := by
  have hm : ∀ x ∈ (freeOrder l s.picks).1, x ∈ l := fun x hx => (freeOrder_perm l s.picks).mem_iff.mp hx
  unfold State.forEachFree
  generalize freeOrder l s.picks = r at hm ⊢
  obtain ⟨xs, n⟩ := r
  have key : ∀ (xs : List α) (t : State), (∀ x ∈ xs, x ∈ l) → P t → P (xs.foldl f t) := by
    intro xs
    induction xs with
    | nil => intro t _ ht; exact ht
    | cons x xs ih =>
      intro t hx ht
      exact ih _ (fun y hy => hx y (by simp [hy])) (hf t x (hx x (by simp)) ht)
  exact key xs _ hm (hp s n h)

/-! ### The order table -/

theorem State.findOrder_tag {s : State} {tag : Tag} {o : Order} (h : s.findOrder tag = some o) : o.tag = tag := by
  simpa using List.find?_some h

theorem State.findOrder_mem {s : State} {tag : Tag} {o : Order} (h : s.findOrder tag = some o) : o ∈ s.orm.table :=
  List.mem_of_find?_eq_some h

theorem find_map_tag (l : List Order) (t : Tag) (g : Order → Order) (hg : ∀ o, (g o).tag = o.tag) :
    (l.map g).find? (fun o => o.tag == t) = (l.find? fun o => o.tag == t).map g := by
  induction l with
  | nil => rfl
  | cons o l ih => by_cases h : o.tag = t <;> simp [hg, h, ih]

/-- A change that keeps tags is seen by the search for the same tag, and leaves every other record as it was. -/
theorem State.findOrder_modOrder (s : State) (tag t : Tag) (f : Order → Order) (hf : ∀ o, (f o).tag = o.tag) :
    (s.modOrder tag f).findOrder t = (s.findOrder t).map fun o => if o.tag = tag then f o else o :=
  find_map_tag s.orm.table t (fun o => if o.tag = tag then f o else o) fun o => by split <;> simp [hf]

theorem State.modOrder_mem {s : State} {tag : Tag} {f : Order → Order} {o : Order} :
    o ∈ (s.modOrder tag f).orm.table ↔ ∃ x ∈ s.orm.table, (if x.tag = tag then f x else x) = o := by
  simp [State.modOrder]

@[simp] theorem State.modOrder_length (s : State) (tag : Tag) (f : Order → Order) :
    (s.modOrder tag f).orm.table.length = s.orm.table.length := by simp [State.modOrder]

/-! ### The directory -/

theorem insertHouse_find (i j : Nat) (h : House) (l : List (Nat × House)) (hl : (l.map (·.1)).Pairwise (· < ·)) :
    (insertHouse i h l).find? (fun e => e.1 == j) = if i = j then some (i, h) else l.find? (fun e => e.1 == j) := by
  induction l with
  | nil => by_cases hij : i = j <;> simp [insertHouse, hij]
  | cons e l ih =>
    obtain ⟨k, x⟩ := e
    simp only [List.map_cons, List.pairwise_cons] at hl
    unfold insertHouse
    by_cases h1 : i < k
    · rw [if_pos h1]
      by_cases hij : i = j <;> simp [hij]
    · by_cases h2 : i = k
      · subst h2
        by_cases hij : i = j <;> simp [hij]
      · by_cases hij : i = j
        · subst hij
          have hki : ¬ k = i := fun e => h2 e.symm
          simp [h1, h2, ih hl.2, hki]
        · simp [h1, h2, ih hl.2, hij, List.find?_cons]

/-- Reading the entry just put gives it; every other entry reads as before. -/
theorem Dir.get_put (d : Dir) (i j : Nat) (h : House) (hd : (d.houses.map (·.1)).Pairwise (· < ·)) :
    (d.put i h).get j = if i = j then some h else d.get j := by
  unfold Dir.get Dir.put
  rw [insertHouse_find i j h d.houses hd]
  split <;> rfl

theorem find_map_house (l : List (Nat × House)) (j : Nat) (g : Nat × House → Nat × House) (hg : ∀ e, (g e).1 = e.1) :
    (l.map g).find? (fun e => e.1 == j) = (l.find? fun e => e.1 == j).map g := by
  induction l with
  | nil => rfl
  | cons e l ih => by_cases h : e.1 = j <;> simp [hg, h, ih]

/-- A change of an entry is read there alone; a vacant entry stays vacant. -/
theorem Dir.get_modify (d : Dir) (i j : Nat) (f : House → House) :
    (d.modify i f).get j = if j = i then (d.get j).map f else d.get j := by
  unfold Dir.get Dir.modify
  rw [find_map_house d.houses j (fun e => if e.1 = i then (e.1, f e.2) else e) fun e => by split <;> rfl]
  cases hf : d.houses.find? fun e => e.1 == j with
  | none => simp
  | some e =>
    have he : e.1 = j := by simpa using List.find?_some hf
    by_cases hij : j = i <;> simp [he, hij]

theorem find_filter_house (l : List (Nat × House)) (i j : Nat) :
    (l.filter fun e => e.1 != i).find? (fun e => e.1 == j) = if j = i then none else l.find? fun e => e.1 == j := by
  induction l with
  | nil => simp
  | cons e l ih =>
    by_cases he : e.1 = i
    · rw [List.filter_cons_of_neg (by simpa using he), ih]
      split
      · rfl
      next h => rw [List.find?_cons_of_neg (by simp [he, Ne.symm h])]
    · rw [List.filter_cons_of_pos (by simpa using he)]
      by_cases hj : e.1 = j
      · subst hj; simp [he]
      · rw [List.find?_cons_of_neg (by simpa using hj), List.find?_cons_of_neg (by simpa using hj), ih]

/-- A removed entry reads vacant; every other entry reads as before. -/
theorem Dir.get_remove (d : Dir) (i j : Nat) : (d.remove i).get j = if j = i then none else d.get j := by
  unfold Dir.get Dir.remove
  rw [find_filter_house]
  split <;> rfl

/-! ### Counts -/

/-- A count advances by 1 and stands still at 65535. -/
theorem bump_cases (n : Nat) : (n < 65535 ∧ bump n = n + 1) ∨ (65535 ≤ n ∧ bump n = n) := by
  unfold bump
  by_cases h : n < Config.maxCount
  · exact .inl ⟨h, if_pos h⟩
  · exact .inr ⟨Nat.le_of_not_lt h, if_neg h⟩

/-! ### The ends of orders (R15, R16, R17) -/

/-- Clearing what an ended order leaves in a staged buffer changes no other item of the line controller. -/
theorem Line.discardStagedOf_cases (l : Line) (tag : Tag) :
    l.discardStagedOf tag = l ∨ l.discardStagedOf tag = { l with staged := none } := by
  unfold Line.discardStagedOf
  split
  · split
    · exact .inr rfl
    · exact .inl rfl
  · exact .inl rfl

/-- ORM's look at a CLOSING order: it stays, or with no slot in flight it enters the state its reason names. -/
theorem State.closingEnd_cases (s : State) (tag : Tag) :
    s.closingEnd tag = s
      ∨ ∃ o reason, s.findOrder tag = some o ∧ o.state = .closing ∧ o.closing = some reason ∧ o.anyInFlight = false
          ∧ s.closingEnd tag = s.enterFinal tag reason.final := by
  unfold State.closingEnd
  split
  next o ho =>
    split
    next reason hs hc =>
      split
      · exact .inl rfl
      next hf => exact .inr ⟨o, reason, ho, hs, hc, by simpa using hf, rfl⟩
    · exact .inl rfl
  · exact .inl rfl

/-- The report of a DONE phase: nothing, or with every involved phase DONE the order is COMPLETE or PARTIAL. -/
theorem State.reportDone_cases (s : State) (tag : Tag) :
    s.reportDone tag = s
      ∨ ∃ o, s.findOrder tag = some o ∧ o.state = .running ∧ o.allDone = true
          ∧ s.reportDone tag = s.enterFinal tag (if o.hasMiss then .partly else .complete) := by
  unfold State.reportDone
  split
  next o ho =>
    split
    next h => exact .inr ⟨o, ho, h.1, h.2, rfl⟩
    · exact .inl rfl
  · exact .inl rfl

/-! ### Selection and slots -/

/-- What a gap or an idle crossing is left with after settling is nothing, a refresh, or a step that needs a slot. -/
theorem State.selectSettled_choice (fuel : Nat) (p : Phase) (s : State) :
    (State.selectSettled fuel p s).2 = .nothing
      ∨ (∃ g, (State.selectSettled fuel p s).2 = .refresh g)
      ∨ ∃ tag st, (State.selectSettled fuel p s).2 = .order tag (.slot st) := by
  induction fuel generalizing s with
  | zero => exact .inl rfl
  | succ fuel ih =>
    unfold State.selectSettled
    split
    next tag st h => exact .inr (.inr ⟨tag, st, rfl⟩)
    next tag next h1 h2 => exact ih _
    next c h1 h2 =>
      generalize hc : s.select p none = c at *
      cases c with
      | nothing => exact .inl rfl
      | refresh g => exact .inr (.inl ⟨g, rfl⟩)
      | order tag next => exact absurd rfl (h2 tag next)

/-- A line whose causes stand, or whose hold is pending, is given nothing by selection (R73). -/
theorem State.select_blocked (s : State) (p : Phase) (ahead : Ahead)
    (h : (s.line p).causes.isEmpty = false ∨ (s.line p).holdPending = true) : s.select p ahead = .nothing := by
  unfold State.select
  rcases h with h | h <;> simp [h]

/-- Taking the due move: nothing is due, or the one due move is taken. -/
theorem State.takeMoveIf_cases (s : State) (p : Phase) (m : Move) :
    s.takeMoveIf p m = s ∨ ∃ ol, s.dueMove p = some (m, ol) ∧ s.takeMoveIf p m = s.move p ol m := by
  unfold State.takeMoveIf
  split
  next m' ol h =>
    split
    next he => subst he; exact .inr ⟨ol, h, rfl⟩
    · exact .inl rfl
  · exact .inl rfl

/-- A frame that is not taken changes nothing, at its crossing or between two. -/
theorem State.takeFrame_discarded {s : State} {p : Phase} {f : RxFrame} (h : s.discards p f = true) :
    s.takeFrame p f = s ∧ s.frameCompleted p f = s := ⟨if_pos h, if_pos h⟩

/-- A loss or a RESET that cuts a reception leaves a frame of the old count behind. -/
theorem Line.cutReception_discards {s : State} {p : Phase} {f : RxFrame} (h : f.cuts = (s.line p).cuts) :
    (s.modLine p Line.cutReception).discards p f = true := by
  simp [State.discards, h]

/-- A frame staged for the work that an accepted reply has ended does not stand (R109). -/
theorem State.stands_answered {s : State} {p : Phase} {f : Frame} {c : Choice} : s.stands p (some f.work) f c = false := by
  simp [State.stands]

/-! ### Noted times (R67) and timers (R122) -/

/-- An order that has noted its effective time is sent with delay 0, whatever the clock reads. -/
theorem State.delayFor_reached {o : Order} (h : o.reached = true) (s : State) (p : Phase) (k size hops : Nat) :
    s.delayFor p k size hops o = 0 := if_pos h

/-- A note stays. -/
theorem Order.noteTime_reached {o : Order} (h : o.reached = true) (now : Nat) : (o.noteTime now).reached = true := by
  simp [Order.noteTime, h]

/-- The check of a timer fires it while the clock runs, and otherwise does nothing. -/
theorem State.checkTimer_cases (s : State) (g : Fin 16) :
    (s.mtb.clock.runs = true ∧ s.checkTimer g = s.fireIfDue g) ∨ (s.mtb.clock.runs = false ∧ s.checkTimer g = s) := by
  unfold State.checkTimer
  cases h : s.mtb.clock.runs
  · exact .inr ⟨rfl, rfl⟩
  · exact .inl ⟨rfl, rfl⟩

/-! ### Tags (R7) -/

theorem nextTag_ne_zero (t : Tag) : nextTag t ≠ 0 := by
  unfold nextTag
  split
  · decide
  next h =>
    intro h0
    exact h (by bv_omega)

/-! ### Aborts -/

@[simp] theorem Progress.goBack_none (pp : Progress) : pp.goBack none = pp := rfl
@[simp] theorem Progress.goBack_some (pp : Progress) (x : Place) :
    pp.goBack (some x) = { pp with cursor := x.cursor, attempts := x.attempts } := rfl

/-- Going back undoes what a slot's beginning wrote, but for slot in flight. -/
theorem Progress.beginSlot_goBack (pp : Progress) (step : Step) :
    (pp.beginSlot step).goBack (some ⟨pp.cursor, pp.attempts⟩) = { pp with inFlight := true } := by
  unfold Progress.beginSlot
  split
  · split <;> rfl
  · rfl

/-- An abort is one change of the line controller, and for the slot of an order one of its progress and the clearing of slot
in flight. -/
theorem State.abortSlot_cases (s : State) (p : Phase) :
    s.abortSlot p = s.modLine p Line.abort
      ∨ ∃ tag, (s.line p).slotOrder = some tag
          ∧ s.abortSlot p = ((s.modLine p Line.abort).modProgress tag p fun pp =>
              pp.goBack ((s.line p).onLine.bind fun ol => ol.before)).clearInFlight tag p := by
  unfold State.abortSlot
  split
  · exact .inr ⟨_, ‹_›, rfl⟩
  · exact .inl rfl

end Sys2Proof.Machine
end

