-- ==== Sys2Proof/Laws/PerInstr.lean ====
section
/-! SUPPORT. Statements about every command, one lemma per constructor. -/

namespace Sys2Proof.Laws.Completes

open Sys2Proof.Machine

/-- The command has an effect in every state: no state faults or refuses it. -/
def Statement (i : Instr) : Prop := ∀ s : State, ∃ t : State, exec i s = .next t

theorem powerUp (quiet touched : Bool) : Statement (.powerUp quiet touched) := fun _ => ⟨_, rfl⟩
theorem recordComplete (r : Record) : Statement (.recordComplete r) := fun _ => ⟨_, rfl⟩
theorem linkGapTimeout : Statement .linkGapTimeout := fun _ => ⟨_, rfl⟩
theorem byteWithoutStopBit : Statement .byteWithoutStopBit := fun _ => ⟨_, rfl⟩
theorem holdingPlaceTaken : Statement .holdingPlaceTaken := fun _ => ⟨_, rfl⟩
theorem sendReply : Statement .sendReply := fun _ => ⟨_, rfl⟩
theorem sendNotice : Statement .sendNotice := fun _ => ⟨_, rfl⟩
theorem transmitEnd : Statement .transmitEnd := fun _ => ⟨_, rfl⟩
theorem getStatus : Statement .getStatus := fun _ => ⟨_, rfl⟩
theorem getIdentity : Statement .getIdentity := fun _ => ⟨_, rfl⟩
theorem setTime (seconds : BitVec 32) : Statement (.setTime seconds) := fun _ => ⟨_, rfl⟩
theorem getTime : Statement .getTime := fun _ => ⟨_, rfl⟩
theorem setConfig (id : Byte) (value : BitVec 16) : Statement (.setConfig id value) := fun _ => ⟨_, rfl⟩
theorem getConfig (id : Byte) : Statement (.getConfig id) := fun _ => ⟨_, rfl⟩
theorem writeSite (code : Addr) : Statement (.writeSite code) := fun _ => ⟨_, rfl⟩
theorem writeSiteComplete (equal : Bool) : Statement (.writeSiteComplete equal) := fun _ => ⟨_, rfl⟩
theorem housePut (f : PutFields) : Statement (.housePut f) := fun _ => ⟨_, rfl⟩
theorem houseGet (index : BitVec 16) : Statement (.houseGet index) := fun _ => ⟨_, rfl⟩
theorem houseRemove (index : BitVec 16) : Statement (.houseRemove index) := fun _ => ⟨_, rfl⟩
theorem houseFind (address : Addr) : Statement (.houseFind address) := fun _ => ⟨_, rfl⟩
theorem freeze (first last : BitVec 16) (mode : Byte) : Statement (.freeze first last mode) := fun _ => ⟨_, rfl⟩
theorem thaw (first last : BitVec 16) : Statement (.thaw first last) := fun _ => ⟨_, rfl⟩
theorem orderSubmit (f : SubmitFields) : Statement (.orderSubmit f) := fun _ => ⟨_, rfl⟩
theorem orderRead (tag : Tag) (sect : Byte) : Statement (.orderRead tag sect) := fun _ => ⟨_, rfl⟩
theorem orderCancel (tag : Tag) : Statement (.orderCancel tag) := fun _ => ⟨_, rfl⟩
theorem orderRelease (tag : Tag) : Statement (.orderRelease tag) := fun _ => ⟨_, rfl⟩
theorem orderList : Statement .orderList := fun _ => ⟨_, rfl⟩
theorem setFloor (floor : Byte) : Statement (.setFloor floor) := fun _ => ⟨_, rfl⟩
theorem phaseHold (phase : Byte) : Statement (.phaseHold phase) := fun _ => ⟨_, rfl⟩
theorem holdTakesEffect (p : Phase) : Statement (.holdTakesEffect p) := fun _ => ⟨_, rfl⟩
theorem phaseResume (phase : Byte) : Statement (.phaseResume phase) := fun _ => ⟨_, rfl⟩
theorem phaseStats (phase clear : Byte) : Statement (.phaseStats phase clear) := fun _ => ⟨_, rfl⟩
theorem standingRead (group : Byte) : Statement (.standingRead group) := fun _ => ⟨_, rfl⟩
theorem reset : Statement .reset := fun _ => ⟨_, rfl⟩
theorem orderClosingEnd (tag : Tag) : Statement (.orderClosingEnd tag) := fun _ => ⟨_, rfl⟩
theorem clockIncrement : Statement .clockIncrement := fun _ => ⟨_, rfl⟩
theorem orderExpiry : Statement .orderExpiry := fun _ => ⟨_, rfl⟩
theorem adoption (tag : Tag) : Statement (.adoption tag) := fun _ => ⟨_, rfl⟩
theorem selfRestore (g : Fin 16) : Statement (.selfRestore g) := fun _ => ⟨_, rfl⟩
theorem refreshTimerFire (g : Fin 16) : Statement (.refreshTimerFire g) := fun _ => ⟨_, rfl⟩
theorem zeroCrossing (p : Phase) (at_ : Nat) : Statement (.zeroCrossing p at_) := fun _ => ⟨_, rfl⟩
theorem phaseReturn (p : Phase) : Statement (.phaseReturn p) := fun _ => ⟨_, rfl⟩
theorem phaseLost (p : Phase) : Statement (.phaseLost p) := fun _ => ⟨_, rfl⟩
theorem quietAssert (at_ : Nat) : Statement (.quietAssert at_) := fun _ => ⟨_, rfl⟩
theorem quietInputRelease (at_ : Nat) : Statement (.quietInputRelease at_) := fun _ => ⟨_, rfl⟩
theorem quietReleaseTimeout : Statement .quietReleaseTimeout := fun _ => ⟨_, rfl⟩
theorem guardEnd (p : Phase) : Statement (.guardEnd p) := fun _ => ⟨_, rfl⟩
theorem sendComplete (p : Phase) : Statement (.sendComplete p) := fun _ => ⟨_, rfl⟩
theorem relayEnd (p : Phase) : Statement (.relayEnd p) := fun _ => ⟨_, rfl⟩
theorem slotPlannedEnd (p : Phase) : Statement (.slotPlannedEnd p) := fun _ => ⟨_, rfl⟩
theorem lineFrameTaken (p : Phase) (f : RxFrame) : Statement (.lineFrameTaken p f) := fun _ => ⟨_, rfl⟩
theorem linkByteReceived (b : Byte) : Statement (.linkByteReceived b) := fun _ => ⟨_, rfl⟩
theorem frontEndFrameComplete (p : Phase) (f : RxFrame) : Statement (.frontEndFrameComplete p f) := fun _ => ⟨_, rfl⟩
theorem subcountAdvance : Statement .subcountAdvance := fun _ => ⟨_, rfl⟩

end Sys2Proof.Laws.Completes
end

