-- ==== Sys2Proof/WellFormed.lean ====
section
/-! DEFINITION. Which commands are well formed: those that name something the link or a front-end can deliver. A request's
fields may hold any value, since the part checks them itself (R164). -/

namespace Sys2Proof

open Sys2Proof.Machine in
/-- A completed record: a length byte of 0 or 251 to 255, or a body that a length byte of 1 to 250 covers (R142, R143). -/
def Record.wellFormed : Record → Bool
  | .badLength len => decide (len.toNat = 0 ∨ 251 ≤ len.toNat)
  | .whole _ body _ => decide (body.length ≤ 249)

open Sys2Proof.Machine in
/-- A received line frame. One of good CRC status has the length its kind byte gives and its CRC in the last two bytes
(R165, R167); one of bad status may be cut short anywhere. -/
def RxFrame.wellFormed (f : RxFrame) : Bool :=
  !f.crcGood
    || (decide (f.bytes.length = frameLength (byteAt f.bytes 0))
        && decide (crc16 (f.bytes.take (f.bytes.length - 2)) = word16 f.bytes (f.bytes.length - 2)))

/-- The well-formed commands: records and frames are well formed, and tags are 1 to 65535. -/
def Instr.wellFormed : Instr → Bool
  | .powerUp _ _ => true
  | .recordComplete r => r.wellFormed
  | .linkGapTimeout => true
  | .byteWithoutStopBit => true
  | .holdingPlaceTaken => true
  | .sendReply => true
  | .sendNotice => true
  | .transmitEnd => true
  | .getStatus => true
  | .getIdentity => true
  | .setTime _ => true
  | .getTime => true
  | .setConfig _ _ => true
  | .getConfig _ => true
  | .writeSite _ => true
  | .writeSiteComplete _ => true
  | .housePut _ => true
  | .houseGet _ => true
  | .houseRemove _ => true
  | .houseFind _ => true
  | .freeze _ _ _ => true
  | .thaw _ _ => true
  | .orderSubmit _ => true
  | .orderRead _ _ => true
  | .orderCancel _ => true
  | .orderRelease _ => true
  | .orderList => true
  | .setFloor _ => true
  | .phaseHold _ => true
  | .holdTakesEffect _ => true
  | .phaseResume _ => true
  | .phaseStats _ _ => true
  | .standingRead _ => true
  | .reset => true
  | .orderClosingEnd tag => decide (tag ≠ 0)
  | .clockIncrement => true
  | .orderExpiry => true
  | .adoption tag => decide (tag ≠ 0)
  | .selfRestore _ => true
  | .refreshTimerFire _ => true
  | .zeroCrossing _ _ => true
  | .phaseReturn _ => true
  | .phaseLost _ => true
  | .quietAssert _ => true
  | .quietInputRelease _ => true
  | .quietReleaseTimeout => true
  | .guardEnd _ => true
  | .sendComplete _ => true
  | .relayEnd _ => true
  | .slotPlannedEnd _ => true
  | .lineFrameTaken _ f => f.wellFormed
  | .linkByteReceived _ => true
  | .frontEndFrameComplete _ f => f.wellFormed
  | .subcountAdvance => true

end Sys2Proof
end

