-- ==== Sys2Proof/Tests/Slice0.lean ====
section
/-! SUPPORT. Tests: worked figures and tables of the spec on single commands, the checks of WellFormed, and for each
statement with hypotheses a state and operands that meet them (the `witness_` theorems). -/

namespace Sys2Proof.Tests

open Sys2Proof.Machine

-- The kernel's evaluations one after another: many at once would each take a thread.
set_option Elab.async false

/-! ### Small states -/

/-- A line controller with no cause, no slot and nothing waiting. -/
def freeLine : Line := ⟨⟨false, false, false, false⟩, false, .none, false, none, none, noStats, [], 0⟩

/-- A PRESENT phase at HC 1000, its last crossing at 50,000 µs and its period 10,004 µs. -/
def steady : Mains := ⟨.present, some 50000, 64, List.replicate 16 10004, 10004, 1000⟩

/-- A WRITTEN store, a clock at 1,000,000 s and 250 ms, three PRESENT phases, empty tables, and a FREE transmitter. -/
def ready : State where
  pending := []
  orm := ⟨[], 1, 0, 7⟩
  dir := ⟨[], []⟩
  lines := ⟨freeLine, freeLine, freeLine⟩
  rfs := State.reset.rfs
  mtb := ⟨⟨steady, steady, steady⟩, 50000, ⟨true, 1000000, 250, 0⟩, false, false, none⟩
  rlc := ⟨.hunt, none, none, .free, [], false, false, .power⟩
  scs := ⟨.written, 0x3A10C5, .written, .holds 0x3A10C5, none⟩
  params := ⟨2, 1, 900, 600, 1⟩
  picks := 0

def withLink (s : State) (r : Rlc) : State := { s with rlc := r }
def withHouses (s : State) (l : List (Nat × House)) : State := { s with dir := { s.dir with houses := l } }
def withFreezes (s : State) (l : List Freeze) : State := { s with dir := { s.dir with freezes := l } }
def withStore (s : State) (x : Scs) : State := { s with scs := x }
def withClock (s : State) (c : Clock) : State := { s with mtb := { s.mtb with clock := c } }
def withTags (s : State) (tag : Tag) (seq : BitVec 32) : State :=
  { s with orm := { s.orm with tagCounter := tag, seqCounter := seq } }

/-- A healthy house with an empty route. -/
def plainHouse (address : Addr) (p : Phase) (groups : BitVec 16) : House := ⟨address, p, groups, [], 0, 0, .good, none⟩

/-- Phase progress at its first values, in a stage. -/
def fresh (st : Stage) : Progress := ⟨st, 0, .at 0, 0, 0, 0, 0, 0, 0, 0, 0, false⟩

/-- A WAITING order involved on phase A, of policy NONE, one repeat and no effective time. -/
def waiting (tag : Tag) (body : OrderBody) : Order :=
  ⟨tag, 0, body, 3, none, 1100000, 1, .none, 3, .ascending, .waiting, none, none,
    ⟨fresh .queued, fresh .notInvolved, fresh .notInvolved⟩, [], 0, none,
    match body with | .query _ => none | _ => some .pending, false⟩

/-- The order serving phase A, its progress there as given. -/
def serving (tag : Tag) (body : OrderBody) (pp : Progress) : Order :=
  { waiting tag body with state := .running, progress := ⟨pp, fresh .notInvolved, fresh .notInvolved⟩ }

/-- A part of what a command leaves. -/
def after {α : Type} (c : Instr) (s : State) (f : State → α) : Option α :=
  match exec c s with
  | .next t => some (f t)
  | _ => none

/-- The code and further bytes of the reply that is owed. -/
def owedReply (s : State) : Option (Code × List Byte) :=
  match s.rlc.processing with
  | some ⟨_, .owed r⟩ => some (r.code, r.rest)
  | _ => none

/-- The reply a request draws. -/
def replyOf (c : Instr) (s : State) : Option (Code × List Byte) := (after c s owedReply).getD none

/-! ### Well-formedness -/

theorem test_wf_length_0 : (Instr.recordComplete (.badLength 0)).wellFormed = true := by decide
theorem test_wf_length_250 : (Instr.recordComplete (.badLength 250)).wellFormed = false := by decide
theorem test_wf_length_251 : (Instr.recordComplete (.badLength 251)).wellFormed = true := by decide
theorem test_wf_body_250 : (Instr.recordComplete (.whole 1 (List.replicate 250 0) 0)).wellFormed = false := by decide +kernel
theorem test_wf_closing_tag_0 : (Instr.orderClosingEnd 0).wellFormed = false := by decide
theorem test_wf_adoption_tag_0 : (Instr.adoption 0).wellFormed = false := by decide

/-- A SHORT reply to the test site, with its CRC in the last two bytes. -/
def shortReply (address : Addr) (status : Byte) (tag : Tag) (margin : Byte) : RxFrame :=
  let l := [0x90] ++ bytes24 0x3A10C5 ++ bytes24 address ++ [status] ++ bytes16 tag ++ [margin, 0]
  ⟨l ++ bytes16 (crc16 l), true, 0x40, 0⟩

/-- A LONG reply: band 3, relay ON, groups 0010h, tags 12 and 13, override and margin 5. -/
def longReply (address : Addr) : RxFrame :=
  let l := [0xA0] ++ bytes24 0x3A10C5 ++ bytes24 address
    ++ [0x03, 0x01, 0x00, 0x10, 0x00, 0x0C, 0x00, 0x0D, 0x85, 0x00]
  ⟨l ++ bytes16 (crc16 l), true, 0x41, 0⟩

theorem test_wf_short_reply : (Instr.lineFrameTaken .a (shortReply 0x41C05F 1 620 9)).wellFormed = true := by decide +kernel
theorem test_wf_long_reply : (Instr.frontEndFrameComplete .a (longReply 0x41C05F)).wellFormed = true := by decide +kernel
theorem test_wf_frame_cut_short :
    (Instr.lineFrameTaken .a { shortReply 0x41C05F 1 620 9 with bytes := [0x90, 0x3A] }).wellFormed = false := by
  decide +kernel
theorem test_wf_frame_wrong_crc :
    (Instr.frontEndFrameComplete .a
      { shortReply 0x41C05F 1 620 9 with bytes := List.replicate 14 0x90 }).wellFormed = false := by
  decide +kernel

/-! ### Worked figures -/

/-- R165: the CRC over the nine ASCII characters "123456789" is 29B1h. -/
theorem test_crc_check_value : crc16 [0x31, 0x32, 0x33, 0x34, 0x35, 0x36, 0x37, 0x38, 0x39] = 0x29B1 := by decide +kernel

/-- R7: newer is judged modulo 65536, and tags 32768 apart are neither newer nor older. -/
theorem test_tag_newer :
    (tagNewer 1 65535, tagNewer 65535 1, tagNewer 32769 1, tagNewer 1 32769, tagNewer 5 5)
      = (true, false, false, false, false) := by decide

/-- 03, worked figures: a staging point in a broadcast slot, an idle line with one repeater, and an early end. -/
theorem test_delay_figures :
    (delayField (predictedEnd 1000000250 (outboundSpan 4 2 4 0) 10004) (some 1000060),
      delayField (predictedEnd 1000000250 (outboundSpan 1 2 7 1) 10004) (some 1000060),
      delayField (predictedEnd 2000100480 (outboundSpan 13 2 7 1) 9998) (some 2000400),
      delayField (predictedEnd 2000100600 (outboundSpan 0 2 6 0) 9998) (some 2000400)) = (597, 596, 2993, 2994) := by
  decide

/-- 03, segment figure and the longest slot at default settings: 30, 47 and 15 half-cycles. -/
theorem test_planned_lengths :
    (plannedLength 2 7 1 1 (some 5), plannedLength 2 6 2 1 (some 7), plannedLength 2 6 0 1 (some 5)) = (30, 47, 15) := by
  decide

/-- 06, example: 897 s before restore-until a REFRESH carries 15 minutes. -/
theorem test_refresh_minutes : remainingMinutes (some 5001800) 5000903 = 15 := by decide

/-- 07, example: the period at the return is 10,003 µs, and stays so with the next interval. -/
theorem test_period_example :
    periodOf (List.replicate 8 9996 ++ List.replicate 8 10010) = 10003
      ∧ periodOf (joinHistory (List.replicate 8 9996 ++ List.replicate 8 10010) 10004) = 10003 := by decide

/-- Table 2-2. -/
theorem test_health_levels :
    [2, 3, 7, 8, 15].map healthOf = [.good, .weak, .weak, .silent, .silent] := by decide

/-- Table 11-2: a STARTED (POWER) notice on the wire opens with C3h 02h C0h 01h. -/
theorem test_notice_wire : ((Outgoing.notice (.started .power)).wire.take 4) = [0xC3, 0x02, 0xC0, 0x01] := by decide

/-! ### Requests -/

/-- 01, example: ORDER_SUBMIT with repeat count 6, retry limit 0 and an expiry 700,000 s ahead is stored clamped, as tag 42
and sequence 117. -/
def submitExample : SubmitFields := ⟨2, 3, 0, 0, 90, 2, 0, 0, 1700000, 6, 1, 0, 0⟩

def submitState : State :=
  withTags (withHouses (withTable ready [waiting 41 (.relay 3 .on none)])
    [(1, plainHouse 0x20A001 .a 0x0008), (2, plainHouse 0x20A002 .c 0x0008)]) 42 117

theorem test_submit_reply :
    replyOf (.orderSubmit submitExample) submitState
      = some (.clamped, [0x00, 0x2A, 0x00, 0x00, 0x00, 0x75, 0x04, 0x01, 0x00, 0x18, 0x7C, 0xC0]) := by decide +kernel

theorem test_submit_table :
    after (.orderSubmit submitExample) submitState
      (fun t => (t.orm.table.map fun o => (o.tag, o.state), t.orm.tagCounter, t.orm.seqCounter, t.rlc.notices))
      = some ([(41, .superseded), (42, .waiting)], 43, 118, [.orderEnd 41 .superseded]) := by decide +kernel

/-- 02, example of routes: the counts of entries 10 and 11 become 1. -/
def routeHouses : List (Nat × House) :=
  [(10, plainHouse 0x20A001 .b 4), (11, plainHouse 0x20A002 .b 4), (12, plainHouse 0x20A003 .b 0x24)]

theorem test_put_route :
    after (.housePut ⟨12, 0x20A003, 2, 0x24, 2, 10, 11⟩) (withHouses ready routeHouses)
      (fun t => t.dir.houses.map fun e => (e.1, e.2.route, e.2.refCount))
      = some [(10, [], 1), (11, [], 1), (12, [10, 11], 0)] := by decide +kernel

theorem test_put_duplicate :
    replyOf (.housePut ⟨14, 0x20A002, 2, 4, 0, 0, 0⟩) (withHouses ready routeHouses) = some (.duplicate, []) := by
  decide +kernel

theorem test_remove_in_use :
    replyOf (.houseRemove 10)
      (withHouses ready [(10, { plainHouse 0x20A001 .b 4 with refCount := 1 }),
        (12, { plainHouse 0x20A003 .b 4 with route := [10] })]) = some (.inUse, []) := by decide +kernel

/-- Table 11-7: HOUSE_GET answers with 21 bytes, the code among them. -/
theorem test_get_house_length :
    (replyOf (.houseGet 11) (withHouses ready routeHouses)).map (fun r => r.2.length + 1) = some 21 := by decide +kernel

theorem test_find_house :
    replyOf (.houseFind 0x20A002) (withHouses ready routeHouses) = some (.ok, [0, 11, 2]) := by decide +kernel

/-- 02, example of overlapping ranges: THAW(100, 199) removes one range. -/
def rangeExample : List Freeze := [⟨100, 199, .soft⟩, ⟨150, 160, .hard⟩, ⟨180, 250, .soft⟩]

theorem test_freeze_third :
    after (.freeze 180 250 0) (withFreezes ready (rangeExample.take 2)) (fun t => t.dir.freezes) = some rangeExample := by
  decide +kernel

theorem test_thaw_example :
    replyOf (.thaw 100 199) (withFreezes ready rangeExample)
      = some (.ok, [1, 2, 0, 150, 0, 160, 1, 0, 180, 0, 250, 0] ++ List.replicate 10 0) := by decide +kernel

/-- The same example: RESET leaves the HARD range alone. -/
theorem test_reset_ranges :
    after .reset (withFreezes ready [⟨150, 160, .hard⟩, ⟨180, 250, .soft⟩]) (fun t => t.dir.freezes)
      = some [⟨150, 160, .hard⟩] := by decide +kernel

/-- Table 11-8: GET_STATUS answers with 40 bytes, the code among them. -/
theorem test_status_length : (replyOf .getStatus ready).map (fun r => r.2.length + 1) = some 40 := by decide +kernel

theorem test_get_time : replyOf .getTime ready = some (.ok, [0x00, 0x0F, 0x42, 0x40, 0x00, 0xFA, 0x01]) := by
  decide +kernel

theorem test_set_time_reply :
    replyOf (.setTime 7) ready
      = some (.ok, [0, 0, 0, 7, 0x00, 0x0F, 0x42, 0x40, 0x00, 0xFA, 0x01]) := by decide +kernel

/-- 09, example: TAG_BASE 0 is stored as 1 and answered CLAMPED; 812 loads the counter. -/
theorem test_tag_base_0 : replyOf (.setConfig 5 0) ready = some (.clamped, [5, 0, 1]) := by decide +kernel
theorem test_tag_base_812 : after (.setConfig 5 812) ready (fun t => t.orm.tagCounter) = some 812 := by decide +kernel
theorem test_get_config : replyOf (.getConfig 3) ready = some (.ok, [3, 0x03, 0x84, 0, 0]) := by decide +kernel
theorem test_set_floor : replyOf (.setFloor 8) ready = some (.clamped, [7]) := by decide +kernel

/-- 09, example: a WRITE_SITE of a BLANK part stays in HANDLING until its readback, and then SITE leaves every phase. -/
theorem test_write_site_begins :
    after (.writeSite 0x3A10C5) State.reset (fun t => (t.scs.programming, t.rlc.processing.map (·.stage)))
      = some (some 0x3A10C5, some .handling) := by decide +kernel

/-- The same part while it programs. -/
def writingState : State :=
  withStore (withLink State.reset
    { State.reset.rlc with processing := some ⟨requestRecord (.writeSite 0x3A10C5), .handling⟩ })
    { Scs.blank with programming := some 0x3A10C5 }

theorem test_write_site_ends :
    after (.writeSiteComplete true) writingState (fun t => (t.scs.state, (t.line .a).causes, owedReply t))
      = some (.written, ⟨false, true, false, false⟩, some (.ok, [0x3A, 0x10, 0xC5])) := by decide +kernel

/-- Table 11-7: a RECORD section answers with 108 bytes, a MISSES section of an empty list with 5. -/
theorem test_order_read_lengths :
    [1, 2].map (fun x => (replyOf (.orderRead 41 x) submitState).map fun r => r.2.length + 1) = [some 108, some 5] := by
  decide +kernel
theorem test_order_list : replyOf .orderList submitState = some (.ok, [1, 0, 41, 2, 3, 3, 1]) := by decide +kernel
theorem test_cancel_waiting :
    after (.orderCancel 41) submitState (fun t => (owedReply t, t.orm.table.map (·.state)))
      = some (some (.ok, [0x08]), [.cancelled]) := by decide +kernel
theorem test_release_live : replyOf (.orderRelease 41) submitState = some (.notFinished, []) := by decide +kernel
theorem test_phase_hold_free : replyOf (.phaseHold 1) ready = some (.ok, [0x02]) := by decide +kernel
theorem test_phase_resume_none : replyOf (.phaseResume 3) ready = some (.ok, [0x00]) := by decide +kernel
theorem test_phase_stats_length : (replyOf (.phaseStats 2 1) ready).map (fun r => r.2.length + 1) = some 15 := by
  decide +kernel
theorem test_standing_read_length : (replyOf (.standingRead 15) ready).map (fun r => r.2.length + 1) = some 31 := by
  decide +kernel

/-! ### The link -/

/-- GET_TIME received byte by byte: SOF, length 1, type 04h and its CRC. -/
theorem test_link_get_time :
    (match receiveAll ([0xC3, 0x01, 0x04] ++ bytes16 (crc16 [0x01, 0x04])) ready with
      | .next t => (owedReply t).map (·.1)
      | _ => none) = some .ok := by decide +kernel

/-- R143: a length byte of 251 completes the record at once, and an ERROR reply of BAD_LENGTH and type 0 is owed. -/
theorem test_link_length_251 :
    after (.linkByteReceived 251) (withLink ready { ready.rlc with receiver := .record [] })
      (fun t => (t.rlc.receiver, owedReply t)) = some (.hunt, some (.badLength, [0])) := by decide +kernel

/-- 08, example, step 3: with both places taken the record is discarded and overrun is set. -/
def owingLink : Rlc :=
  { ready.rlc with
    processing := some ⟨requestRecord .getTime, .owed ⟨0x84, .ok, []⟩⟩
    transmitter := .sending (.notice (.quiet true))
    notices := [.phase .b .lost 10000, .orderEnd 41 .superseded] }

theorem test_request_discarded :
    after .orderList (withLink ready { owingLink with holding := some (requestRecord (.houseGet 1)) })
      (fun t => (t.rlc.overrun, t.rlc.holding)) = some (true, some (requestRecord (.houseGet 1))) := by decide +kernel

/-- 08, example, step 4: when the notice ends, the owed reply goes before the queued notices. -/
theorem test_reply_goes_first :
    after .transmitEnd (withLink ready owingLink) (fun t => (t.rlc.transmitter, t.rlc.notices.length))
      = some (.sending (.reply ⟨0x84, .ok, []⟩), 2) := by decide +kernel

/-- 09, example: at power-up STARTED (POWER) waits, and a fresh part's phases are BLOCKED by SITE and LOST. -/
theorem test_power_up :
    after (.powerUp false false) State.reset (fun t => (t.rlc.notices, (t.line .b).causes, t.scs.state))
      = some ([.started .power], ⟨true, true, false, false⟩, .blank) := by decide +kernel

/-! ### Crossings and slots -/

/-- 10.1 at HC 1000: at an idle crossing repeat 1 is composed for HC 1001, and the order is RUNNING. -/
def bandOrder : Order := { waiting 500 (.band 4 3) with repeatCount := 2 }

theorem test_idle_crossing_composes :
    after (.zeroCrossing .a 60000) (withTable ready [bandOrder])
      (fun t => ((t.line .a).staged.map fun f => (f.step, f.plannedStart, f.planned), t.orm.table.map (·.state)))
      = some (some (.repeatNo 1, 1002, 6), [.running]) := by decide +kernel

/-- A slot of the order's repeat 1 on phase A, `offset` half-cycles after its start. -/
def repeatFrame : Frame :=
  ⟨.order 500, .repeatNo 1, .groupBand 0x3A10C5 4 500 3 0, none, [], 2, 4, 0, none, none, 6, 999, 1000, none⟩

/-- The place of an order before a slot that did not move its cursor. -/
def placeOf (f : Frame) : Option Place :=
  match f.step with
  | .attempt i _ => some ⟨.at i, 0⟩
  | .refresh => none
  | _ => some ⟨.at 0, 0⟩

def slotLine (sg : Segment) (f : Frame) (start : Hc) (allowance : Option Nat) : Line :=
  { freeLine with segment := sg, txEnable := decide (sg = .send), onLine := some ⟨f, start, allowance, placeOf f⟩ }

def repeatSlot (sg : Segment) (start : Hc) : State :=
  withLine (withTable ready [{ serving 500 (.band 4 3) { fresh .serving with inFlight := true } with repeatCount := 2 }])
    .a (slotLine sg repeatFrame start none)

/-- 10.1 at HC 1003: SEND begins, with the transmit enable, and repeat 2 is staged for the gap. -/
theorem test_send_begins :
    after (.guardEnd .a) (repeatSlot .guard 998)
      (fun t => ((t.line .a).segment, (t.line .a).txEnable, (t.line .a).staged.map fun f => (f.step, f.plannedStart)))
      = some (.send, true, some (.repeatNo 2, 1004)) := by decide +kernel

/-- 10.1 at HC 1007: at the gap repeat 1 is counted. -/
theorem test_repeat_counted :
    after (.sendComplete .a) (repeatSlot .send 994)
      (fun t => (t.orm.table.map fun o => (o.progress.get .a).repeatsSent, (t.line .a).stats.framesSent))
      = some ([1], 1) := by decide +kernel

/-- 10.1, QUIET: the slot in SEND is aborted, its repeat stays uncounted and its stage SERVING. -/
theorem test_quiet_aborts_send :
    after (.quietAssert 55000) (repeatSlot .send 998)
      (fun t => ((t.line .a).segment, (t.line .a).stats.slotsAborted, (t.line .a).causes.quiet,
        t.orm.table.map fun o => ((o.progress.get .a).stage, (o.progress.get .a).repeatsSent)))
      = some (.none, 1, true, [(.serving, 0)]) := by decide +kernel

/-- An addressed slot: attempt 1 of order 800 at entry 150, as in 10.4. -/
def attemptFrame : Frame :=
  ⟨.order 800, .attempt 150 1, .directBand 0x3A10C5 0x41C150 [] 800 1 0 1 2, some 150, [], 2, 6, 0, some 5, some 1, 15,
    983, 984, none⟩

def sweepOrder : Order :=
  { serving 800 (.band 6 1) { fresh .serving with repeatsSent := 1, cursor := .at 150, inFlight := true } with
    policy := .all, retryLimit := 2 }

def sweepHouses : List (Nat × House) := [(150, plainHouse 0x41C150 .a 0x0040), (162, plainHouse 0x41C162 .a 0x0040)]

def sweepSlot (sg : Segment) (start : Hc) : State :=
  withLine (withHouses (withTable ready [sweepOrder]) sweepHouses) .a (slotLine sg attemptFrame start (some 2))

/-- R84: QUIET aborts a slot whose start moved the cursor on from 149, and the cursor and the attempts stand again as before
it. -/
theorem test_abort_puts_cursor_back :
    after (.quietAssert 55000)
        (withLine (sweepSlot .none 0) .a
          { slotLine .guard attemptFrame 999 (some 2) with onLine := some ⟨attemptFrame, 999, some 2, some ⟨.at 149, 1⟩⟩ })
        (fun t => ((t.line .a).segment, t.orm.table.map fun o =>
          ((o.progress.get .a).cursor, (o.progress.get .a).attempts, (o.progress.get .a).inFlight, (o.progress.get .a).stage)))
      = some (.none, [(.at 149, 1, false, .serving)]) := by decide +kernel

/-- 10.4: the reply HELD to tag 800 confirms entry 150 and moves the cursor to 162. -/
theorem test_reply_confirms :
    after (.lineFrameTaken .a (shortReply 0x41C150 2 800 9)) (sweepSlot .listen 986)
      (fun t => (t.orm.table.map fun o => ((o.progress.get .a).confirmed, (o.progress.get .a).cursor),
        (t.house 150).map (·.margin)))
      = some ([(1, .at 162)], some (some 9)) := by decide +kernel

/-- 10.4, other ways: without a reply the attempt has failed, 1 below the allowance. -/
theorem test_silence_counts_attempt :
    after (.slotPlannedEnd .a) (sweepSlot .listen 985)
      (fun t => t.orm.table.map fun o => ((o.progress.get .a).attempts, (o.progress.get .a).cursor))
      = some [(1, .at 150)] := by decide +kernel

/-- R89: a frame of another site is foreign. -/
theorem test_foreign_frame :
    after (.lineFrameTaken .a { shortReply 0x41C150 2 800 9 with bytes := [0x90, 0, 0, 1] }) (sweepSlot .listen 986)
      (fun t => (t.line .a).stats.foreign) = some 1 := by decide +kernel

/-- R90 and R109: a rejected reply at the planned end leaves the step that was staged, but the staged frame does not stand;
attempt 2 is composed at the gap. -/
theorem test_answered_frame_falls :
    after (.lineFrameTaken .a (shortReply 0x41C150 9 800 9))
      (withLine (sweepSlot .listen 985) .a
        { (sweepSlot .listen 985).line .a with
          staged := some { attemptFrame with step := .attempt 150 2, composedAt := 993, plannedStart := 1000 } })
      (fun t => (t.line .a).onLine.map fun ol => (ol.frame.step, ol.frame.composedAt, ol.start))
      = some (some (.attempt 150 2, 1000, 1000)) := by decide +kernel

/-- R83, step 5, and R88: a RESET that aborts a slot discards the frame in reception, which is then not taken. -/
theorem test_reset_cuts_reception :
    after .reset (sweepSlot .listen 986) (fun t => ((t.line .a).cuts, (t.line .b).cuts)) = some (1, 0) := by decide +kernel
theorem test_cut_frame_is_not_taken :
    after (.frontEndFrameComplete .a (shortReply 0x41C150 2 800 9)) (withLine ready .a { freeLine with cuts := 1 })
      (fun t => (t.line .a).waiting) = some [] := by decide +kernel

/-- 07, example: the loss keeps HC and the period and empties the history. -/
theorem test_phase_lost :
    after (.phaseLost .c) ready
      (fun t => ((t.mains .c).history, (t.mains .c).hc, (t.mains .c).period, (t.line .c).causes.lost, t.mtb.timebase))
      = some ([], 1000, 10004, true, 75000) := by decide +kernel

/-- R131: an edge 7,999 µs after the last accepted crossing is no crossing. -/
theorem test_glitch : after (.zeroCrossing .a 57999) ready (fun t => (t.mains .a).hc) = some 1000 := by decide +kernel

/-- R135: the 64th interval in range completes the return. -/
theorem test_return :
    after (.zeroCrossing .a 60004)
      (withMains ready .a ⟨.lost, some 50000, 63, List.replicate 16 10004, 9990, 5⟩ 0)
      (fun t => ((t.mains .a).presence, (t.mains .a).period, (t.mains .a).hc)) = some (.present, 10004, 5) := by
  decide +kernel

/-! ### The clock -/

/-- 06, example: at 5,000,000 order 77 is adopted with restore-until 5,001,800 and next refresh 5,000,900. -/
def shedOrder : Order :=
  { waiting 77 (.relay 6 .shed (some 30)) with
    effective := some 5000000, state := .complete, finishedAt := some 4999640, repeatCount := 2
    progress := ⟨{ fresh .done with repeatsSent := 2 }, { fresh .done with repeatsSent := 2 }, fresh .notInvolved⟩ }

def shedState : State :=
  withStanding (withTable (withClock ready ⟨true, 4999999, 0, 0⟩) [shedOrder]) 6
    ⟨some (2, 70), some (.on, 71), none, some 5000300, 4⟩

theorem test_clock_adopts :
    after .clockIncrement shedState (fun t => t.standing 6)
      = some ⟨some (2, 70), some (.shed, 77), some 5001800, some 5000900, 5⟩ := by decide +kernel

theorem test_self_restore :
    after (.selfRestore 6)
      (withStanding (withClock ready ⟨true, 5001800, 0, 0⟩) 6 ⟨some (2, 70), some (.shed, 77), some 5001800, some 5002700, 5⟩)
      (fun t => t.standing 6) = some ⟨some (2, 70), some (.on, 77), none, some 5002700, 6⟩ := by decide +kernel

/-- 10.3: at 6,000,100 group 1 fires, and its next refresh is 6,001,000. -/
def dueState : State :=
  withStanding (withHouses (withClock ready ⟨true, 6000100, 0, 0⟩) [(1, plainHouse 0x41C001 .a 0x0002)]) 1
    ⟨some (2, 11), none, none, some 6000100, 1⟩

theorem test_timer_fires :
    after (.refreshTimerFire 1) dueState (fun t => (t.queue .a, t.queue .b, (t.standing 1).nextRefresh))
      = some ([⟨1, 6000100⟩], [], some 6001000) := by decide +kernel

/-- R122: a group that fired as the clock stopped at its greatest reading does not fire again. -/
theorem test_timer_at_stopped_clock :
    after (.refreshTimerFire 1)
      (withStanding (withClock dueState ⟨true, 4294967295, 0, 0⟩) 1 ⟨some (2, 11), none, none, some 4294967295, 1⟩)
      (fun t => t.queue .a) = some [] := by decide +kernel

/-- R67: once the clock has reached an order's effective time, a SET_TIME to an earlier second leaves its delay 0. -/
theorem test_reached_order_keeps_delay_0 :
    after (.setTime 10) (withTable ready [{ bandOrder with effective := some 1000000, reached := true }])
      (fun t => t.orm.table.map fun o => t.delayFor .a 1 12 0 o) = some [0] := by decide +kernel
theorem test_set_time_reaches :
    after (.setTime 1000060) (withTable ready [{ bandOrder with effective := some 1000060 }])
      (fun t => t.orm.table.map (·.reached)) = some [true] := by decide +kernel

theorem test_expiry_at_now :
    after .orderExpiry (withTable ready [{ bandOrder with expiry := 1000000 }]) (fun t => t.orm.table.map (·.state))
      = some [.expired] := by decide +kernel

theorem test_subcount : after .subcountAdvance ready (fun t => t.mtb.clock.subcount) = some 251 := by decide +kernel

/-! ### Idle block and words -/

theorem test_empty_queue_idles : (match step ready with | .next t => decide (t = ready) | _ => false) = true := by
  decide +kernel

theorem test_no_word_spells_a_command : decodeTableWord 8 0 = none := rfl

/-! ### Witnesses: the link, reset and settings -/

/-- What holds of each phase by name holds of every phase. -/
theorem every_phase {P : Phase → Prop} (h : EachPhase P) : ∀ p, P p := fun p => by
  cases p
  · exact h.1
  · exact h.2.1
  · exact h.2.2

theorem witness_StepRunsFrontCommand : (ready.withPending [.getTime, .reset]).pending = .getTime :: [.reset] := rfl

theorem witness_RequestWaitsOrIsDiscarded :
    (owingLink.processing ≠ none ∧ owingLink.holding = none)
      ∧ ((withLink ready { owingLink with holding := some (.badLength 0) }).rlc.processing ≠ none
        ∧ (withLink ready { owingLink with holding := some (.badLength 0) }).rlc.holding ≠ none) := by decide

/-- Met by every statement whose one premise is that no request is in processing. -/
theorem witness_no_request_in_processing : ready.rlc.processing = none := rfl

theorem witness_ReceivedBytesMakeTheRequest : ready.rlc.receiver = .hunt ∧ ready.pump = ready := by decide +kernel

theorem witness_EnvelopeErrors :
    ready.rlc.processing = none
      ∧ (0 : BitVec 16) ≠ crc16 (covered 0x04 [])
      ∧ (∀ n, ((0x08 : Byte), n) ∉ catalogue)
      ∧ ((0x06 : Byte), 1) ∈ catalogue ∧ ([] : List Byte).length ≠ 1 := by
  refine ⟨rfl, by decide +kernel, fun n => ?_, by decide, by decide⟩
  simp [catalogue]

theorem witness_ReceiverEvents :
    ready.rlc.receiver = .hunt ∧ (0xC2 : Byte) ≠ 0xC3
      ∧ (withLink ready { ready.rlc with receiver := .record [] }).rlc.receiver = .record []
      ∧ (1 ≤ (1 : Byte).toNat ∧ (250 : Byte).toNat ≤ 250)
      ∧ (withLink ready { ready.rlc with receiver := .record [1, 4] }).rlc.receiver = .record (1 :: [4])
      ∧ ([4] : List Byte).length + 2 < (1 : Byte).toNat + 3
      ∧ ((0 : Byte).toNat = 0 ∧ 251 ≤ (251 : Byte).toNat)
      ∧ (withLink ready { ready.rlc with receiver := .record [1, 4, 0xA5] }).rlc.receiver = .record (1 :: 4 :: [] ++ [0xA5])
      ∧ ([] : List Byte).length + 1 = (1 : Byte).toNat := by
  decide

theorem witness_TransmitterBegins :
    (∃ s : State, ∃ rec reply, s.rlc.transmitter = .free ∧ s.rlc.processing = some ⟨rec, .owed reply⟩)
      ∧ (∃ s : State, ∃ n rest, s.rlc.transmitter = .free ∧ (∀ rec reply, s.rlc.processing ≠ some ⟨rec, .owed reply⟩)
        ∧ s.rlc.notices = n :: rest)
      ∧ ∃ s : State, ∃ x, s.rlc.transmitter = .sending x :=
  ⟨⟨withLink ready { owingLink with transmitter := .free }, _, _, rfl, rfl⟩,
    ⟨State.reset, _, _, rfl, (fun _ _ h => nomatch h), rfl⟩, withLink ready owingLink, _, rfl⟩

/-- The link while it sends the reply owed to GET_TIME. -/
def replyingLink : Rlc := { owingLink with transmitter := .sending (.reply ⟨0x84, .ok, []⟩) }

/-- A record that fails its envelope checks. -/
def badRecord : Record := .badLength 0

/-- Its clauses for a held record that is not good, at a reply's end and when it is taken, and for rows with nothing to act on. -/
theorem witness_TransmissionEnds_rows :
    (∃ s t : State, ∃ x, s.rlc.transmitter = .sending (.reply x) ∧ s.rlc.holding = some badRecord
        ∧ exec (.recordComplete badRecord)
            { s with rlc := { s.rlc with transmitter := .free, processing := none, holding := none } } = .next t)
      ∧ ready.rlc.transmitter = .free
      ∧ (∃ s t : State, s.rlc.processing = none ∧ s.rlc.holding = some badRecord
        ∧ exec (.recordComplete badRecord) { s with rlc := { s.rlc with holding := none } } = .next t)
      ∧ (withLink ready { owingLink with holding := some badRecord }).rlc.processing ≠ none ∧ ready.rlc.holding = none :=
  ⟨⟨withLink ready { replyingLink with holding := some badRecord }, _, _, rfl, rfl, rfl⟩, rfl,
    ⟨withLink ready { ready.rlc with holding := some badRecord }, _, rfl, rfl, rfl⟩, by decide, rfl⟩

theorem witness_TransmissionEnds :
    (withLink ready owingLink).rlc.transmitter = .sending (.notice (.quiet true))
      ∧ (replyingLink.transmitter = .sending (.reply ⟨0x84, .ok, []⟩) ∧ replyingLink.holding = none)
      ∧ (∃ r x, (withLink ready { replyingLink with holding := some (requestRecord .getStatus) }).rlc.holding
          = some (requestRecord r) ∧ replyingLink.transmitter = .sending (.reply x))
      ∧ (ready.rlc.processing = none
        ∧ (withLink ready { ready.rlc with holding := some (requestRecord .reset) }).rlc.holding
          = some (requestRecord .reset))
      ∧ (State.reset.rlc.processing = none ∧ State.reset.rlc.holding = none ∧ State.reset.rlc.transmitter = .free
        ∧ State.reset.rlc.notices = .started .power :: []) :=
  ⟨rfl, ⟨rfl, rfl⟩, ⟨.getStatus, _, rfl, rfl⟩, ⟨rfl, rfl⟩, rfl, rfl, rfl, rfl⟩

theorem witness_SendingIsNotInterrupted :
    (withLink ready owingLink).rlc.transmitter = .sending (.notice (.quiet true)) ∧ Instr.sendReply ≠ .transmitEnd
      ∧ (∀ quiet touched, Instr.sendReply ≠ .powerUp quiet touched)
      ∧ exec .sendReply (withLink ready owingLink) = .next (withLink ready owingLink) :=
  ⟨rfl, by decide, fun _ _ h => Instr.noConfusion h, rfl⟩

theorem witness_PowerUpState :
    (State.reset.scs.markCells = .unprogrammed ∧ State.reset.scs.codeCells = .unprogrammed)
      ∧ (ready.scs.markCells = .written ∧ ready.scs.codeCells = .holds 0x3A10C5 ∧ ready.scs.programming = none
        ∧ 1 ≤ (0x3A10C5 : Addr).toNat ∧ (0x3A10C5 : Addr).toNat ≤ 0xFFFFFE)
      ∧ ((withStore ready ⟨.fault, 0, .written, .holds 0xFFFFFF, none⟩).scs.markCells = .written
        ∧ (withStore ready ⟨.fault, 0, .written, .holds 0xFFFFFF, none⟩).scs.codeCells = .holds 0xFFFFFF
        ∧ 0xFFFFFE < (0xFFFFFF : Addr).toNat)
      ∧ (withStore ready ⟨.fault, 0, .fault, .partly, none⟩).scs.markCells = .fault := by decide

/-- Its clauses for the contents that are found as FAULT: an interrupted programming, a code under no mark, no whole code under
a WRITTEN mark, and a mark that is none of the three. -/
theorem witness_PowerUpState_fault :
    ((withStore ready { Scs.blank with programming := some 5 }).scs.programming ≠ none)
      ∧ ((withStore ready ⟨.fault, 0, .unprogrammed, .partly, none⟩).scs.markCells = .unprogrammed
        ∧ (withStore ready ⟨.fault, 0, .unprogrammed, .partly, none⟩).scs.codeCells ≠ .unprogrammed)
      ∧ ((withStore ready ⟨.fault, 0, .written, .unprogrammed, none⟩).scs.markCells = .written
        ∧ ∀ c : Addr, (withStore ready ⟨.fault, 0, .written, .unprogrammed, none⟩).scs.codeCells ≠ .holds c)
      ∧ (withStore ready ⟨.fault, 0, .other, .holds 5, none⟩).scs.markCells = .other :=
  ⟨by decide, by decide, ⟨rfl, fun _ h => nomatch h⟩, rfl⟩

theorem witness_GetTimeReports :
    (State.reset.rlc.processing = none ∧ State.reset.mtb.clock.Sound ∧ State.reset.mtb.clock.isSet = false)
      ∧ ((withClock ready ⟨true, 4294967295, 0, 0⟩).rlc.processing = none
        ∧ (withClock ready ⟨true, 4294967295, 0, 0⟩).mtb.clock.Sound
        ∧ (withClock ready ⟨true, 4294967295, 0, 0⟩).mtb.clock.seconds = 4294967295) := by decide

theorem witness_GetConfigReports :
    ready.rlc.processing = none ∧ (6 : Byte) ≠ 1 ∧ (6 : Byte) ≠ 2 ∧ (6 : Byte) ≠ 3 ∧ (6 : Byte) ≠ 4 ∧ (6 : Byte) ≠ 5 := by
  decide

theorem witness_SettingsAreStored :
    ready.rlc.processing = none
      ∧ ((0 : Byte) ≠ 1 ∧ (0 : Byte) ≠ 2 ∧ (0 : Byte) ≠ 3 ∧ (0 : Byte) ≠ 4 ∧ (0 : Byte) ≠ 5)
      ∧ 4 = min (max (5 : BitVec 16).toNat 1) 4 ∧ 3 = min (4 : BitVec 16).toNat 3
      ∧ 60 = min (max (59 : BitVec 16).toNat 60) 3600 ∧ 6000 = min (max (6000 : BitVec 16).toNat 60) 6000
      ∧ submitState.orm.table ≠ [] ∧ (ready.orm.table = [] ∧ 1 = max (0 : BitVec 16).toNat 1)
      ∧ 7 = min (8 : Byte).toNat 7 := by decide

theorem witness_SetTimeSets :
    submitState.rlc.processing = none ∧ submitState.orm.Sound ∧ submitState.orm.Distinct ∧ submitState.params.Sound
      ∧ submitState.dir.Sound := by
  and_intros <;> decide +kernel

/-! ### Witnesses: the directory -/

theorem witness_HouseGetReports :
    ready.rlc.processing = none ∧ 479 < (480 : BitVec 16).toNat
      ∧ ((479 : BitVec 16).toNat ≤ 479 ∧ ready.house (479 : BitVec 16).toNat = none)
      ∧ ((150 : BitVec 16).toNat ≤ 479
        ∧ (sweepSlot .listen 986).house (150 : BitVec 16).toNat = some (plainHouse 0x41C150 .a 0x0040)
        ∧ (false = true ↔ FrozenAt (sweepSlot .listen 986) (150 : BitVec 16).toNat)
        ∧ (true = true ↔ BusyAt (sweepSlot .listen 986) (150 : BitVec 16).toNat)) := by
  refine ⟨rfl, by decide, ⟨by decide, by decide⟩, by decide, by decide +kernel, ?_, ?_⟩
  · unfold FrozenAt; decide +kernel
  · exact ⟨fun _ => ⟨.a, attemptFrame, by decide +kernel, by decide +kernel⟩, fun _ => rfl⟩

theorem witness_HouseFindAnswers :
    (withHouses ready routeHouses).rlc.processing = none ∧ (withHouses ready routeHouses).dir.Sound
      ∧ ((0 : Addr).toNat = 0 ∧ 0xFFFFFE < (0xFFFFFF : Addr).toNat)
      ∧ (∃ h, (withHouses ready routeHouses).house 11 = some h ∧ h.address = 0x20A002)
      ∧ (1 ≤ (1 : Addr).toNat ∧ (0xFFFFFE : Addr).toNat ≤ 0xFFFFFE
        ∧ ∀ i h, ready.house i = some h → h.address ≠ 0xFFFFFE) :=
  ⟨rfl, by decide +kernel, by decide, ⟨_, rfl, by decide⟩, by decide, by decide, fun _ _ h => nomatch h⟩

/-- No line holds a frame, so no entry is busy. -/
theorem not_busy_of_no_frames {s : State} (h : EachPhase fun p => (s.line p).frames = []) (i : Nat) : ¬BusyAt s i := by
  rintro ⟨p, f, hf, -⟩
  rw [every_phase h p] at hf
  cases hf

/-- A request with an empty route at a vacant index. -/
def putPlain : PutFields := ⟨479, 0x20A009, 3, 0x0001, 0, 65535, 65535⟩

theorem putPlain_route (s : State) : PutRouteOk s putPlain :=
  ⟨List.nodup_nil, fun _ h => by cases h⟩

theorem putPlain_range : PutInRange putPlain := by unfold PutInRange; decide

theorem ready_not_frozen (i : Nat) (l : List (Nat × House)) : ¬FrozenAt (withHouses ready l) i := by
  rintro ⟨f, hf, -⟩
  cases hf

/-- The sweep's entries with the put of the entry on line, the address of another one, a repeater that is vacant, and an
index of too many hops. -/
theorem witness_HousePutIsChecked :
    ready.rlc.processing = none
      ∧ ¬PutInRange { putPlain with index := 480 }
      ∧ (PutInRange { putPlain with index := 155 }
        ∧ FrozenAt (withFreezes ready rangeExample) ({ putPlain with index := 155 } : PutFields).index.toNat)
      ∧ (PutInRange { putPlain with index := 150 }
        ∧ ¬FrozenAt (sweepSlot .listen 986) ({ putPlain with index := 150 } : PutFields).index.toNat
        ∧ BusyAt (sweepSlot .listen 986) ({ putPlain with index := 150 } : PutFields).index.toNat)
      ∧ (∀ i, ¬FrozenAt (withHouses ready routeHouses) i ∧ ¬BusyAt (withHouses ready routeHouses) i)
      ∧ (PutInRange ⟨14, 0x20A002, 2, 4, 0, 0, 0⟩
        ∧ AddressTaken (withHouses ready routeHouses) ⟨14, 0x20A002, 2, 4, 0, 0, 0⟩)
      ∧ (PutInRange ⟨13, 0x20A004, 3, 4, 1, 10, 0⟩
        ∧ ¬AddressTaken (withHouses ready routeHouses) ⟨13, 0x20A004, 3, 4, 1, 10, 0⟩
        ∧ ¬PutRouteOk (withHouses ready routeHouses) ⟨13, 0x20A004, 3, 4, 1, 10, 0⟩) := by
  refine ⟨rfl, by unfold PutInRange; decide, ⟨by unfold PutInRange; decide, by unfold FrozenAt; decide⟩,
    ⟨by unfold PutInRange; decide, by unfold FrozenAt; decide +kernel,
      ⟨.a, attemptFrame, by decide +kernel, by decide +kernel⟩⟩,
    fun i => ⟨ready_not_frozen i _, not_busy_of_no_frames (by decide) i⟩,
    ⟨by unfold PutInRange; decide, by unfold AddressTaken; decide⟩,
    by unfold PutInRange; decide, by unfold AddressTaken; decide, ?_⟩
  rintro ⟨-, h⟩
  obtain ⟨-, k, hk, hp, -⟩ := h 10 (by decide)
  have : k = plainHouse 0x20A001 .b 4 := by
    have h1 : (withHouses ready routeHouses).house 10 = some (plainHouse 0x20A001 .b 4) := by decide
    rw [h1] at hk; exact (Option.some.inj hk).symm
  subst this
  exact absurd hp (by decide)

/-- The last check of R37 fails: a route for an entry that is itself a repeater. -/
theorem witness_HousePutIsChecked_reference :
    ∃ s : State, ∃ f : PutFields, s.rlc.processing = none ∧ PutInRange f ∧ ¬FrozenAt s f.index.toNat
      ∧ ¬BusyAt s f.index.toNat ∧ ¬AddressTaken s f ∧ PutRouteOk s f ∧ ¬PutReferenceOk s f := by
  refine ⟨withHouses ready [(10, { plainHouse 0x20A001 .b 4 with refCount := 1 }),
      (12, { plainHouse 0x20A003 .b 4 with route := [10] })], ⟨10, 0x20A001, 3, 4, 0, 0, 0⟩, rfl,
    by unfold PutInRange; decide, ready_not_frozen _ _, not_busy_of_no_frames (by decide) _,
    by unfold AddressTaken; decide, ⟨by decide, fun _ h => nomatch h⟩, fun h => ?_⟩
  exact absurd (h { plainHouse 0x20A001 .b 4 with refCount := 1 } (by decide) (by decide)).1 (by decide)

theorem witness_HousePutEdits :
    (withHouses ready routeHouses).rlc.processing = none ∧ (withHouses ready routeHouses).dir.Sound
      ∧ PutPasses (withHouses ready routeHouses) putPlain
      ∧ (((withHouses ready routeHouses).house putPlain.index.toNat).map (·.route)).getD [] = [] := by
  refine ⟨rfl, by decide +kernel, ⟨putPlain_range, ready_not_frozen _ _, not_busy_of_no_frames (by decide) _,
    by unfold AddressTaken; decide, putPlain_route _, fun h hh => ?_⟩, by decide⟩
  have h1 : (withHouses ready routeHouses).house putPlain.index.toNat = none := by decide
  rw [h1] at hh
  cases hh

theorem witness_HouseRemoveDecides :
    (withHouses ready routeHouses).dir.Sound ∧ (withFreezes ready rangeExample).dir.Sound ∧ (sweepSlot .listen 986).dir.Sound
      ∧ 479 < (480 : BitVec 16).toNat
      ∧ FrozenAt (withFreezes ready rangeExample) (250 : BitVec 16).toNat
      ∧ (¬FrozenAt (sweepSlot .listen 986) (150 : BitVec 16).toNat ∧ BusyAt (sweepSlot .listen 986) (150 : BitVec 16).toNat)
      ∧ (∀ i, ¬FrozenAt (withHouses ready routeHouses) i ∧ ¬BusyAt (withHouses ready routeHouses) i)
      ∧ (withHouses ready routeHouses).house (479 : BitVec 16).toNat = none
      ∧ (∃ h, (withHouses ready routeHouses).house (10 : BitVec 16).toNat = some h ∧ h.refCount = 0)
      ∧ ∃ s : State, ∃ h, s.rlc.processing = none ∧ s.dir.Sound ∧ ¬FrozenAt s (10 : BitVec 16).toNat
        ∧ ¬BusyAt s (10 : BitVec 16).toNat ∧ s.house (10 : BitVec 16).toNat = some h ∧ h.refCount ≠ 0 :=
  ⟨by decide +kernel, by decide +kernel, by decide +kernel, by decide, by unfold FrozenAt; decide,
    ⟨by unfold FrozenAt; decide +kernel, .a, attemptFrame, by decide +kernel, by decide +kernel⟩,
    fun i => ⟨ready_not_frozen i _, not_busy_of_no_frames (by decide) i⟩, by decide, ⟨_, rfl, rfl⟩,
    withHouses ready [(10, { plainHouse 0x20A001 .b 4 with refCount := 1 }),
      (12, { plainHouse 0x20A003 .b 4 with route := [10] })], _, rfl, by decide +kernel, ready_not_frozen _ _,
    not_busy_of_no_frames (by decide) _, rfl, by decide⟩

theorem witness_FreezeAppends :
    ready.rlc.processing = none
      ∧ ¬((479 : BitVec 16).toNat ≤ (480 : BitVec 16).toNat ∧ (480 : BitVec 16).toNat ≤ 479 ∧ ((0 : Byte) = 0 ∨ (0 : Byte) = 1))
      ∧ ((0 : BitVec 16).toNat ≤ (479 : BitVec 16).toNat ∧ (479 : BitVec 16).toNat ≤ 479 ∧ (1 : Byte) = 1
        ∧ 4 ≤ (withFreezes ready (⟨0, 0, .soft⟩ :: rangeExample)).dir.freezes.length)
      ∧ (FreezeMode.hard.code = 1 ∧ (withFreezes ready rangeExample).dir.freezes.length < 4) := by decide

theorem witness_ThawRemoves :
    (withFreezes ready rangeExample).rlc.processing = none ∧ (withFreezes ready rangeExample).dir.FreezesSound
      ∧ ¬((479 : BitVec 16).toNat ≤ (480 : BitVec 16).toNat ∧ (480 : BitVec 16).toNat ≤ 479)
      ∧ ((100 : BitVec 16).toNat ≤ (199 : BitVec 16).toNat ∧ (199 : BitVec 16).toNat ≤ 479)
      ∧ ∃ t, exec (requestCommand (.thaw 0 479)) (withFreezes ready rangeExample) = .next t :=
  ⟨rfl, by decide, by decide, by decide, _, rfl⟩

/-! ### Witnesses: orders, holds, the store and the clock -/

/-- A QUERY submission of entry 479, one second before its expiry. -/
def queryFields : SubmitFields := ⟨3, 0, 479, 0, 0, 7, 0, 0, 1000001, 0, 0, 0, 0⟩

theorem witness_SubmitRefused :
    State.reset.rlc.processing = none ∧ State.reset.scs.state ≠ .written
      ∧ (withClock ready ⟨false, 0, 0, 0⟩).scs.state = .written ∧ (withClock ready ⟨false, 0, 0, 0⟩).mtb.clock.isSet = false
      ∧ ready.scs.state = .written ∧ ready.mtb.clock.isSet = true
      ∧ ¬SubmitInRange { submitExample with effFlag := 1, effective := 1604800 } ready.now := by
  unfold SubmitInRange; decide

theorem witness_SubmitRefused_vacant :
    ready.rlc.processing = none ∧ ready.scs.state = .written ∧ ready.mtb.clock.isSet = true
      ∧ SubmitInRange queryFields ready.now ∧ SubmitTargetVacant ready queryFields := by
  unfold SubmitInRange SubmitTargetVacant; decide

theorem witness_SubmitRefused_expiry :
    ready.rlc.processing = none ∧ ready.scs.state = .written ∧ ready.mtb.clock.isSet = true
      ∧ SubmitInRange { submitExample with expiry := 1000000 } ready.now
      ∧ ¬SubmitTargetVacant ready { submitExample with expiry := 1000000 }
      ∧ ({ submitExample with expiry := 1000000 } : SubmitFields).expiry.toNat ≤ ready.now := by
  unfold SubmitInRange SubmitTargetVacant; decide

theorem witness_SubmitRefused_members :
    ready.rlc.processing = none ∧ ready.scs.state = .written ∧ ready.mtb.clock.isSet = true
      ∧ SubmitInRange submitExample ready.now ∧ ¬SubmitTargetVacant ready submitExample
      ∧ ready.now < submitExample.expiry.toNat ∧ SubmitNoMember ready submitExample := by
  unfold SubmitInRange SubmitTargetVacant SubmitNoMember; decide

/-- The same part with its order table full. -/
def fullState : State := withTable submitState (List.replicate 32 bandOrder)

theorem witness_SubmitRefused_full :
    fullState.rlc.processing = none ∧ fullState.scs.state = .written ∧ fullState.mtb.clock.isSet = true
      ∧ SubmitInRange submitExample fullState.now ∧ ¬SubmitTargetVacant fullState submitExample
      ∧ fullState.now < submitExample.expiry.toNat ∧ ¬SubmitNoMember fullState submitExample
      ∧ 32 ≤ fullState.orm.table.length := by
  unfold SubmitInRange SubmitTargetVacant SubmitNoMember; decide +kernel

theorem witness_SubmitAdmits :
    submitState.rlc.processing = none ∧ submitState.orm.Sound ∧ submitState.orm.Distinct
      ∧ submitState.scs.state = .written ∧ submitState.mtb.clock.isSet = true ∧ SubmitInRange submitExample submitState.now
      ∧ ¬SubmitTargetVacant submitState submitExample ∧ submitState.now < submitExample.expiry.toNat
      ∧ ¬SubmitNoMember submitState submitExample ∧ submitState.orm.table.length < 32 := by
  unfold SubmitInRange SubmitTargetVacant SubmitNoMember
  and_intros <;> decide +kernel

/-- Its further clauses: a QUERY of an entry on phase A in a table with another record, and no record due for adoption. -/
theorem witness_SubmitAdmits_clauses :
    (∀ x ∈ (withTable ready [bandOrder]).orm.table, ¬DueForAdoption x 1000000)
      ∧ (queryFields.kind = 3 ∨ queryFields.repeats ≠ 0)
      ∧ (∃ x ∈ submitState.orm.table, SupersededBy (.relay 3 .shed (some 90)) x) := by decide +kernel

/-- The order it supersedes ends with its notice, and with repeat count 0 and no effective time the new one is due at once. -/
theorem witness_SubmitAdmits_superseded :
    (admitted submitState (waiting 42 (.relay 3 .shed (some 90)))).rlc.notices = [.orderEnd 41 .superseded]
      ∧ DueForAdoption
          { waiting 42 (.relay 3 .shed (some 90)) with repeatCount := 0, policy := .all, effective := none, mark := some .pending }
          submitState.now := by
  and_intros <;> decide +kernel

theorem witness_SubmitAdmits_query : SubmitInvolves (withHouses ready [(479, plainHouse 0x20A001 .a 0)]) queryFields .a :=
  .inr ⟨by decide, _, rfl, rfl⟩

theorem witness_SubmitAdmits_group : SubmitInvolves submitState submitExample .c :=
  .inl ⟨by decide, (2, plainHouse 0x20A002 .c 8), by decide, by decide⟩

theorem witness_SubmitAdmits_other_phase :
    ¬SubmitInvolves (withHouses ready [(479, plainHouse 0x20A001 .a 0)]) queryFields .b := by
  rintro (⟨h, -⟩ | ⟨-, h, hh, hp⟩)
  · exact absurd rfl h
  · have h1 : (withHouses ready [(479, plainHouse 0x20A001 .a 0)]).house queryFields.target.toNat
        = some (plainHouse 0x20A001 .a 0) := by decide
    rw [h1] at hh
    cases Option.some.inj hh
    exact absurd hp (by decide)

theorem witness_OrdersAreRead :
    submitState.rlc.processing = none ∧ submitState.orm.Distinct
      ∧ ((0 : Byte) ≠ 1 ∧ (3 : Byte) ≠ 2)
      ∧ ((1 : Byte) = 1 ∧ ∀ o ∈ submitState.orm.table, o.tag ≠ 40)
      ∧ (waiting 41 (.relay 3 .on none) ∈ submitState.orm.table ∧ (waiting 41 (.relay 3 .on none)).tag ≠ 0) :=
  ⟨rfl, by decide +kernel, by decide, by decide, by decide⟩

/-- An order of each kind of end: live, CLOSING with a slot in flight, and final. -/
def closingOrder : Order := { sweepOrder with state := .closing, closing := some .superseded }
def finalOrder : Order :=
  { waiting 7 (.query 150) with
    state := .expired, finishedAt := some 5
    progress := ⟨fresh .stopped, fresh .notInvolved, fresh .notInvolved⟩ }

theorem witness_OrdersAreCancelledAndReleased :
    (withTable ready [waiting 41 (.relay 3 .on none), closingOrder, finalOrder]).rlc.processing = none
      ∧ (withTable ready [waiting 41 (.relay 3 .on none), closingOrder, finalOrder]).orm.Distinct
      ∧ (∀ o ∈ [waiting 41 (.relay 3 .on none), closingOrder, finalOrder], o.tag ≠ 65535)
      ∧ (finalOrder.tag = 7 ∧ (7 : Tag) ≠ 0 ∧ finalOrder.state ≠ .waiting ∧ finalOrder.state ≠ .running
        ∧ finalOrder.state ≠ .closing)
      ∧ ((waiting 41 (.relay 3 .on none)).tag = 41 ∧ (waiting 41 (.relay 3 .on none)).state = .waiting)
      ∧ [waiting 41 (.relay 3 .on none), closingOrder, finalOrder]
          = [waiting 41 (.relay 3 .on none)] ++ closingOrder :: [finalOrder]
      ∧ closingOrder.state = .closing :=
  ⟨rfl, by decide +kernel, by decide, by decide, by decide, rfl, rfl⟩

theorem witness_PhaseHoldsAndResumes :
    ready.rlc.processing = none ∧ ((0 : Byte) ≠ 1 ∧ (4 : Byte) ≠ 2 ∧ (4 : Byte) ≠ 3)
      ∧ ready.line .a = freeLine ∧ (freeLine.causes.held = false ∧ freeLine.holdPending = false ∧ freeLine.segment = .none)
      ∧ ((repeatSlot .send 998).line .a).segment ≠ .none
      ∧ ({ freeLine with causes := ⟨false, false, false, true⟩ } : Line).causes.held = true
      ∧ (({ slotLine .send repeatFrame 998 none with holdPending := true } : Line).holdPending = true
        ∧ ({ slotLine .send repeatFrame 998 none with holdPending := true } : Line).segment ≠ .none)
      ∧ (withLine ready .a { freeLine with holdPending := true }).line .a = { freeLine with holdPending := true } := by
  decide

theorem witness_StatsAndStandingAreRead :
    ready.rlc.processing = none ∧ (4 : Byte) ≠ 3 ∧ (ready.line .b).stats = noStats ∧ 16 ≤ (16 : Byte).toNat
      ∧ dueState.standing 1 = ⟨some (2, 11), none, none, some 6000100, 1⟩
      ∧ ((dueState.queue .a).find? (fun e => e.group = (1 : Fin 16))).map (·.queuedAt) = none := by decide +kernel

theorem witness_SiteIsWritten :
    State.reset.rlc.processing = none
      ∧ ((0 : Addr).toNat = 0 ∧ 0xFFFFFE < (0xFFFFFF : Addr).toNat)
      ∧ (1 ≤ (1 : Addr).toNat ∧ (0xFFFFFE : Addr).toNat ≤ 0xFFFFFE)
      ∧ State.reset.scs.state = .blank ∧ ready.scs.state = .written
      ∧ (withStore ready ⟨.fault, 0, .fault, .partly, none⟩).scs.state = .fault
      ∧ (writingState.scs.programming = some 0x3A10C5
        ∧ writingState.rlc.processing = some ⟨requestRecord (.writeSite 0x3A10C5), .handling⟩)
      ∧ ready.scs.programming = none := by decide +kernel

theorem witness_ClockRuns :
    (ready.mtb.clock.isSet = true ∧ ready.mtb.clock.seconds < 4294967295 ∧ (998 : Nat) < 999)
      ∧ (withClock ready ⟨true, 5, 999, 0⟩).mtb.clock.subcount = 999
      ∧ State.reset.mtb.clock.isSet = false
      ∧ 4294967295 ≤ (withClock ready ⟨true, 4294967295, 0, 0⟩).mtb.clock.seconds
      ∧ ((withClock shedState ⟨true, 4294967294, 999, 0⟩).mtb.clock.isSet = true ∧ 4294967294 < 4294967295
        ∧ shedState.orm.Sound ∧ shedState.orm.Distinct ∧ shedState.params.Sound ∧ shedState.dir.Sound) := by
  and_intros <;> decide +kernel

theorem witness_OrdersExpireAndClose :
    (withTable ready [{ bandOrder with expiry := 1000000 }, closingOrder]).orm.Distinct
      ∧ ((withTable ready [{ bandOrder with expiry := 1000000 }, closingOrder]).orm.table.filter fun o =>
          decide ((o.state = .waiting ∨ o.state = .running) ∧ o.expiry ≤ 1000000)) = [{ bandOrder with expiry := 1000000 }]
      ∧ ((∃ p, (closingOrder.progress.get p).inFlight = true) ∧ closingOrder.state = .closing
        ∧ closingOrder.closing = some .superseded)
      ∧ ∀ p, (({ closingOrder with
          progress := ⟨fresh .stopped, fresh .notInvolved, fresh .notInvolved⟩ } : Order).progress.get p).inFlight = false :=
  ⟨by decide +kernel, by decide +kernel, ⟨⟨.a, rfl⟩, rfl, rfl⟩, every_phase (by decide)⟩

/-- Shed order 77 at its effective time, and the same order one second earlier. -/
def dueAt (now : Nat) : State := withClock shedState ⟨true, now, 0, 0⟩

theorem witness_OrdersAreAdopted :
    (dueAt 5000000).orm.Distinct ∧ shedOrder ∈ (dueAt 5000000).orm.table
      ∧ (DueForAdoption shedOrder 5000000 ∧ ¬DueForAdoption shedOrder 4999999)
      ∧ shedOrder.body = .relay 6 .shed (some 30)
      ∧ (∀ y ∈ ((dueAt 5000000).standing 6).relay, ¬Newer y.2 shedOrder.tag)
      ∧ (DueForAdoption { bandOrder with repeatCount := 0, effective := none } 1000000
        ∧ ({ bandOrder with repeatCount := 0, effective := none } : Order).body = .band 4 3
        ∧ ∀ y ∈ (ready.standing 4).band, ¬Newer y.2 500) := by
  and_intros <;> decide +kernel

/-- What the checks of a reading leave: a candidate due alone of its kind and group, with the same candidate under a newer part,
and a group with nothing due. -/
theorem witness_ChecksLeave_clauses :
    (shedOrder ∈ (dueAt 5000000).orm.table ∧ DueForAdoption shedOrder (dueAt 5000000).now ∧ shedOrder.body.group = some 6
        ∧ ∀ x ∈ (dueAt 5000000).orm.table, x.tag ≠ shedOrder.tag → Alike x shedOrder → ¬DueForAdoption x 5000000)
      ∧ (¬NewerStands shedOrder ((dueAt 5000000).standing 6)
        ∧ NewerStands shedOrder { (dueAt 5000000).standing 6 with relay := some (.on, 78) })
      ∧ ((∀ o ∈ (dueAt 5000000).orm.table, o.body.group = some 0 → ¬DueForAdoption o 5000000)
        ∧ ((dueAt 5000000).standing 0).relay = none ∧ ((dueAt 5000000).standing 0).nextRefresh = none) :=
  ⟨by decide +kernel, ⟨fun ⟨y, hy, hn⟩ => by cases hy; exact absurd hn (by decide), _, rfl, by decide⟩, by decide +kernel⟩

theorem witness_OrdersAreAdopted_newer : ∃ y ∈ some (RelayValue.on, (78 : Tag)), Newer y.2 shedOrder.tag := ⟨_, rfl, by decide⟩

/-- Restore-until of order 77, a second ahead of now and reached. -/
theorem witness_OrdersAreAdopted_restore :
    some 5001800 = (if RelayValue.shed = .shed then (some 30).map (fun m =>
        min (shedOrder.effective.getD 5000000 + m * 60) 4294967295) else none)
      ∧ (∀ r ∈ some 5001800, 5001799 < r) ∧ ∃ r ∈ some 5001800, r ≤ 5001800 :=
  ⟨by decide, by decide, 5001800, by decide⟩

theorem witness_RestoresAndRefreshesFall :
    (withStanding ready 6 ⟨some (2, 70), some (.shed, 77), some 1000000, some 1000000, 5⟩).standing 6
        = ⟨some (2, 70), some (.shed, 77), some 1000000, some 1000000, 5⟩
      ∧ (∀ r ∈ some 1000001, ready.now < r)
      ∧ ((dueState.standing 1).nextRefresh = some 6000100 ∧ 6000100 ≤ dueState.now ∧ dueState.mtb.clock.isSet = true
        ∧ dueState.mtb.clock.seconds < 4294967295 ∧ dueState.dir.Sound)
      ∧ (State.reset.mtb.clock.isSet = false
        ∧ 4294967295 ≤ (withClock ready ⟨true, 4294967295, 0, 0⟩).mtb.clock.seconds)
      ∧ (∀ p, p = .a ↔ ∃ i, MemberAt dueState 1 p i)
      ∧ ((∀ e ∈ dueState.queue .a, e.group ≠ 1) ∧ ∃ e ∈ (withQueue dueState .a [⟨1, 5999200⟩]).queue .a, e.group = 1) := by
  refine ⟨by decide +kernel, by decide, by decide +kernel, by decide, fun p => ⟨?_, ?_⟩, by decide +kernel⟩
  · rintro rfl
    exact ⟨1, _, rfl, rfl, by decide⟩
  · rintro ⟨i, h, hh, hp, -⟩
    have : h = plainHouse 0x41C001 .a 0x0002 := by
      by_cases hi : i = 1
      · subst hi
        have h1 : dueState.house 1 = some (plainHouse 0x41C001 .a 0x0002) := by decide +kernel
        rw [h1] at hh; exact (Option.some.inj hh).symm
      · exfalso
        have h1 : dueState.house i = none := by
          simp [State.house, Dir.get, dueState, withStanding, withHouses, withClock, Ne.symm hi]
        rw [h1] at hh; cases hh
    rw [this] at hp
    exact hp.symm

/-! ### Witnesses: crossings and QUIET -/

theorem witness_CrossingsAreJudged :
    ready.mains .a = steady ∧ (steady.lastCrossing = some 50000 ∧ 57999 < 50000 + 8000)
      ∧ ((withMains ready .a ⟨.lost, some 50000, 62, [], 10004, 5⟩ 0).mains .a).presence = .lost
      ∧ (50000 + 8000 ≤ 58000 ∧ 62500 ≤ 50000 + 12500 ∧ (62 : Nat) ≠ 63)
      ∧ ((withMains ready .a ⟨.lost, some 50000, 63, List.replicate 16 10004, 10004, 5⟩ 0).mains .a).returnCount = 63
      ∧ 50000 + 12500 < 62501
      ∧ ((State.reset.mains .a).presence = .lost ∧ (State.reset.mains .a).lastCrossing = none) := by decide

/-- An edge 8,000 µs and one 25,000 µs after the last accepted crossing are crossings of a PRESENT phase. -/
theorem crossing_at (s : State) (h : s.mains .a = steady) :
    CrossingAt s .a 50000 58000 ∧ CrossingAt s .a 50000 75000 := by
  unfold CrossingAt; rw [h]; decide

theorem witness_CrossingsAreCounted :
    CrossingAt ready .a 50000 58000 ∧ CrossingAt (sweepSlot .listen 985) .a 50000 75000 :=
  ⟨(crossing_at _ rfl).1, (crossing_at _ rfl).2⟩

theorem witness_CrossingsAreCounted_lines :
    ((ready.line .a).segment = .none ∧ (ready.line .a).waiting = [] ∧ (ready.line .a).staged = none
        ∧ ready.orm.table = [] ∧ ready.queue .a = [])
      ∧ ((withLine ready .a { freeLine with causes := ⟨false, false, false, true⟩ }).line .a).causes
          ≠ ⟨false, false, false, false⟩
      ∧ (∀ sg ∈ [Segment.guard, .send, .relay, .listen], ((sweepSlot sg 985).line .a).segment = sg
          ∧ ((sweepSlot sg 985).line .a).waiting = []) := by decide

theorem witness_PhasesAreLostAndReturn :
    (State.reset.mains .a).presence = .lost
      ∧ (ready.mains .a = steady ∧ steady.presence = .present ∧ steady.lastCrossing = some 50000
        ∧ (ready.line .a).segment = .none)
      ∧ (((sweepSlot .listen 986).line .a).segment ≠ .none ∧ (sweepSlot .listen 986).orm.Distinct)
      ∧ (50000 + 25000 < 75001 ∧ ∃ u, exec (.phaseLost .a) ready = .next u)
      ∧ ((withMains ready .a ⟨.lost, some 50000, 64, List.replicate 16 10004, 10004, 5⟩ 0).mains .a).returnCount = 64 :=
  ⟨rfl, ⟨rfl, rfl, rfl, rfl⟩, ⟨by decide, by decide +kernel⟩, ⟨by decide, _, rfl⟩, rfl⟩

/-- A broadcast slot of an order that is CLOSING, which the abort of the slot ends. -/
def closingSlot (sg : Segment) : State :=
  withTable (repeatSlot sg 998) ((repeatSlot sg 998).orm.table.map fun o =>
    { o with state := .closing, closing := some .cancelled })

/-- The slot of an attempt whose start moved the cursor on from 149. -/
def movedSlot (sg : Segment) : State :=
  withLine (sweepSlot .none 0) .a
    { slotLine sg attemptFrame 999 (some 2) with onLine := some ⟨attemptFrame, 999, some 2, some ⟨.at 149, 1⟩⟩ }

theorem witness_abort_puts_back :
    ((movedSlot .guard).line .a).slotOrder = some sweepOrder.tag
      ∧ slotAborted ((movedSlot .guard).line .a) sweepOrder .a 1000000
          = withProgress sweepOrder .a
              { sweepOrder.progress.get .a with cursor := .at 149, attempts := 1, inFlight := false } := by decide

theorem witness_QuietIsConditioned :
    ((closingSlot .guard).mtb.quiet = false ∧ (closingSlot .guard).mtb.releaseEnd = none ∧ (closingSlot .guard).orm.Distinct)
      ∧ (CutByQuiet ((closingSlot .guard).line .a) ∧ CutByQuiet ((closingSlot .send).line .a)
        ∧ ¬CutByQuiet ((sweepSlot .listen 986).line .a))
      ∧ ((closingSlot .guard).orm.table.flatMap fun o => endNotices o (quietedOrder (closingSlot .guard) o))
          = [.orderEnd 500 .cancelled] := by
  and_intros <;> decide +kernel

/-- Its clauses over the release timer: an assertion before its end, at it, and after it. -/
theorem witness_QuietIsConditioned_timer :
    (∀ e ∈ some 1000000, 999999 ≤ e) ∧ (∀ e ∈ some 1000000, 1000000 ≤ e) ∧ 1000000 < 1000001
      ∧ ∃ s u : State, s.mtb.quiet = true ∧ s.mtb.releaseEnd = some 1000000 ∧ exec .quietReleaseTimeout s = .next u :=
  ⟨by decide, by decide, by decide,
    { ready with mtb := { ready.mtb with quiet := true, releaseEnd := some 1000000 } }, _, rfl, rfl, rfl⟩

/-! ### Witnesses: members and cursors -/

/-- The indices of a group's members on a phase. -/
def membersIn (s : State) (g : Fin 16) (p : Phase) : List Nat :=
  (s.dir.houses.filter fun e => decide (e.2.phase = p) && e.2.groups.getLsbD g.val).map (·.1)

theorem memberAt_mem {s : State} {g : Fin 16} {p : Phase} {k : Nat} (h : MemberAt s g p k) : k ∈ membersIn s g p := by
  obtain ⟨x, hx, hp, hg⟩ := h
  simp only [State.house, Dir.get, Option.map_eq_some_iff] at hx
  obtain ⟨e, he, rfl⟩ := hx
  refine List.mem_map.mpr ⟨e, List.mem_filter.mpr ⟨List.mem_of_find?_eq_some he, by simp [hp, hg]⟩, ?_⟩
  simpa using List.find?_some he

theorem member_150 (sg : Segment) (start : Hc) : MemberAt (sweepSlot sg start) 6 .a 150 := ⟨_, rfl, rfl, rfl⟩
theorem member_162 (sg : Segment) (start : Hc) : MemberAt (sweepSlot sg start) 6 .a 162 := ⟨_, rfl, rfl, rfl⟩

theorem sweep_members {sg : Segment} {start : Hc} {k : Nat} (h : MemberAt (sweepSlot sg start) 6 .a k) : k = 150 ∨ k = 162 := by
  have := memberAt_mem h
  rwa [show membersIn (sweepSlot sg start) 6 .a = [150, 162] from rfl, List.mem_cons, List.mem_singleton] at this

/-- From entry 150 the sweep goes on to 162, and from 162 to END; from the first index it begins at 150. -/
theorem sweep_cursors (sg : Segment) (start : Hc) :
    CursorBeyond (sweepSlot sg start) 6 .a .ascending 150 (.at 162)
      ∧ CursorBeyond (sweepSlot sg start) 6 .a .ascending 162 .atEnd
      ∧ CursorFrom (sweepSlot sg start) 6 .a .ascending 0 (.at 150)
      ∧ CursorFrom (sweepSlot sg start) 6 .a .ascending 163 .atEnd := by
  simp only [CursorBeyond, CursorFrom, Beyond]
  refine ⟨⟨member_162 sg start, ?_, fun k hk => ?_⟩, fun k hk => ?_, ⟨member_150 sg start, ?_, fun k hk => ?_⟩, fun k hk => ?_⟩
  all_goals first | decide | (have := sweep_members hk; omega)

/-! ### Witnesses: selection -/

/-- Group 1 alone waits for its refresh on phase A. -/
def queued : State := withQueue dueState .a [⟨1, 6000100⟩]

/-- Query order 300, WAITING, and sweep order 800 before any slot. -/
def waitingQuery (i : Nat) : Order := waiting 300 (.query i)
def idleSweep (c : Nat) : Order :=
  { sweepOrder with progress := ⟨{ fresh .serving with repeatsSent := 1, cursor := .at c }, fresh .notInvolved, fresh .notInvolved⟩ }

theorem witness_IdleLineStagesAFrame :
    CrossingAt queued .a 50000 58000 ∧ (queued.line .a).segment = .none ∧ (queued.line .a).waiting = []
      ∧ (queued.line .a).staged = none ∧ queued.orm.Distinct ∧ queued.dir.Sound :=
  ⟨(crossing_at _ rfl).1, by decide +kernel⟩

/-- Each clause of selection: a blocked line, one with a hold pending, one with nothing to send, and a head that is urgent by
the length of its queue or by half a period's waiting, with its neighbours that are not. -/
theorem witness_selection_queue :
    ¬OpenLine { freeLine with causes := ⟨false, false, false, true⟩ } ∧ ¬OpenLine { freeLine with holdPending := true }
      ∧ OpenLine (ready.line .a) ∧ ready.orm.table = [] ∧ ready.queue .a = []
      ∧ queued.queue .a = ⟨1, 6000100⟩ :: []
      ∧ UrgentHead queued ⟨1, 5999650⟩ [] ∧ ¬UrgentHead queued ⟨1, 5999651⟩ []
      ∧ UrgentHead queued ⟨1, 6000100⟩ [⟨2, 0⟩, ⟨3, 0⟩, ⟨4, 0⟩] ∧ ¬UrgentHead queued ⟨1, 6000100⟩ [⟨2, 0⟩, ⟨3, 0⟩] := by
  unfold OpenLine UrgentHead; decide +kernel

/-- An order that is eligible to the last second of its lead and to its floor, and one a second or a priority beyond. -/
theorem witness_selection_eligible :
    EligibleOn ready .a { bandOrder with effective := some 1000600, priority := 7 }
      ∧ ¬EligibleOn ready .a { bandOrder with effective := some 1000601 }
      ∧ ¬EligibleOn { ready with orm := { ready.orm with floor := 2 } } .a bandOrder ∧ bandOrder.priority = 3 := by
  unfold EligibleOn; decide

/-- The three ways in which one order comes before another. -/
theorem witness_selection_before :
    Before .a { bandOrder with priority := 2, seq := 5 } bandOrder
      ∧ Before .a { sweepOrder with seq := 5 } { waiting 41 (.relay 3 .on none) with seq := 4 }
      ∧ (Before .a { bandOrder with seq := 4294967295 } bandOrder ∧ ¬Before .a bandOrder { bandOrder with seq := 4294967295 }) := by
  unfold Before; decide

theorem witness_selection_steps :
    HasStep ready .a bandOrder (bandOrder.progress.get .a) (.slot (.repeatNo 1))
      ∧ HasStep (sweepSlot .none 0) .a (idleSweep 150) ((idleSweep 150).progress.get .a) (.slot (.attempt 150 1))
      ∧ HasStep (sweepSlot .none 0) .a (idleSweep 149) ((idleSweep 149).progress.get .a) (.slot (.attempt 150 1))
      ∧ HasStep (sweepSlot .none 0) .a (idleSweep 163) ((idleSweep 163).progress.get .a) .close
      ∧ HasStep (sweepSlot .none 0) .a (waitingQuery 150) (fresh .queued) (.slot (.query 150 1))
      ∧ HasStep (sweepSlot .none 0) .a (waitingQuery 151) (fresh .queued) .vacant := by
  have none_at : ∀ k, (k = 149 ∨ k = 163) → ¬MemberAt (sweepSlot .none 0) 6 .a k := fun k hk h => by
    have := sweep_members h; omega
  refine ⟨⟨by decide, by decide, rfl⟩, ⟨6, 150, ⟨rfl, by decide, rfl, rfl⟩, .inl ⟨member_150 _ _, rfl, rfl⟩⟩,
    ⟨6, 149, ⟨rfl, by decide, rfl, rfl⟩, .inr ⟨none_at _ (.inl rfl), ⟨member_150 _ _, ?_, fun k hk _ => ?_⟩, rfl⟩⟩,
    ⟨6, 163, ⟨rfl, by decide, rfl, rfl⟩, none_at _ (.inr rfl), fun k hk => ?_⟩,
    ⟨rfl, by decide, ⟨_, rfl, rfl⟩, rfl⟩, ⟨151, rfl, by decide, fun h hh => ?_⟩⟩
  · show 149 < 150; decide
  · show k = 150 ∨ 150 < k
    have := sweep_members hk; omega
  · show ¬163 < k
    have := sweep_members hk; omega
  · have h1 : (sweepSlot .none 0).house 151 = none := by decide
    rw [h1] at hh; cases hh

/-- What a staging point takes for the order of the slot: an attempt below its allowance, one that uses it up, a repeat, and
another order's progress as it stands. -/
theorem witness_selection_predicted :
    Predicted (sweepSlot .listen 991) .a attemptFrame sweepOrder
        { sweepOrder.progress.get .a with cursor := .at 150, attempts := 1 }
      ∧ Predicted (sweepSlot .listen 991) .a { attemptFrame with step := .attempt 150 2 } sweepOrder
        { sweepOrder.progress.get .a with cursor := .at 162, attempts := 0 }
      ∧ Predicted ready .a repeatFrame bandOrder { bandOrder.progress.get .a with repeatsSent := 1 }
      ∧ Predicted ready .a attemptFrame bandOrder (bandOrder.progress.get .a) :=
  ⟨⟨fun _ => rfl, fun h => absurd h (by decide +kernel)⟩,
    ⟨fun h => absurd h (by decide +kernel), fun _ => ⟨_, (sweep_cursors _ _).1, rfl⟩⟩, rfl, rfl⟩

theorem witness_refresh_minutes : MinutesLeft none 6000100 0 ∧ MinutesLeft (some 5001800) 5000903 15 :=
  ⟨⟨(fun _ h => nomatch h), fun _ => rfl⟩,
    fun r hr _ => .inr (by cases hr; decide), fun h => absurd (h _ rfl) (by decide)⟩

/-! ### Witnesses: slots -/

/-- The REFRESH frame of group 1 staged for HC 1001. -/
def stagedRefresh (version : BitVec 16) : Frame :=
  { refreshFrameOf queued 1 0 1000 1001 with version := some version }

/-- Phase A at an idle crossing's end, with a frame staged for the next one. -/
def stagedState (s : State) (f : Frame) : State := withLine s .a { freeLine with staged := some f }

theorem witness_StagedFrameBegins :
    CrossingAt (stagedState queued (stagedRefresh 1)) .a 50000 58000
      ∧ ((stagedState queued (stagedRefresh 1)).line .a).segment = .none
      ∧ ((stagedState queued (stagedRefresh 1)).line .a).onLine = none
      ∧ ((stagedState queued (stagedRefresh 1)).line .a).waiting = []
      ∧ ((stagedState queued (stagedRefresh 1)).line .a).holdPending = false
      ∧ (stagedRefresh 1).plannedStart = (crossedMains steady 50000 58000).hc
      ∧ (stagedState queued (stagedRefresh 1)).orm.Distinct ∧ (stagedState queued (stagedRefresh 1)).dir.Sound :=
  ⟨(crossing_at _ rfl).1, by decide +kernel⟩

/-- A gap's two ways with a staged frame: it stands, or it does not, by its version or by its step. -/
theorem witness_gap_clauses :
    ((stagedRefresh 1).work = .refresh 1 ∧ (stagedRefresh 1).version = some (queued.standing 1).changeCount
        ∧ (none : Option Work) ≠ some (stagedRefresh 1).work)
      ∧ (stagedRefresh 2).version ≠ some (queued.standing 1).changeCount
      ∧ (repeatFrame.work = .order bandOrder.tag ∧ repeatFrame.step = .repeatNo 1)
      ∧ some repeatFrame.work = some (.order 500)
      ∧ ({ freeLine with causes := ⟨false, false, true, false⟩ } : Line).causes ≠ ⟨false, false, false, false⟩ := by
  decide +kernel

/-- An attempt at an entry reached through one repeater, and its slot. -/
def hopFrame : Frame := { attemptFrame with carrier := 7, hops := 1, planned := 30, route := [162] }
def hopSlot (sg : Segment) (start : Hc) : State := withLine (sweepSlot .none 0) .a (slotLine sg hopFrame start (some 2))

theorem slots_have_sound_tables :
    (sweepSlot .listen 985).orm.Distinct ∧ (sweepSlot .listen 985).dir.Sound
      ∧ (hopSlot .relay 983).orm.Distinct ∧ (hopSlot .relay 983).dir.Sound
      ∧ (repeatSlot .send 994).orm.Distinct ∧ (repeatSlot .send 994).dir.Sound := by
  and_intros <;> decide +kernel

theorem slots_at_their_moves :
    (((sweepSlot .guard 998).line .a).onLine = some ⟨attemptFrame, 998, some 2, placeOf attemptFrame⟩
        ∧ AtOffset (sweepSlot .guard 998) .a ⟨attemptFrame, 998, some 2, placeOf attemptFrame⟩ 2 ∧ attemptFrame.replyLen ≠ none)
      ∧ (((repeatSlot .guard 998).line .a).onLine = some ⟨repeatFrame, 998, none, placeOf repeatFrame⟩
        ∧ AtOffset (repeatSlot .guard 998) .a ⟨repeatFrame, 998, none, placeOf repeatFrame⟩ repeatFrame.guard ∧ repeatFrame.replyLen = none)
      ∧ (((hopSlot .send 991).line .a).onLine = some ⟨hopFrame, 991, some 2, placeOf hopFrame⟩
        ∧ AtOffset (hopSlot .send 991) .a ⟨hopFrame, 991, some 2, placeOf hopFrame⟩ (hopFrame.guard + hopFrame.carrier) ∧ 0 < hopFrame.hops)
      ∧ (((sweepSlot .send 992).line .a).onLine = some ⟨attemptFrame, 992, some 2, placeOf attemptFrame⟩
        ∧ AtOffset (sweepSlot .send 992) .a ⟨attemptFrame, 992, some 2, placeOf attemptFrame⟩ (attemptFrame.guard + attemptFrame.carrier)
        ∧ attemptFrame.replyLen = some 5 ∧ attemptFrame.marginLen = some 1 ∧ attemptFrame.hops = 0)
      ∧ (((hopSlot .relay 983).line .a).onLine = some ⟨hopFrame, 983, some 2, placeOf hopFrame⟩
        ∧ AtOffset (hopSlot .relay 983) .a ⟨hopFrame, 983, some 2, placeOf hopFrame⟩
            (hopFrame.guard + hopFrame.carrier + hopFrame.hops * (hopFrame.carrier + 1)))
      ∧ (ready.line .a).segment = .none := by
  unfold AtOffset; decide

/-- Each segment one crossing before and one after its end. -/
theorem slots_off_their_moves :
    (¬AtOffset (sweepSlot .guard 999) .a ⟨attemptFrame, 999, some 2, placeOf attemptFrame⟩ attemptFrame.guard
        ∧ ¬AtOffset (sweepSlot .guard 997) .a ⟨attemptFrame, 997, some 2, placeOf attemptFrame⟩ attemptFrame.guard)
      ∧ (¬AtOffset (hopSlot .send 992) .a ⟨hopFrame, 992, some 2, placeOf hopFrame⟩ (hopFrame.guard + hopFrame.carrier)
        ∧ ¬AtOffset (hopSlot .send 990) .a ⟨hopFrame, 990, some 2, placeOf hopFrame⟩ (hopFrame.guard + hopFrame.carrier))
      ∧ ¬AtOffset (hopSlot .relay 984) .a ⟨hopFrame, 984, some 2, placeOf hopFrame⟩
          (hopFrame.guard + hopFrame.carrier + hopFrame.hops * (hopFrame.carrier + 1))
      ∧ (¬AtOffset (sweepSlot .listen 986) .a ⟨attemptFrame, 986, some 2, placeOf attemptFrame⟩ attemptFrame.planned
        ∧ ¬AtOffset (sweepSlot .listen 984) .a ⟨attemptFrame, 984, some 2, placeOf attemptFrame⟩ attemptFrame.planned) := by
  unfold AtOffset; decide

/-- An attempt's SEND complete at its staging point, in a state with sound tables, and the other moves. -/
theorem witness_SegmentsMove : ∃ (s : State) (ol : OnLine),
    (s.line .a).onLine = some ol ∧ (s.line .a).segment = .send
      ∧ AtOffset s .a ol (ol.frame.guard + ol.frame.carrier) ∧ ol.frame.replyLen = some 5 ∧ ol.frame.marginLen = some 1
      ∧ ol.frame.hops = 0 ∧ s.orm.Distinct ∧ s.dir.Sound := by
  obtain ⟨-, -, -, ⟨h1, h2, h3, h4, h5⟩, -, -⟩ := slots_at_their_moves
  exact ⟨_, _, h1, rfl, h2, h3, h4, h5, slots_have_sound_tables.1, slots_have_sound_tables.2.1⟩

/-- The last repeat of an order of policy ALL, whose sweep begins at entry 150. -/
def lastRepeatOrder : Order :=
  { serving 500 (.band 6 3) { fresh .serving with inFlight := true } with policy := .all }
def lastRepeatSlot : State :=
  withLine (withHouses (withTable ready [lastRepeatOrder]) sweepHouses) .a
    (slotLine .send { repeatFrame with content := .groupBand 0x3A10C5 6 500 3 0 } 994 none)

theorem repeatSlot_facts :
    ((repeatSlot .send 994).line .a).onLine = some ⟨repeatFrame, 994, none, placeOf repeatFrame⟩
      ∧ ((repeatSlot .send 994).line .a).segment = .send
      ∧ AtOffset (repeatSlot .send 994) .a ⟨repeatFrame, 994, none, placeOf repeatFrame⟩ (repeatFrame.guard + repeatFrame.carrier)
      ∧ repeatFrame.replyLen = none ∧ repeatFrame.work = .order 500 ∧ repeatFrame.step = .repeatNo 1
      ∧ (∃ o ∈ (repeatSlot .send 994).orm.table, o.tag = 500 ∧ o.body.group ≠ none
          ∧ (o.progress.get .a).repeatsSent + 1 < o.repeatCount) := by
  unfold AtOffset; decide

/-- A repeat that is not the last, at its gap. -/
theorem witness_BroadcastSlotEnds : ∃ (s : State) (ol : OnLine),
    (s.line .a).onLine = some ol ∧ (s.line .a).segment = .send ∧ AtOffset s .a ol (ol.frame.guard + ol.frame.carrier)
      ∧ ol.frame.replyLen = none ∧ s.orm.Distinct ∧ s.dir.Sound ∧ ol.frame.work = .order 500 ∧ ol.frame.step = .repeatNo 1
      ∧ ∃ o ∈ s.orm.table, o.tag = 500 ∧ o.body.group ≠ none ∧ (o.progress.get .a).repeatsSent + 1 < o.repeatCount := by
  obtain ⟨h1, h2, h3, h4, h5⟩ := repeatSlot_facts
  exact ⟨_, _, h1, h2, h3, h4, slots_have_sound_tables.2.2.2.2.1, slots_have_sound_tables.2.2.2.2.2, h5⟩

theorem lastRepeat_facts :
    (lastRepeatOrder ∈ lastRepeatSlot.orm.table ∧ lastRepeatSlot.orm.Sound ∧ lastRepeatSlot.orm.Distinct)
      ∧ lastRepeatSlot.dir.Sound ∧ lastRepeatOrder.body.group = some 6
      ∧ (lastRepeatOrder.progress.get .a).repeatsSent + 1 = lastRepeatOrder.repeatCount
      ∧ (lastRepeatOrder.progress.get .a).cursor = .at 0
      ∧ ((lastRepeatSlot.line .a).onLine.map fun ol => (ol.frame.work, ol.frame.step)) = some (.order 500, .repeatNo 1)
      ∧ ((lastRepeatSlot.line .a).segment = .send ∧ ((lastRepeatSlot.line .a).onLine.bind fun ol => ol.frame.replyLen) = none)
      ∧ ((lastRepeatSlot.line .a).onLine.map fun ol =>
          decide (((lastRepeatSlot.mains .a).hc - ol.start).toNat = ol.frame.guard + ol.frame.carrier)) = some true := by
  and_intros <;> decide +kernel

/-- The last repeat of an order of policy ALL, at its gap: its sweep begins at entry 150. -/
theorem witness_BroadcastSlotEnds_last :
    (lastRepeatOrder ∈ lastRepeatSlot.orm.table ∧ lastRepeatSlot.orm.Sound ∧ lastRepeatSlot.orm.Distinct)
      ∧ lastRepeatSlot.dir.Sound ∧ lastRepeatOrder.body.group = some 6
      ∧ (lastRepeatOrder.progress.get .a).repeatsSent + 1 = lastRepeatOrder.repeatCount
      ∧ (lastRepeatOrder.progress.get .a).cursor = .at 0 ∧ CursorFrom lastRepeatSlot 6 .a .ascending 0 (.at 150)
      ∧ (lastRepeatSlot.line .a).segment = .send :=
  ⟨lastRepeat_facts.1, lastRepeat_facts.2.1, lastRepeat_facts.2.2.1, lastRepeat_facts.2.2.2.1, lastRepeat_facts.2.2.2.2.1,
    (sweep_cursors .none 0).2.2.1, lastRepeat_facts.2.2.2.2.2.2.1.1⟩

theorem witness_BroadcastSlotEnds_refresh :
    (refreshFrameOf queued 1 0 992 993).work = .refresh 1
      ∧ AtOffset queued .a ⟨refreshFrameOf queued 1 0 992 993, 993, none, none⟩ (queued.params.guard + 5)
      ∧ (refreshFrameOf queued 1 0 992 993).guard = queued.params.guard ∧ (refreshFrameOf queued 1 0 992 993).carrier = 5
      ∧ (refreshFrameOf queued 1 0 992 993).replyLen = none := by
  unfold AtOffset; decide

/-! ### Witnesses: received frames -/

theorem witness_FramesAreJudged :
    (State.reset.mains .a).presence = .lost ∧ (ready.mains .a).presence = .present
      ∧ (shortReply 0x41C150 2 800 9).cuts = (ready.line .a).cuts
      ∧ ({ shortReply 0x41C150 2 800 9 with cuts := 1 } : RxFrame).cuts ≠ (ready.line .a).cuts
      ∧ ({ shortReply 0x41C150 2 800 9 with crcGood := false } : RxFrame).crcGood = false
      ∧ word24 [0x90, 0, 0, 1] 1 ≠ ready.scs.code
      ∧ (word24 (shortReply 0x41C150 2 800 9).bytes 1 = ready.scs.code ∧ ready.scs.state = .written
        ∧ (shortReply 0x41C150 2 800 9).crcGood = true
        ∧ 6 < (byteAt (shortReply 0x41C150 2 800 9).bytes 0).toNat / 16)
      ∧ (1 ≤ (0x10 : Byte).toNat / 16 ∧ (0x6F : Byte).toNat / 16 ≤ 6 ∧ (0x0F : Byte).toNat / 16 = 0
        ∧ 6 < (0x70 : Byte).toNat / 16) := by decide +kernel

/-- A good reply is stray on a line that does not listen, from another entry, and past the planned end. -/
theorem witness_FramesAreJudged_stray :
    (∀ ol, ¬Awaited ready .a ol (shortReply 0x41C150 2 800 9))
      ∧ (∀ ol, ¬Awaited (sweepSlot .listen 986) .a ol (shortReply 0x41C162 2 800 9))
      ∧ ∀ ol, ¬Awaited (sweepSlot .listen 984) .a ol (shortReply 0x41C150 2 800 9) := by
  refine ⟨fun ol h => ?_, fun ol h => ?_, fun ol h => ?_⟩ <;> obtain ⟨-, -, -, -, -, h1, h2, -, -, -, h3, -, h4⟩ := h
  · exact absurd h2 (by decide)
  all_goals
    cases Option.some.inj h1
    first
      | exact absurd h3 (by decide +kernel)
      | exact absurd h4 (by decide)

/-- The first half-cycle of LISTEN after its first crossing, and the planned end. -/
theorem listens_for_reply :
    Awaited (sweepSlot .listen 991) .a ⟨attemptFrame, 991, some 2, placeOf attemptFrame⟩ (shortReply 0x41C150 2 800 9)
      ∧ Awaited (sweepSlot .listen 985) .a ⟨attemptFrame, 985, some 2, placeOf attemptFrame⟩ (shortReply 0x41C150 2 800 9) := by
  unfold Awaited; decide +kernel

/-- A line one crossing before its slot's planned end, with frames that wait. -/
def waitingState (l : List RxFrame) : State :=
  withLine (sweepSlot .listen 986) .a { (sweepSlot .listen 986).line .a with waiting := l }

/-- The same line at that crossing, the frames taken off. -/
def takingState : State := withMains (sweepSlot .listen 986) .a (crossedMains steady 50000 58000) 58000

theorem takingState_of (l : List RxFrame) :
    takingState = withMains (withLine (waitingState l) .a { (waitingState l).line .a with waiting := [] }) .a
      (crossedMains ((waitingState l).mains .a) 50000 58000) 58000 := rfl

theorem witness_FramesAreJudged_waiting :
    CrossingAt (waitingState [shortReply 0x41C150 2 800 9]) .a 50000 58000
      ∧ ((waitingState [shortReply 0x41C150 2 800 9]).line .a).waiting = [shortReply 0x41C150 2 800 9]
      ∧ ((waitingState [shortReply 0x41C150 2 800 9, shortReply 0x41C150 9 800 7]).line .a).waiting
          = [shortReply 0x41C150 2 800 9, shortReply 0x41C150 9 800 7]
      ∧ ((waitingState []).line .a).staged = none ∧ (waitingState []).params.Sound :=
  ⟨(crossing_at _ rfl).1, rfl, rfl, rfl, by decide⟩

theorem witness_FramesAreJudged_awaited :
    Awaited takingState .a ⟨attemptFrame, 986, some 2, placeOf attemptFrame⟩ (shortReply 0x41C150 2 800 9)
      ∧ Awaited takingState .a ⟨attemptFrame, 986, some 2, placeOf attemptFrame⟩ (shortReply 0x41C150 9 800 7) := by
  unfold Awaited; decide +kernel

theorem witness_FramesAreJudged_counted :
    (∀ ol, ¬Awaited takingState .a ol { shortReply 0x41C150 2 800 9 with crcGood := false })
      ∧ exec (.lineFrameTaken .a { shortReply 0x41C150 2 800 9 with crcGood := false }) takingState
        = .next (withLine takingState .a
            { (sweepSlot .listen 986).line .a with waiting := [], stats := { noStats with crcErrors := 1 } }).pump :=
  ⟨fun _ h => absurd h.2.2.1 (by decide), rfl⟩

/-! ### Witnesses: attempts and queries -/

/-- A sweep's slot at its planned end, whose attempt uses up an allowance of 1 and not one of 2; a reply may come there too. -/
theorem sweepSlot_facts :
    ((sweepSlot .listen 985).line .a).onLine = some ⟨attemptFrame, 985, some 2, placeOf attemptFrame⟩
      ∧ ((sweepSlot .listen 985).line .a).segment = .listen ∧ sweepOrder ∈ (sweepSlot .listen 985).orm.table
      ∧ attemptFrame.work = .order sweepOrder.tag ∧ attemptFrame.step = .attempt 150 1
      ∧ sweepOrder.body.group = some 6 ∧ (sweepSlot .listen 985).house 150 = some (plainHouse 0x41C150 .a 0x0040)
      ∧ (false = decide (2 ≤ (sweepOrder.progress.get .a).attempts + 1)
        ∧ true = decide (1 ≤ (sweepOrder.progress.get .a).attempts + 1)) := by decide

theorem sweepSlot_ends :
    AtOffset (sweepSlot .listen 985) .a ⟨attemptFrame, 985, some 2, placeOf attemptFrame⟩ attemptFrame.planned
      ∧ (byteAt (shortReply 0x41C150 2 800 9).bytes 0).toNat / 16 = 9 := by
  unfold AtOffset; decide +kernel

/-- The premises of AttemptsAreAccounted in one state, for its silence and for its reply. -/
theorem witness_AttemptsAreAccounted : ∃ (s : State) (ol : OnLine) (o : Order) (h : House) (c : Cursor) (f : RxFrame),
    (s.line .a).onLine = some ol ∧ (s.line .a).segment = .listen ∧ s.orm.Distinct ∧ o ∈ s.orm.table
      ∧ ol.frame.work = .order o.tag ∧ ol.frame.step = .attempt 150 1 ∧ ol.allowance = some 2 ∧ o.body.group = some 6
      ∧ s.house 150 = some h ∧ s.dir.Sound ∧ CursorBeyond s 6 .a o.direction 150 c
      ∧ AtOffset s .a ol ol.frame.planned ∧ Awaited s .a ol f ∧ (byteAt f.bytes 0).toNat / 16 = 9 := by
  obtain ⟨h1, h2, h3, h4, h5, h6, h7, -⟩ := sweepSlot_facts
  exact ⟨_, _, _, _, _, _, h1, h2, slots_have_sound_tables.1, h3, h4, h5, rfl, h6, h7, slots_have_sound_tables.2.1,
    (sweep_cursors _ _).1, sweepSlot_ends.1, listens_for_reply.2, sweepSlot_ends.2⟩

/-- Query attempt 1 of order 300 at entry 150. -/
def queryFrame : Frame :=
  ⟨.order 300, .query 150 1, .query 0x3A10C5 0x41C150 [] 0x2C, some 150, [], 2, 4, 0, some 7, some 1, 15, 983, 984, none⟩

def queryOrder : Order := serving 300 (.query 150) { fresh .serving with inFlight := true, expected := 1 }

def querySlot (start : Hc) : State :=
  withLine (withHouses (withTable ready [queryOrder]) sweepHouses) .a (slotLine .listen queryFrame start (some 3))

theorem querySlot_ends :
    AtOffset (querySlot 985) .a ⟨queryFrame, 985, some 3, placeOf queryFrame⟩ queryFrame.planned
      ∧ Awaited (querySlot 985) .a ⟨queryFrame, 985, some 3, placeOf queryFrame⟩ (longReply 0x41C150)
      ∧ (byteAt (longReply 0x41C150).bytes 0).toNat / 16 = 10 := by
  unfold AtOffset Awaited; decide +kernel

/-- The premises of QueriesAreAccounted in one state, for its reply and for its silence, below and at an allowance. -/
theorem witness_QueriesAreAccounted :
    (((querySlot 985).line .a).onLine = some ⟨queryFrame, 985, some 3, placeOf queryFrame⟩ ∧ ((querySlot 985).line .a).segment = .listen
        ∧ (querySlot 985).orm.Distinct ∧ (querySlot 985).dir.Sound ∧ queryOrder ∈ (querySlot 985).orm.table
        ∧ queryFrame.work = .order queryOrder.tag ∧ queryFrame.step = .query 150 1 ∧ queryOrder.body = .query 150
        ∧ (querySlot 985).house 150 = some (plainHouse 0x41C150 .a 0x0040)
        ∧ (1 ≤ (queryOrder.progress.get .a).attempts + 1 ∧ (queryOrder.progress.get .a).attempts + 1 < 3))
      ∧ AtOffset (querySlot 985) .a ⟨queryFrame, 985, some 3, placeOf queryFrame⟩ queryFrame.planned
      ∧ Awaited (querySlot 985) .a ⟨queryFrame, 985, some 3, placeOf queryFrame⟩ (longReply 0x41C150)
      ∧ (byteAt (longReply 0x41C150).bytes 0).toNat / 16 = 10 :=
  ⟨by decide +kernel, querySlot_ends⟩

theorem test_long_reply_fills_result :
    after (.lineFrameTaken .a (longReply 0x41C150)) (querySlot 986) (fun t => t.orm.table.map fun o => (o.state, o.result))
      = some [(.complete, some ⟨some 3, some .on, 0x0010, 12, 13, true, 5⟩)] := by decide +kernel

theorem witness_PhasesAreIndependent :
    EventOn (.holdTakesEffect .a) .a ∧ Phase.b ≠ .a ∧ ∃ t, exec (.holdTakesEffect .a) (sweepSlot .listen 985) = .next t :=
  ⟨.inl rfl, by decide, _, rfl⟩

/-! ### Witnesses: frames and the invariants -/

theorem witness_FramesCarryTheirDelay :
    sweepOrder.body = .band 6 1 ∧ shedOrder.body = .relay 6 .shed (some 30)
      ∧ [0x20A002] = ((((withHouses ready [(11, plainHouse 0x20A002 .b 4),
            (12, { plainHouse 0x20A003 .b 4 with route := [11] })]).house 12).map (·.route)).getD []).map
          (fun j => (((withHouses ready [(11, plainHouse 0x20A002 .b 4),
            (12, { plainHouse 0x20A003 .b 4 with route := [11] })]).house j).map (·.address)).getD 0) := by decide

/-- The delay of an order whose effective time is 599.7 s off at the end of its frame, of one without, and of one reached. -/
theorem witness_FramesCarryTheirDelay_clauses :
    DelayIs (1000000000 + 250 + (1 + 2 + 4) * 10004 / 1000) (some 1000600) 5997 ∧ DelayIs 1000000000 (some 1000000) 0
      ∧ DelayIs 0 none 0 ∧ OrderDelay ready { bandOrder with effective := some 1000060, reached := true } 10004 7 0 :=
  ⟨⟨(fun h => nomatch h), fun e he => by cases he; exact ⟨by decide, fun _ => .inr (by decide)⟩⟩,
    ⟨(fun h => nomatch h), fun e he => by cases he; exact ⟨fun _ => rfl, by decide⟩⟩,
    ⟨fun _ => rfl, fun _ h => nomatch h⟩, fun _ => rfl, fun h => absurd h (by decide)⟩

/-- The premise at the most hops, with a hop's address and the two forms of a standing part of a REFRESH. -/
theorem witness_FrameBytesFollowTheirKind :
    (Content.query 0x3A10C5 0x41C150 [0x41C05A, 0x41C05B] 7).hops.length ≤ 2
      ∧ ([0x41C05A, 0x41C05B] : List Addr)[1]? = some 0x41C05B
      ∧ (some (5, 7) : Option (Nat × Tag)) = some (5, 7) ∧ (none : Option (RelayValue × Tag)) = none := by decide

theorem witness_NoticesQueue :
    State.reset.rlc.notices.length < 16
      ∧ 16 ≤ (withLink ready { ready.rlc with notices := List.replicate 16 (.quiet true) }).rlc.notices.length
      ∧ (Outgoing.notice (.health 3 0x41C150 .weak 4)).body.length ≤ 249
      ∧ (Outgoing.reply ⟨0x83, .ok, List.replicate 248 0⟩).body.length ≤ 249 := by decide +kernel

/-- Table 11-11: a DIRECT_RELAY frame over one hop, written out from its offsets. -/
theorem test_direct_relay_bytes :
    (Content.directRelay 0x3A10C5 0x41C150 [0x41C05A] 0x1234 .on 90 0x0258 2 3).plain
      = [0x54, 0x3A, 0x10, 0xC5, 0x41, 0xC1, 0x50, 0x41, 0xC0, 0x5A, 0x12, 0x34, 0x01, 0x00, 0x5A, 0x02, 0x58, 0x02, 0x03] := by
  decide

/-- Tables 8-2, 11-2 and 11-8: a HEALTH notice on the link, up to its CRC. -/
theorem test_health_record :
    (Outgoing.notice (.health 0x0103 0x41C150 .weak 4)).wire.take 10
      = [0xC3, 0x08, 0xC4, 0x01, 0x03, 0x41, 0xC1, 0x50, 0x01, 0x04] := by decide +kernel

/-- A listening slot that has come to its planned end, with a final order beside it, and its end at the front of the queue. -/
def running : State :=
  (withTable (sweepSlot .listen 985) [finalOrder, sweepOrder]).withPending [.slotPlannedEnd .a]

theorem running_orders :
    running.LinesSound ∧ running.orm.Sound ∧ running.orm.Distinct ∧ running.SlotsAgree ∧ running.TimesNoted
      ∧ running.dir.Sound ∧ running.FramesAgree ∧ running.params.Sound := by
  and_intros <;> decide +kernel

theorem running_blocks :
    running.mtb.Sound ∧ running.dir.FreezesSound ∧ running.FramesSized ∧ running.RefreshSound ∧ running.rlc.Sound
      ∧ running.HandlingAgrees := by
  and_intros <;> decide +kernel

/-- All premises of the invariants together, with a step. -/
theorem witness_invariants :
    (running.LinesSound ∧ running.orm.Sound ∧ running.orm.Distinct ∧ running.SlotsAgree ∧ running.TimesNoted
        ∧ running.dir.Sound ∧ running.FramesAgree ∧ running.params.Sound)
      ∧ (running.mtb.Sound ∧ running.dir.FreezesSound ∧ running.FramesSized ∧ running.RefreshSound ∧ running.rlc.Sound
        ∧ running.HandlingAgrees)
      ∧ ∃ t, step running = .next t :=
  ⟨running_orders, running_blocks, Exists.intro _ (Eq.refl _)⟩

theorem witness_invariants_clauses :
    running.scs.state ≠ .blank
      ∧ (∀ quiet touched, running.pending.head? ≠ some (.powerUp quiet touched))
      ∧ (finalOrder ∈ running.orm.table ∧ finalOrder.state.final = true)
      ∧ ({ sweepOrder with reached := true } : Order).reached = true
      ∧ (dueState.standing 1).band ≠ none := by decide +kernel

end Sys2Proof.Tests
end

section
/-! PROOF. Requests that are answered at once, the search of the order table, and the ends that ORDER_CANCEL and
ORDER_RELEASE give to orders (R15, R20, R21). -/

namespace Sys2Proof.Machine

/-! ### A request that its owner answers at once (R145, R147, R149) -/

/-- An owed reply is what a FREE transmitter begins; a record in sending stays. -/
theorem Rlc.choose_owed (r : Rlc) (rec : Record) (reply : Reply) :
    { r with processing := some ⟨rec, .owed reply⟩ }.choose
      = { r with
          processing := some ⟨rec, .owed reply⟩
          transmitter := if r.transmitter = .free then .sending (.reply reply) else r.transmitter } := by
  obtain ⟨receiver, processing, holding, transmitter⟩ := r
  cases transmitter <;> rfl

theorem State.pump_process_owed (s : State) (rec : Record) (reply : Reply) :
    (s.process rec (.owed reply)).pump = s.owing rec reply :=
  congrArg (fun r => { s with rlc := r }) (s.rlc.choose_owed rec reply)

theorem State.takeRequest_of_answered {s t : State} {r : Request} {a : Answer} (hp : s.rlc.processing = none)
    (h : handle s r = (t, some a)) : s.takeRequest r = t.replied r a.code a.rest := by
  have ha : s.requestArrives r = t.process (requestRecord r) (.owed (replyTo r a)) := by
    simp [State.requestArrives, State.handleRequest, hp, h]
  rw [State.takeRequest, ha, State.pump_process_owed]
  rfl

theorem exec_orderCancel {s t : State} {tag : Tag} {a : Answer} (hp : s.rlc.processing = none)
    (h : handleOrderCancel tag s = (t, a)) :
    exec (.orderCancel tag) s = .next (t.replied (.orderCancel tag) a.code a.rest) := by
  have ht : handle s (.orderCancel tag) = (t, some a) := by rw [handle, h]
  exact congrArg Host.Outcome.next (State.takeRequest_of_answered hp ht)

theorem exec_orderRelease {s t : State} {tag : Tag} {a : Answer} (hp : s.rlc.processing = none)
    (h : handleOrderRelease tag s = (t, a)) :
    exec (.orderRelease tag) s = .next (t.replied (.orderRelease tag) a.code a.rest) := by
  have ht : handle s (.orderRelease tag) = (t, some a) := by rw [handle, h]
  exact congrArg Host.Outcome.next (State.takeRequest_of_answered hp ht)

/-! ### States of an order (Table 1-6) -/

theorem OrderState.live_iff (st : OrderState) : st.live = true ↔ st = .waiting ∨ st = .running := by
  cases st <;> decide

theorem OrderState.final_iff (st : OrderState) :
    st.final = true ↔ st ≠ .waiting ∧ st ≠ .running ∧ st ≠ .closing := by
  cases st <;> decide

theorem OrderState.final_eq_false_iff (st : OrderState) :
    st.final = false ↔ st = .waiting ∨ st = .running ∨ st = .closing := by
  cases st <;> decide

/-! ### The record that a tag names (R1, R147) -/

theorem Orm.Distinct.eq_of_tag {m : Orm} (hd : m.Distinct) {x y : Order} (hx : x ∈ m.table) (hy : y ∈ m.table)
    (h : x.tag = y.tag) : x = y := by
  by_contra hne
  have hs : Std.Symm fun x y : Order => x.tag ≠ y.tag := ⟨fun _ _ => Ne.symm⟩
  have ht : m.table.Pairwise fun x y => x.tag ≠ y.tag := hd.imp fun hxy => hxy.1
  exact ht.forall hx hy hne h

theorem State.findOrder_of_mem {s : State} (hd : s.orm.Distinct) {o : Order} (ho : o ∈ s.orm.table) :
    s.findOrder o.tag = some o := by
  cases hf : s.findOrder o.tag with
  | none => exact absurd (List.find?_eq_none.mp hf o ho) (by simp)
  | some x => rw [hd.eq_of_tag (State.findOrder_mem hf) ho (State.findOrder_tag hf)]

theorem State.named_of_mem {s : State} (hd : s.orm.Distinct) {o : Order} (ho : o ∈ s.orm.table) (h0 : o.tag ≠ 0) :
    s.named o.tag = some o := by
  rw [State.named, if_neg h0, State.findOrder_of_mem hd ho]

theorem State.named_eq_none {s : State} {tag : Tag} (h : tag = 0 ∨ ∀ o ∈ s.orm.table, o.tag ≠ tag) :
    s.named tag = none := by
  unfold State.named
  split
  · rfl
  next h0 =>
    have hn : ∀ o ∈ s.orm.table, o.tag ≠ tag := h.resolve_left h0
    exact List.find?_eq_none.mpr fun o ho => by simpa using hn o ho

/-- Tags being distinct, dropping the records of one record's tag drops that record alone. -/
theorem Orm.Distinct.filter_tag_ne {m : Orm} (hd : m.Distinct) {before after : List Order} {o : Order}
    (h : m.table = before ++ o :: after) : (m.table.filter fun x => x.tag != o.tag) = before ++ after := by
  unfold Orm.Distinct at hd
  rw [h] at hd ⊢
  obtain ⟨-, hafter, hbefore⟩ := List.pairwise_append.mp hd
  have hb : ∀ x ∈ before, (x.tag != o.tag) = true := fun x hx => by simpa using (hbefore x hx o (by simp)).1
  have ha : ∀ x ∈ after, (x.tag != o.tag) = true := fun x hx => by
    simpa using ((List.pairwise_cons.mp hafter).1 x hx).1.symm
  rw [List.filter_append, List.filter_cons_of_neg (by simp), List.filter_eq_self.mpr hb, List.filter_eq_self.mpr ha]

/-! ### Changes of one record -/

theorem State.modOrder_congr {s : State} {tag : Tag} {f g : Order → Order}
    (h : ∀ o ∈ s.orm.table, o.tag = tag → f o = g o) : s.modOrder tag f = s.modOrder tag g := by
  have ht : (s.orm.table.map fun o => if o.tag = tag then f o else o)
      = s.orm.table.map fun o => if o.tag = tag then g o else o :=
    List.map_congr_left fun o ho => by
      split
      next he => exact h o ho he
      · rfl
  rw [State.modOrder, ht, State.modOrder]

theorem State.modOrder_modOrder (s : State) (tag : Tag) (f g : Order → Order)
    (hf : ∀ o, (f o).tag = o.tag) : (s.modOrder tag f).modOrder tag g = s.modOrder tag fun o => g (f o) := by
  have h : ∀ o : Order, (if (if o.tag = tag then f o else o).tag = tag then g (if o.tag = tag then f o else o)
      else if o.tag = tag then f o else o) = if o.tag = tag then g (f o) else o := fun o => by
    by_cases he : o.tag = tag <;> simp [he, hf]
  simp only [State.modOrder, List.map_map, Function.comp_def, h]

/-! ### The end of a live order (R15, R117) -/

theorem Progress.stop_eq (pp : Progress) :
    pp.stop = { pp with stage :=
      if pp.stage = .queued ∨ pp.stage = .serving ∨ pp.stage = .paused then .stopped else pp.stage } := by
  obtain ⟨stage⟩ := pp
  cases stage <;> rfl

theorem endedMark_eq (reason : Reason) (m : Option Mark) :
    endedMark reason m = if reason ≠ .expired ∧ m = some .pending then some .passed else m := by
  rcases m with _ | m
  · cases reason <;> rfl
  · cases reason <;> cases m <;> rfl

theorem Line.discardStagedOf_eq (l : Line) (tag : Tag) : l.discardStagedOf tag = withoutStaged l tag := by
  obtain ⟨causes, hold, segment, tx, onLine, staged⟩ := l
  cases staged with
  | none => rfl
  | some f => by_cases h : f.work = .order tag <;> simp [Line.discardStagedOf, Line.discardStaged, withoutStaged, h]

theorem Order.anyInFlight_eq (o : Order) :
    o.anyInFlight = (o.progress.a.inFlight || o.progress.b.inFlight || o.progress.c.inFlight) := by
  simp [Order.anyInFlight, Tri.toList, Bool.or_assoc]

/-- What the model does to an ending record before it looks at its slots in flight. -/
def Order.stopped (o : Order) (reason : Reason) : Order :=
  { o with progress := o.progress.map Progress.stop, mark := endedMark reason o.mark }

theorem endedOrder_eq (o : Order) (reason : Reason) (now : Nat) :
    endedOrder o reason now
      = if o.anyInFlight then { o.stopped reason with state := .closing, closing := some reason }
        else { o.stopped reason with state := reason.final, closing := none, finishedAt := some now } := by
  have hs : Progress.stop = fun pp => { pp with stage :=
      if pp.stage = .queued ∨ pp.stage = .serving ∨ pp.stage = .paused then .stopped else pp.stage } :=
    funext Progress.stop_eq
  rw [endedOrder, ← Order.anyInFlight_eq, ← endedMark_eq, ← hs]
  cases o.anyInFlight <;> rfl

theorem endedOrder_state (o : Order) (reason : Reason) (now : Nat) :
    (endedOrder o reason now).state = if o.anyInFlight then .closing else reason.final := by
  rw [endedOrder_eq]
  split <;> rfl

/-- The state that the end of the order with a tag leaves, but for the ORDER_END notice. -/
def State.ended (s : State) (tag : Tag) (reason : Reason) : State :=
  (s.modOrder tag fun o => endedOrder o reason s.now).mapLines fun l => withoutStaged l tag

/-- The two changes of the record that the model makes are the one change to the ended order. -/
theorem State.endOrder_of_live {s : State} (hd : s.orm.Distinct) {o : Order} (ho : o ∈ s.orm.table)
    (hl : o.state.live = true) (reason : Reason) :
    s.endOrder o.tag reason
      = if o.anyInFlight then s.ended o.tag reason else (s.ended o.tag reason).post (.orderEnd o.tag reason.final) := by
  have hlines : (fun l : Line => l.discardStagedOf o.tag) = fun l => withoutStaged l o.tag :=
    funext fun l => l.discardStagedOf_eq o.tag
  have hchange : ∀ g : Order → Order, g (o.stopped reason) = endedOrder o reason s.now →
      (s.modOrder o.tag fun x => x.stopped reason).modOrder o.tag g
        = s.modOrder o.tag fun x => endedOrder x reason s.now := fun g hg => by
    rw [State.modOrder_modOrder s o.tag (fun x => x.stopped reason) g fun _ => rfl]
    refine State.modOrder_congr fun x hx hxt => ?_
    rw [hd.eq_of_tag hx ho hxt, hg]
  unfold State.endOrder
  rw [State.findOrder_of_mem hd ho]
  simp only [hl, if_true, hlines]
  split
  next hf =>
    have h := hchange (fun x => { x with state := .closing, closing := some reason }) (by rw [endedOrder_eq, if_pos hf])
    exact congrArg (fun t => t.mapLines fun l => withoutStaged l o.tag) h
  next hf =>
    have h := hchange (fun x => { x with state := reason.final, closing := none, finishedAt := some s.now })
      (by rw [endedOrder_eq, if_neg hf])
    exact congrArg (fun t => (t.mapLines fun l => withoutStaged l o.tag).post (.orderEnd o.tag reason.final)) h

theorem State.stateCode_ended {s : State} (hd : s.orm.Distinct) {o : Order} (ho : o ∈ s.orm.table) (reason : Reason) :
    (s.ended o.tag reason).stateCode o.tag = [(endedOrder o reason s.now).state.code] := by
  have hf : (s.ended o.tag reason).findOrder o.tag = some (endedOrder o reason s.now) := by
    have h := s.findOrder_modOrder o.tag o.tag (fun x => endedOrder x reason s.now) fun _ => rfl
    rw [State.findOrder_of_mem hd ho, Option.map_some, if_pos rfl] at h
    exact h
  rw [State.stateCode, hf]

theorem State.stateCode_post (s : State) (n : Notice) (tag : Tag) : (s.post n).stateCode tag = s.stateCode tag := rfl

theorem State.stateCode_endOrder {s : State} (hd : s.orm.Distinct) {o : Order} (ho : o ∈ s.orm.table)
    (hl : o.state.live = true) (reason : Reason) :
    (s.endOrder o.tag reason).stateCode o.tag = [(endedOrder o reason s.now).state.code] := by
  rw [State.endOrder_of_live hd ho hl, ← State.stateCode_ended hd ho]
  split
  · rfl
  · exact State.stateCode_post _ _ _

/-! ### ORDER_CANCEL (R20) -/

theorem handleOrderCancel_unknown {s : State} {tag : Tag} (h : s.named tag = none) :
    handleOrderCancel tag s = (s, ⟨.unknownTag, []⟩) := by
  rw [handleOrderCancel, h]
  rfl

theorem handleOrderCancel_of_not_live {s : State} {tag : Tag} {o : Order} (h : s.named tag = some o)
    (hl : ¬ o.state.live = true) : handleOrderCancel tag s = (s, ⟨.alreadyFinished, [o.state.code]⟩) := by
  simp only [handleOrderCancel, h, if_neg hl]

theorem handleOrderCancel_of_live {s : State} (hd : s.orm.Distinct) {o : Order} (ho : o ∈ s.orm.table) (h0 : o.tag ≠ 0)
    (hl : o.state.live = true) :
    handleOrderCancel o.tag s
      = (if (endedOrder o .cancelled s.now).state = .cancelled
          then (s.ended o.tag .cancelled).post (.orderEnd o.tag .cancelled) else s.ended o.tag .cancelled,
        ⟨.ok, [(endedOrder o .cancelled s.now).state.code]⟩) := by
  simp only [handleOrderCancel, State.named_of_mem hd ho h0, hl, if_true, State.stateCode_endOrder hd ho hl]
  rw [State.endOrder_of_live hd ho hl, endedOrder_state]
  cases o.anyInFlight <;> rfl

/-! ### ORDER_RELEASE (R21) -/

theorem handleOrderRelease_unknown {s : State} {tag : Tag} (h : s.named tag = none) :
    handleOrderRelease tag s = (s, ⟨.unknownTag, []⟩) := by
  rw [handleOrderRelease, h]
  rfl

theorem handleOrderRelease_of_not_final {s : State} {tag : Tag} {o : Order} (h : s.named tag = some o)
    (hf : o.state.final = false) : handleOrderRelease tag s = (s, ⟨.notFinished, []⟩) := by
  simp only [handleOrderRelease, h, hf]
  rfl

theorem handleOrderRelease_of_final {s : State} {tag : Tag} {o : Order} (h : s.named tag = some o)
    (hf : o.state.final = true) :
    handleOrderRelease tag s
      = ({ s with orm := { s.orm with table := s.orm.table.filter fun x => x.tag != tag } }, ⟨.ok, []⟩) := by
  simp only [handleOrderRelease, h, hf]
  rfl

/-- Settles O27: each request is reduced to what its owner does with the record that the tag names. -/
theorem ordersAreCancelledAndReleased : Obligations.OrdersAreCancelledAndReleased := by
  unfold Obligations.OrdersAreCancelledAndReleased
  intro s tag hp hd
  refine ⟨fun hno => ?unknown, fun o ho ht h0 => ⟨fun hw hr => ?notLive, fun u hl hu => ?live⟩,
    fun o before after htab ht h0 => ?release⟩
  case unknown =>
    have hn : s.named tag = none := State.named_eq_none hno
    exact ⟨exec_orderCancel hp (handleOrderCancel_unknown hn), exec_orderRelease hp (handleOrderRelease_unknown hn)⟩
  case notLive =>
    subst ht
    have hl : ¬ o.state.live = true := fun h => (o.state.live_iff.mp h).elim hw hr
    exact exec_orderCancel hp (handleOrderCancel_of_not_live (State.named_of_mem hd ho h0) hl)
  case live =>
    subst ht hu
    exact exec_orderCancel hp (handleOrderCancel_of_live hd ho h0 (o.state.live_iff.mpr hl))
  case release =>
    subst ht
    have ho : o ∈ s.orm.table := by simp [htab]
    have hn : s.named o.tag = some o := State.named_of_mem hd ho h0
    refine ⟨fun hlive => ?_, fun hw hr hc => ?_⟩
    · exact exec_orderRelease hp (handleOrderRelease_of_not_final hn (o.state.final_eq_false_iff.mpr hlive))
    · rw [← hd.filter_tag_ne htab]
      exact exec_orderRelease hp (handleOrderRelease_of_final hn (o.state.final_iff.mpr ⟨hw, hr, hc⟩))

end Sys2Proof.Machine
end

section
/-! PROOF. What each request leaves of the directory: most of them leave all of it, and none removes a HARD freeze range
(R27, R43, R45). -/

namespace Sys2Proof.Machine

/-! ### Request commands (R145, R147) -/

theorem exec_requestCommand (r : Request) (s : State) : exec (requestCommand r) s = .next (s.takeRequest r) := by
  cases r <;> rfl

theorem exec_of_answered {s t : State} {r : Request} {a : Answer} (hp : s.rlc.processing = none)
    (h : handle s r = (t, some a)) : exec (requestCommand r) s = .next (t.replied r a.code a.rest) := by
  rw [exec_requestCommand, State.takeRequest_of_answered hp h]

/-- With no request in processing, a request leaves the directory as its owner leaves it. -/
theorem State.takeRequest_dir {s : State} (r : Request) (hp : s.rlc.processing = none) :
    (s.takeRequest r).dir = (handle s r).1.dir := by
  have hh : (s.handleRequest (requestRecord r) r).dir = (handle s r).1.dir := by
    unfold State.handleRequest
    split
    next hr => rw [hr]; rfl
    next hr => rw [hr]; rfl
  rw [State.takeRequest, State.pump_dir, State.requestArrives, hp, hh]

/-! ### Operations that leave the directory as it stands -/

theorem foldl_keeps {σ α β : Type} {f : σ → α → σ} (g : σ → β) (hf : ∀ s x, g (f s x) = g s) (l : List α)
    (s : σ) : g (l.foldl f s) = g s := by
  induction l generalizing s with
  | nil => rfl
  | cons x l ih => rw [List.foldl_cons, ih, hf]

theorem State.forEachFree_dir {α : Type} (s : State) (l : List α) {f : State → α → State}
    (hf : ∀ s x, (f s x).dir = s.dir) : (s.forEachFree l f).dir = s.dir :=
  State.forEachFree_induct (P := fun t => t.dir = s.dir) s l f (fun _ _ h => h) (fun t x _ h => (hf t x).trans h) rfl

@[simp] theorem State.enterFinal_dir (s : State) (tag : Tag) (st : OrderState) : (s.enterFinal tag st).dir = s.dir := rfl

@[simp] theorem State.endOrder_dir (s : State) (tag : Tag) (reason : Reason) : (s.endOrder tag reason).dir = s.dir := by
  unfold State.endOrder
  split
  · rfl
  · split
    · split <;> rfl
    · rfl

@[simp] theorem State.supersede_dir (s : State) (o : Order) : (s.supersede o).dir = s.dir := by
  unfold State.supersede
  split
  · exact s.endOrder_dir _ _
  · rfl

@[simp] theorem State.restoreIfDue_dir (s : State) (g : Fin 16) : (s.restoreIfDue g).dir = s.dir := by
  unfold State.restoreIfDue
  dsimp only
  split
  · split <;> rfl
  · rfl

@[simp] theorem State.adoptOrder_dir (s : State) (o : Order) : (s.adoptOrder o).dir = s.dir := by
  unfold State.adoptOrder
  split
  · rfl
  next g value _ =>
    dsimp only
    split
    · rfl
    · cases value <;> simp

@[simp] theorem State.adoptIfDue_dir (s : State) (tag : Tag) : (s.adoptIfDue tag).dir = s.dir := by
  unfold State.adoptIfDue
  split
  · split
    · exact s.adoptOrder_dir _
    · rfl
  · rfl

@[simp] theorem State.adoptionCheck_dir (s : State) : s.adoptionCheck.dir = s.dir := by
  unfold State.adoptionCheck
  exact foldl_keeps State.dir (fun t o => t.adoptIfDue_dir o.tag) s.orm.table s

@[simp] theorem State.admitOrder_dir (s : State) (o : Order) : (s.admitOrder o).dir = s.dir := by
  unfold State.admitOrder
  cases o.body <;> simp

@[simp] theorem State.expireIfDue_dir (s : State) (tag : Tag) : (s.expireIfDue tag).dir = s.dir := by
  unfold State.expireIfDue
  split
  · split
    · exact s.endOrder_dir _ _
    · rfl
  · rfl

@[simp] theorem State.fireIfDue_dir (s : State) (g : Fin 16) : (s.fireIfDue g).dir = s.dir := by
  unfold State.fireIfDue
  split
  · split
    · refine (State.forEachFree_dir _ _ ?_).trans (foldl_keeps State.dir ?_ _ s) <;> exact fun _ _ => rfl
    · rfl
  · rfl

@[simp] theorem State.runCheck_dir (s : State) (c : Check) : (s.runCheck c).dir = s.dir := by
  cases c with
  | expire tag => exact s.expireIfDue_dir tag
  | adopt tag => exact s.adoptIfDue_dir tag
  | restore g => exact s.restoreIfDue_dir g
  | fire g => exact s.fireIfDue_dir g

@[simp] theorem State.runChecks_dir (fuel : Nat) (ls : List (List Check)) (s : State) :
    (State.runChecks fuel ls s).dir = s.dir := by
  induction fuel generalizing ls s with
  | zero => rfl
  | succ fuel ih =>
    unfold State.runChecks
    split
    · rfl
    · rw [ih, State.runCheck_dir]
    · rw [ih, State.runCheck_dir]

@[simp] theorem State.clockChecks_dir (s : State) : s.clockChecks.dir = s.dir := s.runChecks_dir _ _

@[simp] theorem State.adjustRefresh_dir (s : State) : s.adjustRefresh.dir = s.dir := rfl

/-! ### The requests of the other blocks -/

theorem handleSetTime_dir (v : BitVec 32) (s : State) : (handleSetTime v s).1.dir = s.dir := by
  simp [handleSetTime]

theorem handleSetConfig_dir (id : Byte) (v : BitVec 16) (s : State) : (handleSetConfig id v s).1.dir = s.dir := by
  unfold handleSetConfig
  split
  · rfl
  · split
    · rfl
    · dsimp only
      split <;> rfl

theorem handleGetConfig_dir (id : Byte) (s : State) : (handleGetConfig id s).1.dir = s.dir := by
  unfold handleGetConfig
  split <;> rfl

theorem handle_writeSite_dir (c : Addr) (s : State) : (handle s (.writeSite c)).1.dir = s.dir := by
  simp only [handle]
  split <;> rfl

theorem handleOrderSubmit_dir (f : SubmitFields) (s : State) : (handleOrderSubmit f s).1.dir = s.dir := by
  unfold handleOrderSubmit
  repeat' split
  all_goals simp [State.refuse]

theorem handleOrderRead_dir (tag : Tag) (sect : Byte) (s : State) : (handleOrderRead tag sect s).1.dir = s.dir := by
  unfold handleOrderRead
  split
  · rfl
  · split <;> rfl

theorem handleOrderCancel_dir (tag : Tag) (s : State) : (handleOrderCancel tag s).1.dir = s.dir := by
  unfold handleOrderCancel
  split
  · rfl
  · split
    · exact s.endOrder_dir _ _
    · rfl

theorem handleOrderRelease_dir (tag : Tag) (s : State) : (handleOrderRelease tag s).1.dir = s.dir := by
  unfold handleOrderRelease
  split
  · rfl
  · split <;> rfl

theorem handlePhaseHold_dir (b : Byte) (s : State) : (handlePhaseHold b s).1.dir = s.dir := by
  unfold handlePhaseHold
  split
  · rfl
  · dsimp only
    repeat' split
    all_goals rfl

theorem handlePhaseResume_dir (b : Byte) (s : State) : (handlePhaseResume b s).1.dir = s.dir := by
  unfold handlePhaseResume
  split <;> rfl

theorem handlePhaseStats_dir (b clear : Byte) (s : State) : (handlePhaseStats b clear s).1.dir = s.dir := by
  unfold handlePhaseStats
  split
  · rfl
  · dsimp only
    split <;> rfl

theorem handleStandingRead_dir (b : Byte) (s : State) : (handleStandingRead b s).1.dir = s.dir := by
  unfold handleStandingRead
  split <;> rfl

theorem handleHouseGet_dir (i : BitVec 16) (s : State) : (handleHouseGet i s).1.dir = s.dir := by
  unfold handleHouseGet
  dsimp only
  split
  · rfl
  · split <;> rfl

theorem handleHouseFind_dir (a : Addr) (s : State) : (handleHouseFind a s).1.dir = s.dir := by
  unfold handleHouseFind
  split
  · rfl
  · split <;> rfl

/-- The requests that can change the directory: the edits of an entry, of the freeze table, and RESET. -/
def editsDir : Request → Bool
  | .housePut _ | .houseRemove _ | .freeze _ _ _ | .thaw _ _ | .reset => true
  | _ => false

theorem handle_dir (s : State) {r : Request} (h : editsDir r = false) : (handle s r).1.dir = s.dir := by
  cases r with
  | housePut | houseRemove | freeze | thaw | reset => exact nomatch h
  | getStatus | getIdentity | getTime | orderList | setFloor => rfl
  | setTime v => exact handleSetTime_dir v s
  | setConfig id v => exact handleSetConfig_dir id v s
  | getConfig id => exact handleGetConfig_dir id s
  | writeSite c => exact handle_writeSite_dir c s
  | houseGet i => exact handleHouseGet_dir i s
  | houseFind a => exact handleHouseFind_dir a s
  | orderSubmit f => exact handleOrderSubmit_dir f s
  | orderRead tag sect => exact handleOrderRead_dir tag sect s
  | orderCancel tag => exact handleOrderCancel_dir tag s
  | orderRelease tag => exact handleOrderRelease_dir tag s
  | phaseHold b => exact handlePhaseHold_dir b s
  | phaseResume b => exact handlePhaseResume_dir b s
  | phaseStats b clear => exact handlePhaseStats_dir b clear s
  | standingRead g => exact handleStandingRead_dir g s

/-! ### The freeze table over the edits of entries (R38, R39) -/

@[simp] theorem Dir.put_freezes (d : Dir) (i : Nat) (h : House) : (d.put i h).freezes = d.freezes := rfl
@[simp] theorem Dir.remove_freezes (d : Dir) (i : Nat) : (d.remove i).freezes = d.freezes := rfl
@[simp] theorem Dir.modify_freezes (d : Dir) (i : Nat) (f : House → House) : (d.modify i f).freezes = d.freezes := rfl

@[simp] theorem Dir.moveReferences_freezes (d : Dir) (old new : List Nat) :
    (d.moveReferences old new).freezes = d.freezes := by
  unfold Dir.moveReferences
  refine (foldl_keeps Dir.freezes ?_ _ _).trans (foldl_keeps Dir.freezes ?_ _ d) <;>
    exact fun d j => d.modify_freezes j _

@[simp] theorem Dir.edit_freezes (d : Dir) (i : Nat) (a : Addr) (p : Phase) (groups : BitVec 16) (route : List Nat) :
    (d.edit i a p groups route).freezes = d.freezes := by
  simp [Dir.edit]

theorem handleHousePut_freezes (f : PutFields) (s : State) : (handleHousePut f s).1.dir.freezes = s.dir.freezes := by
  unfold handleHousePut
  dsimp only
  repeat' split
  all_goals simp [State.refuse]

theorem handleHouseRemove_freezes (i : BitVec 16) (s : State) :
    (handleHouseRemove i s).1.dir.freezes = s.dir.freezes := by
  unfold handleHouseRemove
  dsimp only
  repeat' split
  all_goals simp [State.refuse]

/-! ### HARD ranges -/

/-- The HARD ranges of a freeze table, in order. -/
def hardRanges (fs : List Freeze) : List Freeze := fs.filter fun f => decide (f.mode = .hard)

theorem hardRanges_sublist (fs : List Freeze) : (hardRanges fs).Sublist fs := List.filter_sublist

/-- A test that keeps every HARD range leaves the HARD ranges in the table. -/
theorem hardRanges_sublist_filter (fs : List Freeze) {q : Freeze → Bool} (hq : ∀ f, f.mode = .hard → q f = true) :
    (hardRanges fs).Sublist (fs.filter q) :=
  List.monotone_filter_right fs fun f hf => hq f (of_decide_eq_true hf)

theorem handleFreeze_keeps_hard (first last : BitVec 16) (mode : Byte) (s : State) :
    (hardRanges s.dir.freezes).Sublist (handleFreeze first last mode s).1.dir.freezes := by
  have hall := hardRanges_sublist s.dir.freezes
  unfold handleFreeze
  split
  · exact hall
  · split
    · exact hall
    · split
      · exact hall
      · exact hall.trans (List.sublist_append_left _ _)

theorem handleThaw_keeps_hard (first last : BitVec 16) (s : State) :
    (hardRanges s.dir.freezes).Sublist (handleThaw first last s).1.dir.freezes := by
  unfold handleThaw
  split
  · exact hardRanges_sublist s.dir.freezes
  · exact hardRanges_sublist_filter _ fun f hf => by simp [keptByThaw, hf]

/-- No request removes a HARD range (R45). -/
theorem handle_keeps_hard (s : State) (r : Request) :
    (hardRanges s.dir.freezes).Sublist (handle s r).1.dir.freezes := by
  cases he : editsDir r with
  | false =>
    rw [handle_dir s he]
    exact hardRanges_sublist _
  | true =>
    cases r with
    | housePut f => exact (handleHousePut_freezes f s).symm ▸ hardRanges_sublist _
    | houseRemove i => exact (handleHouseRemove_freezes i s).symm ▸ hardRanges_sublist _
    | freeze first last mode => exact handleFreeze_keeps_hard first last mode s
    | thaw first last => exact handleThaw_keeps_hard first last s
    | reset => exact List.Sublist.refl _
    | _ => exact nomatch he

end Sys2Proof.Machine
end

section
/-! PROOF. HOUSE_FIND, the checks of HOUSE_PUT, FREEZE and THAW: the model's tests against the notions of the rules, what each
owner answers, and the statements (R37, R42 to R45). -/

namespace Sys2Proof.Machine

/-! ### Ranges and codes -/

theorem addressOk_iff (a : Addr) : addressOk a = true ↔ 1 ≤ a.toNat ∧ a.toNat ≤ 0xFFFFFE := decide_eq_true_iff

theorem indexOk_iff (i : Nat) : indexOk i = true ↔ i ≤ 479 :=
  decide_eq_true_iff.trans (Nat.lt_succ_iff (m := i) (n := 479))

theorem spanOk_iff (first last : Nat) : spanOk first last = true ↔ first ≤ last ∧ last ≤ 479 := by
  simp only [spanOk, Bool.and_eq_true, indexOk_iff, decide_eq_true_eq]
  omega

theorem phaseOf_phaseCode (p : Phase) : phaseOf (phaseCode p) = some p := by cases p <;> rfl

theorem phaseOf_eq_some_iff (b : Byte) (p : Phase) : phaseOf b = some p ↔ phaseCode p = b := by
  constructor
  · intro h
    unfold phaseOf at h
    split_ifs at h with ha hb hc
    all_goals cases h
    exacts [ha.symm, hb.symm, hc.symm]
  · rintro rfl
    exact phaseOf_phaseCode p

theorem phaseCode_injective : Function.Injective phaseCode := fun p q h =>
  Option.some.inj ((phaseOf_phaseCode p).symm.trans (h ▸ phaseOf_phaseCode q))

theorem exists_phaseCode_iff (b : Byte) : (∃ p, phaseCode p = b) ↔ b = 1 ∨ b = 2 ∨ b = 3 := by
  constructor
  · rintro ⟨p, rfl⟩
    cases p <;> decide
  · rintro (rfl | rfl | rfl)
    exacts [⟨.a, rfl⟩, ⟨.b, rfl⟩, ⟨.c, rfl⟩]

theorem freezeModeOf_code (m : FreezeMode) : freezeModeOf m.code = some m := by cases m <;> rfl

theorem exists_freezeMode_code_iff (b : Byte) : (∃ m : FreezeMode, m.code = b) ↔ b = 0 ∨ b = 1 := by
  constructor
  · rintro ⟨m, rfl⟩
    cases m <;> decide
  · rintro (rfl | rfl)
    exacts [⟨.soft, rfl⟩, ⟨.hard, rfl⟩]

theorem freezeModeOf_eq_none {b : Byte} (h : ¬(b = 0 ∨ b = 1)) : freezeModeOf b = none := by
  obtain ⟨h0, h1⟩ := not_or.mp h
  exact (if_neg h0).trans (if_neg h1)

/-! ### The entries of a sound directory (R31) -/

theorem Dir.Sound.get_eq_some_iff {d : Dir} (hd : d.Sound) {i : Nat} {h : House} :
    d.get i = some h ↔ (i, h) ∈ d.houses := by
  obtain ⟨hrising, -, -⟩ := hd
  have hnodup : (d.houses.map (·.1)).Nodup := hrising.imp Nat.ne_of_lt
  unfold Dir.get
  constructor
  · intro hg
    obtain ⟨⟨j, k⟩, hf, rfl⟩ := Option.map_eq_some_iff.mp hg
    have hj : j = i := by simpa using List.find?_some hf
    exact hj ▸ List.mem_of_find?_eq_some hf
  · intro hm
    cases hf : d.houses.find? fun e => e.1 == i with
    | none => exact absurd (List.find?_eq_none.mp hf _ hm) (by simp)
    | some e =>
      have he : e.1 = i := by simpa using List.find?_some hf
      rw [List.inj_on_of_nodup_map hnodup (List.mem_of_find?_eq_some hf) hm he]
      rfl

/-- The search by address finds the one entry that holds it. -/
theorem Dir.Sound.find_address {d : Dir} (hd : d.Sound) {i : Nat} {h : House} (hg : d.get i = some h) :
    d.houses.find? (fun e => e.2.address == h.address) = some (i, h) := by
  have hm : (i, h) ∈ d.houses := hd.get_eq_some_iff.mp hg
  obtain ⟨-, hnodup, -⟩ := hd
  cases hf : d.houses.find? fun e => e.2.address == h.address with
  | none => exact absurd (List.find?_eq_none.mp hf _ hm) (by simp)
  | some e =>
    have he : e.2.address = h.address := by simpa using List.find?_some hf
    rw [List.inj_on_of_nodup_map hnodup (List.mem_of_find?_eq_some hf) hm he]

theorem Dir.Sound.find_address_none {d : Dir} (hd : d.Sound) {a : Addr}
    (h : ∀ i k, d.get i = some k → k.address ≠ a) : d.houses.find? (fun e => e.2.address == a) = none :=
  List.find?_eq_none.mpr fun e he => by simpa using h e.1 e.2 (hd.get_eq_some_iff.mpr he)

theorem Dir.Sound.addressOk {d : Dir} (hd : d.Sound) {i : Nat} {h : House} (hg : d.get i = some h) :
    addressOk h.address = true := by
  have hm : (i, h) ∈ d.houses := hd.get_eq_some_iff.mp hg
  obtain ⟨-, -, hentries⟩ := hd
  obtain ⟨⟨-, ha, -⟩, -⟩ := hentries _ hm
  exact ha

/-! ### Frozen and busy entries (R36, R43) -/

theorem State.frozen_iff (s : State) (i : Nat) : s.dir.frozen i = true ↔ FrozenAt s i := by
  simp [Dir.frozen, Freeze.covers, FrozenAt]

theorem Frame.names_iff (f : Frame) (i : Nat) : f.names i = true ↔ f.target = some i ∨ i ∈ f.route := by
  simp [Frame.names]

theorem Line.makesBusy_iff (l : Line) (i : Nat) : l.makesBusy i = true ↔ ∃ f ∈ l.frames, f.names i = true := by
  unfold Line.makesBusy Line.frames
  cases l.onLine <;> cases l.staged <;> simp

theorem Tri.any_toList {α : Type} (t : Tri α) (q : α → Bool) : t.toList.any q = true ↔ ∃ p, q (t.get p) = true := by
  simp only [Tri.toList, List.any_cons, List.any_nil, Bool.or_false, Bool.or_eq_true]
  constructor
  · rintro (h | h | h)
    exacts [⟨.a, h⟩, ⟨.b, h⟩, ⟨.c, h⟩]
  · rintro ⟨_ | _ | _, h⟩
    exacts [.inl h, .inr (.inl h), .inr (.inr h)]

theorem State.busy_iff (s : State) (i : Nat) : s.busy i = true ↔ BusyAt s i := by
  simp only [State.busy, Tri.any_toList, Line.makesBusy_iff, Frame.names_iff]
  rfl

/-! ### HOUSE_FIND (R42) -/

theorem exec_houseFind {s t : State} {a : Addr} {ans : Answer} (hp : s.rlc.processing = none)
    (h : handleHouseFind a s = (t, ans)) :
    exec (.houseFind a) s = .next (t.replied (.houseFind a) ans.code ans.rest) :=
  exec_of_answered (r := .houseFind a) hp (by rw [handle, h])

theorem handleHouseFind_out_of_range {a : Addr} (h : a.toNat = 0 ∨ 0xFFFFFE < a.toNat) (s : State) :
    handleHouseFind a s = (s, ⟨.badField, []⟩) := by
  have ha : ¬addressOk a = true := fun hok => by
    have := (addressOk_iff a).mp hok
    omega
  simp [handleHouseFind, ha, State.refuse, Answer.bare]

theorem handleHouseFind_of_house {s : State} (hd : s.dir.Sound) {i : Nat} {h : House} (hg : s.house i = some h) :
    handleHouseFind h.address s = (s, ⟨.ok, num16 i ++ [phaseCode h.phase]⟩) := by
  simp [handleHouseFind, hd.addressOk hg, hd.find_address hg]

theorem handleHouseFind_vacant {s : State} (hd : s.dir.Sound) {a : Addr} (h1 : 1 ≤ a.toNat) (h2 : a.toNat ≤ 0xFFFFFE)
    (h : ∀ i k, s.house i = some k → k.address ≠ a) : handleHouseFind a s = (s, ⟨.vacant, []⟩) := by
  simp [handleHouseFind, (addressOk_iff a).mpr ⟨h1, h2⟩, hd.find_address_none h, State.refuse, Answer.bare]

/-- Settles O18: the search of the entries by address finds the one entry that holds it, addresses being distinct. -/
theorem houseFindAnswers : Obligations.HouseFindAnswers := by
  unfold Obligations.HouseFindAnswers
  intro s a hp hd
  refine ⟨fun h => ?outOfRange, fun i h hg ha => ?found, fun h1 h2 h => ?vacant⟩
  case outOfRange => exact exec_houseFind hp (handleHouseFind_out_of_range h s)
  case found =>
    subst ha
    exact exec_houseFind hp (handleHouseFind_of_house hd hg)
  case vacant => exact exec_houseFind hp (handleHouseFind_vacant hd h1 h2 h)

/-! ### The checks of HOUSE_PUT (R37) -/

theorem exec_housePut {s t : State} {f : PutFields} {ans : Answer} (hp : s.rlc.processing = none)
    (h : handleHousePut f s = (t, ans)) :
    exec (.housePut f) s = .next (t.replied (.housePut f) ans.code ans.rest) :=
  exec_of_answered (r := .housePut f) hp (by rw [handle, h])

theorem putRoute_eq (f : PutFields) : putRoute f = putHops f := by
  unfold putRoute putHops
  by_cases h0 : f.routeCount = 0
  · simp [h0]
  · by_cases h1 : f.routeCount = 1
    · simp [h1]
    · have h2 : 2 ≤ f.routeCount.toNat := by bv_omega
      rw [if_neg h0, if_neg h1, List.take_of_length_le h2]

/-- Check 1 as the model makes it: the phase spells one, and the other fields are in range. -/
theorem putInRange_iff (f : PutFields) :
    PutInRange f ↔ (∃ p, phaseCode p = f.phase)
      ∧ (indexOk f.index.toNat && addressOk f.address && decide (f.routeCount.toNat ≤ 2) && (putHops f).all indexOk)
          = true := by
  simp only [PutInRange, exists_phaseCode_iff, Bool.and_eq_true, indexOk_iff, addressOk_iff, decide_eq_true_eq,
    List.all_eq_true]
  tauto

theorem Dir.addressElsewhere_iff (s : State) (f : PutFields) :
    s.dir.addressElsewhere f.index.toNat f.address = true ↔ AddressTaken s f := by
  simp [Dir.addressElsewhere, AddressTaken]

theorem Dir.hopOk_iff (d : Dir) (i : Nat) (p : Phase) (hop : Nat) :
    d.hopOk i p hop = true ↔ hop ≠ i ∧ ∃ h, d.get hop = some h ∧ h.phase = p ∧ h.route = [] := by
  unfold Dir.hopOk
  cases d.get hop <;> simp

theorem Dir.routeOk_iff {s : State} {f : PutFields} {p : Phase} (hc : phaseCode p = f.phase) :
    s.dir.routeOk f.index.toNat p (putHops f) = true ↔ PutRouteOk s f := by
  simp only [Dir.routeOk, PutRouteOk, Bool.and_eq_true, List.all_eq_true, Dir.hopOk_iff, decide_eq_true_eq, ← hc,
    phaseCode_injective.eq_iff]
  exact and_comm

theorem Dir.referenceOk_iff {s : State} {f : PutFields} {p : Phase} (hc : phaseCode p = f.phase) :
    s.dir.referenceOk f.index.toNat p (putHops f) = true ↔ PutReferenceOk s f := by
  unfold Dir.referenceOk PutReferenceOk State.house
  cases s.dir.get f.index.toNat with
  | none => simp
  | some h => simp [← hc, phaseCode_injective.eq_iff, or_iff_not_imp_left]

theorem handleHousePut_out_of_range {f : PutFields} (h : ¬PutInRange f) (s : State) :
    handleHousePut f s = (s, ⟨.badField, []⟩) := by
  unfold handleHousePut
  dsimp only
  split
  · rfl
  next p hp =>
    refine if_pos ?_
    rw [putRoute_eq, Bool.not_eq_true', ← Bool.not_eq_true]
    exact fun hok => h ((putInRange_iff f).mpr ⟨⟨p, (phaseOf_eq_some_iff _ _).mp hp⟩, hok⟩)

/-- What a HOUSE_PUT that passes the checks leaves and answers (R38, Table 11-6). -/
def putResult (s : State) (f : PutFields) (p : Phase) : Handled :=
  ({ s with dir := s.dir.edit f.index.toNat f.address p f.groups (putHops f) },
   ⟨.ok, num16 f.index.toNat ++
    [num8 (s.dir.editedHouse f.index.toNat f.address p f.groups (putHops f)).missCount,
     (s.dir.editedHouse f.index.toNat f.address p f.groups (putHops f)).health.code]⟩)

open Classical in
/-- The checks 2 to 6 in order, in the words of the rules. -/
theorem handleHousePut_of_inRange {f : PutFields} {p : Phase} (h : PutInRange f) (hc : phaseCode p = f.phase) (s : State) :
    handleHousePut f s
      = if FrozenAt s f.index.toNat then (s, ⟨.frozen, []⟩)
        else if BusyAt s f.index.toNat then (s, ⟨.busyEntry, []⟩)
        else if AddressTaken s f then (s, ⟨.duplicate, []⟩)
        else if ¬PutRouteOk s f then (s, ⟨.noRoute, []⟩)
        else if ¬PutReferenceOk s f then (s, ⟨.inUse, []⟩)
        else putResult s f p := by
  obtain ⟨-, hok⟩ := (putInRange_iff f).mp h
  simp only [handleHousePut, (phaseOf_eq_some_iff _ _).mpr hc, putRoute_eq, hok, Bool.not_true, Bool.false_eq_true,
    if_false, ← State.frozen_iff, ← State.busy_iff, ← Dir.addressElsewhere_iff, ← Dir.routeOk_iff hc,
    ← Dir.referenceOk_iff hc, Bool.not_eq_true', Bool.not_eq_true]
  rfl

/-- Settles O19: the checks 2 to 6 are made in order once check 1 is passed, and each clause stops at its own. -/
theorem housePutIsChecked : Obligations.HousePutIsChecked := by
  unfold Obligations.HousePutIsChecked
  intro s f hp
  by_cases hr : PutInRange f
  case neg =>
    have hout := exec_housePut hp (handleHousePut_out_of_range hr s)
    exact ⟨fun _ => hout, fun h => absurd h hr, fun h => absurd h hr, fun h => absurd h hr, fun h => absurd h hr,
      fun h => absurd h hr, fun h => absurd h.1 hr⟩
  case pos =>
    obtain ⟨⟨p, hc⟩, -⟩ := (putInRange_iff f).mp hr
    have hchecks := handleHousePut_of_inRange hr hc s
    refine ⟨fun h => absurd hr h, fun _ hfrozen => ?frozen, fun _ hfrozen hbusy => ?busy,
      fun _ hfrozen hbusy htaken => ?duplicate, fun _ hfrozen hbusy htaken hroute => ?noRoute,
      fun _ hfrozen hbusy htaken hroute href => ?inUse, fun hpass => ?passes⟩
    case frozen => exact exec_housePut (ans := ⟨.frozen, []⟩) hp (by simp [hchecks, hfrozen])
    case busy => exact exec_housePut (ans := ⟨.busyEntry, []⟩) hp (by simp [hchecks, hfrozen, hbusy])
    case duplicate => exact exec_housePut (ans := ⟨.duplicate, []⟩) hp (by simp [hchecks, hfrozen, hbusy, htaken])
    case noRoute => exact exec_housePut (ans := ⟨.noRoute, []⟩) hp (by simp [hchecks, hfrozen, hbusy, htaken, hroute])
    case inUse => exact exec_housePut (ans := ⟨.inUse, []⟩) hp (by simp [hchecks, hfrozen, hbusy, htaken, hroute, href])
    case passes =>
      obtain ⟨-, hfrozen, hbusy, htaken, hroute, href⟩ := hpass
      have hdone : handleHousePut f s = putResult s f p := by simp [hchecks, hfrozen, hbusy, htaken, hroute, href]
      exact ⟨_, _, exec_housePut hp hdone, rfl⟩

/-! ### FREEZE (R44) -/

/-- The model's report of a table within its capacity is the report of Table 11-8. -/
theorem freezeReport_eq {fs : List Freeze} (h : fs.length ≤ 4) : freezeReport fs = freezeBytes fs := by
  match fs, h with
  | [], _ => rfl
  | [_], _ => rfl
  | [_, _], _ => rfl
  | [_, _, _], _ => rfl
  | [_, _, _, _], _ => rfl

theorem exec_freeze {s t : State} {first last : BitVec 16} {mode : Byte} {ans : Answer} (hp : s.rlc.processing = none)
    (h : handleFreeze first last mode s = (t, ans)) :
    exec (.freeze first last mode) s = .next (t.replied (.freeze first last mode) ans.code ans.rest) :=
  exec_of_answered (r := .freeze first last mode) hp (by rw [handle, h])

theorem handleFreeze_out_of_range {first last : BitVec 16} {mode : Byte}
    (h : ¬(first.toNat ≤ last.toNat ∧ last.toNat ≤ 479 ∧ (mode = 0 ∨ mode = 1))) (s : State) :
    handleFreeze first last mode s = (s, ⟨.badField, []⟩) := by
  unfold handleFreeze
  by_cases hm : mode = 0 ∨ mode = 1
  · have hspan : ¬spanOk first.toNat last.toNat = true := by
      rw [spanOk_iff]
      exact fun ⟨hle, hlast⟩ => h ⟨hle, hlast, hm⟩
    split
    · rfl
    · exact if_pos (by simpa using hspan)
  · rw [freezeModeOf_eq_none hm]
    rfl

theorem handleFreeze_of_inRange {first last : BitVec 16} (h : first.toNat ≤ last.toNat ∧ last.toNat ≤ 479) (m : FreezeMode)
    (s : State) :
    handleFreeze first last m.code s
      = if 4 ≤ s.dir.freezes.length then (s, ⟨.tableFull, []⟩)
        else ({ s with dir := { s.dir with freezes := s.dir.freezes ++ [⟨first.toNat, last.toNat, m⟩] } },
          ⟨.ok, freezeReport (s.dir.freezes ++ [⟨first.toNat, last.toNat, m⟩])⟩) := by
  simp only [handleFreeze, freezeModeOf_code, (spanOk_iff _ _).mpr h, Bool.not_true, Bool.false_eq_true, if_false]
  rfl

/-- Settles O22: a FREEZE in range finds the table full, or appends its range, which covers its own span. -/
theorem freezeAppends : Obligations.FreezeAppends := by
  unfold Obligations.FreezeAppends
  intro s first last mode hp
  refine ⟨fun h => ?outOfRange, fun h1 h2 hm hfull => ?full, fun m fs h1 h2 hm hroom hfs => ?appends⟩
  case outOfRange => exact exec_freeze hp (handleFreeze_out_of_range h s)
  case full =>
    obtain ⟨m, rfl⟩ := (exists_freezeMode_code_iff mode).mpr hm
    exact exec_freeze hp ((handleFreeze_of_inRange ⟨h1, h2⟩ m s).trans (if_pos hfull))
  case appends =>
    subst hm hfs
    constructor
    · rw [← freezeReport_eq (by simp; omega)]
      exact exec_freeze hp ((handleFreeze_of_inRange ⟨h1, h2⟩ m s).trans (if_neg (Nat.not_le.mpr hroom)))
    · exact fun i hi1 hi2 => ⟨_, List.mem_append_right _ (List.mem_singleton_self _), hi1, hi2⟩

/-! ### THAW (R45) -/

theorem exec_thaw {s t : State} {first last : BitVec 16} {ans : Answer} (hp : s.rlc.processing = none)
    (h : handleThaw first last s = (t, ans)) :
    exec (.thaw first last) s = .next (t.replied (.thaw first last) ans.code ans.rest) :=
  exec_of_answered (r := .thaw first last) hp (by rw [handle, h])

theorem handleThaw_out_of_range {first last : BitVec 16} (h : ¬(first.toNat ≤ last.toNat ∧ last.toNat ≤ 479)) (s : State) :
    handleThaw first last s = (s, ⟨.badField, []⟩) := by
  rw [← spanOk_iff] at h
  exact if_pos (by simpa using h)

theorem keptByThaw_eq (first last : Nat) (f : Freeze) :
    keptByThaw first last f = decide (f.mode = .hard ∨ f.first < first ∨ last < f.last) := by
  rw [Bool.eq_iff_iff]
  simp only [keptByThaw, Bool.or_eq_true, Bool.not_eq_true', Bool.and_eq_false_iff, decide_eq_true_eq,
    decide_eq_false_iff_not, not_le]

theorem handleThaw_of_inRange {first last : BitVec 16} (h : first.toNat ≤ last.toNat ∧ last.toNat ≤ 479) {s : State}
    (hs : s.dir.FreezesSound) {fs : List Freeze}
    (hfs : fs = s.dir.freezes.filter fun f => decide (f.mode = .hard ∨ f.first < first.toNat ∨ last.toNat < f.last)) :
    handleThaw first last s
      = ({ s with dir := { s.dir with freezes := fs } },
        ⟨.ok, num8 (s.dir.freezes.length - fs.length) :: freezeBytes fs⟩) := by
  have hkept : s.dir.freezes.filter (keptByThaw first.toNat last.toNat) = fs :=
    hfs ▸ List.filter_congr fun f _ => keptByThaw_eq _ _ f
  obtain ⟨hcapacity, -⟩ := hs
  have hlen : fs.length ≤ 4 := hkept ▸ (List.length_filter_le _ _).trans hcapacity
  simp only [handleThaw, (spanOk_iff _ _).mpr h, hkept, freezeReport_eq hlen, Bool.not_true, Bool.false_eq_true, if_false]

/-- Over the whole directory, the ranges that stay are the HARD ones. -/
theorem Dir.FreezesSound.kept_over_all {d : Dir} (h : d.FreezesSound) :
    (d.freezes.filter fun f => decide (f.mode = .hard ∨ f.first < 0 ∨ 479 < f.last)) = hardRanges d.freezes := by
  obtain ⟨-, hranges⟩ := h
  refine List.filter_congr fun f hf => ?_
  obtain ⟨-, hlast⟩ := hranges f hf
  have hin : ¬479 < f.last := Nat.not_lt.mpr (Nat.le_of_lt_succ hlast)
  simp [hin]

/-- Settles O23: a THAW in range keeps the ranges its test keeps, and of every request the HARD ranges are a sublist of the
table it leaves. -/
theorem thawRemoves : Obligations.ThawRemoves := by
  unfold Obligations.ThawRemoves
  intro s hp hs
  refine ⟨fun first last h => ?outOfRange, fun first last fs h1 h2 hfs => ?removes, ?overAll, fun r t ht => ?keepsHard⟩
  case outOfRange => exact exec_thaw hp (handleThaw_out_of_range h s)
  case removes => exact exec_thaw hp (handleThaw_of_inRange ⟨h1, h2⟩ hs hfs)
  case overAll =>
    have hspan : (0 : BitVec 16).toNat ≤ (479 : BitVec 16).toNat ∧ (479 : BitVec 16).toNat ≤ 479 := by decide
    exact ⟨_, exec_thaw hp (handleThaw_of_inRange hspan hs rfl), hs.kept_over_all⟩
  case keepsHard =>
    rw [exec_requestCommand] at ht
    cases ht
    rw [State.takeRequest_dir r hp]
    exact handle_keeps_hard s r

end Sys2Proof.Machine
end

section
/-! PROOF. GET_TIME: its reply in the clock's own fields, and what the soundness of the clock makes of them (R137, R139). -/

namespace Sys2Proof.Machine

/-! ### The seconds clock where it does not count (R137) -/

theorem Clock.Sound.zero_of_unset {c : Clock} (hc : c.Sound) (hu : c.isSet = false) :
    c.seconds = 0 ∧ c.subcount = 0 := by
  obtain ⟨-, -, hunset, -⟩ := hc
  exact hunset hu

/-- A clock that stands at its last second is SET, since an UNSET one reads 0. -/
theorem Clock.Sound.set_of_stopped {c : Clock} (hc : c.Sound) (hm : c.seconds = Config.maxSeconds) :
    c.isSet = true ∧ c.subcount = 0 := by
  obtain ⟨-, -, hunset, hstopped⟩ := hc
  refine ⟨?_, hstopped hm⟩
  by_contra hset
  obtain ⟨hzero, -⟩ := hunset (Bool.eq_false_of_not_eq_true hset)
  exact absurd (hzero.symm.trans hm) (by decide)

/-! ### GET_TIME (R139) -/

/-- The owner answers from the clock and returns the state it was given. -/
theorem exec_getTime {s : State} (hp : s.rlc.processing = none) :
    exec .getTime s = .next (s.replied .getTime .ok
      (num32 s.mtb.clock.seconds ++ num16 s.mtb.clock.subcount ++ [flagByte s.mtb.clock.isSet])) :=
  exec_of_answered (r := .getTime) hp rfl

/-- Settles O13: the reply spells the clock's fields, which soundness gives for an UNSET and for a stopped clock. -/
theorem getTimeReports : Obligations.GetTimeReports := by
  unfold Obligations.GetTimeReports
  intro s hp
  refine ⟨exec_getTime hp, fun hc hu => ?unset, fun hc hm => ?stopped⟩
  case unset =>
    obtain ⟨hseconds, hsub⟩ := hc.zero_of_unset hu
    rw [exec_getTime hp, hseconds, hsub, hu]
    rfl
  case stopped =>
    obtain ⟨hset, hsub⟩ := hc.set_of_stopped hm
    rw [exec_getTime hp, hm, hsub, hset]
    rfl

end Sys2Proof.Machine
end

section
/-! PROOF. GET_CONFIG: the ids that name a parameter, and the reply for each of them (R157, Tables 9-1 and 11-8). -/

namespace Sys2Proof.Machine

/-! ### The parameter that an id names (Table 9-1) -/

theorem paramOf_eq_none {id : Byte} (h1 : id ≠ 1) (h2 : id ≠ 2) (h3 : id ≠ 3) (h4 : id ≠ 4) (h5 : id ≠ 5) :
    paramOf id = none := by
  simp only [paramOf, h1, h2, h3, h4, h5, if_false]

/-! ### The owner's answer (R157) -/

theorem handleGetConfig_unknown {id : Byte} (h : paramOf id = none) (s : State) :
    handleGetConfig id s = s.refuse .badField := by
  rw [handleGetConfig, h]

/-- The last two bytes are 0000h for every parameter but TAG_BASE (Table 11-8). -/
theorem handleGetConfig_plain {id : Byte} {x : Param} (h : paramOf id = some x) (hx : x ≠ .tagBase) (s : State) :
    handleGetConfig id s = (s, ⟨.ok, id :: num16 (s.params.get x) ++ [0, 0]⟩) := by
  simp only [handleGetConfig, h, hx, if_false]

theorem handleGetConfig_tagBase {id : Byte} (h : paramOf id = some .tagBase) (s : State) :
    handleGetConfig id s = (s, ⟨.ok, id :: num16 s.params.tagBase ++ bytes16 s.orm.tagCounter⟩) := by
  simp only [handleGetConfig, h, if_true, Params.get]

/-! ### GET_CONFIG as an instruction -/

theorem exec_getConfig {s t : State} {id : Byte} {a : Answer} (hp : s.rlc.processing = none)
    (h : handleGetConfig id s = (t, a)) :
    exec (.getConfig id) s = .next (t.replied (.getConfig id) a.code a.rest) :=
  exec_of_answered (r := .getConfig id) hp (by rw [handle, h])

/-- Settles O14: an id that names no parameter is refused, and each of the five draws the reply of its parameter. -/
theorem getConfigReports : Obligations.GetConfigReports := by
  unfold Obligations.GetConfigReports
  intro s hp
  refine ⟨fun id h1 h2 h3 h4 h5 => ?unknown, ?guard, ?margin, ?refreshPeriod, ?lead, ?tagBase⟩
  case unknown => exact exec_getConfig hp (handleGetConfig_unknown (paramOf_eq_none h1 h2 h3 h4 h5) s)
  case guard => exact exec_getConfig hp (handleGetConfig_plain (x := .guard) rfl nofun s)
  case margin => exact exec_getConfig hp (handleGetConfig_plain (x := .margin) rfl nofun s)
  case refreshPeriod => exact exec_getConfig hp (handleGetConfig_plain (x := .refreshPeriod) rfl nofun s)
  case lead => exact exec_getConfig hp (handleGetConfig_plain (x := .lead) rfl nofun s)
  case tagBase => exact exec_getConfig hp (handleGetConfig_tagBase rfl s)

end Sys2Proof.Machine
end

section
/-! PROOF. What the Order Manager and the Refresh Scheduler do, said once as sequences of elementary acts: adoptions and restores, the
work of a line controller on one order, and the checks of a clock reading (R16 to R19, R76 to R113, R118 to R122). -/

namespace Sys2Proof.Machine

open Relation (ReflTransGen)

/-! ### Adoptions and restores -/

/-- An act of an adoption or a restore: a notice is posted, a group record's mark is set, or a standing record is replaced by one
that is as sound as it was and has lost no part. -/
inductive StandingAct : State → State → Prop
  | post (s : State) (n : Notice) : StandingAct s (s.post n)
  | mark {s : State} {tag : Tag} {o : Order} (m : Mark) (ho : s.findOrder tag = some o) (hb : o.body.group ≠ none)
      (hm : m ≠ .pending) : StandingAct s (s.modOrder tag fun r => { r with mark := some m })
  | standing {s : State} {g : Fin 16} {x : Standing} (hx : (s.standing g).Sound → x.Sound)
      (hband : (s.standing g).band ≠ none → x.band ≠ none) (hrelay : (s.standing g).relay ≠ none → x.relay ≠ none) :
      StandingAct s (s.setStanding g x)

abbrev StandingActs : State → State → Prop := ReflTransGen StandingAct

theorem capSeconds_le (n : Nat) : capSeconds n ≤ Config.maxSeconds := Nat.min_le_right _ _

theorem Standing.adopt_sound {x : Standing} (hx : x.Sound) (o : Order) (now period : Nat) : (x.adopt o now period).Sound := by
  obtain ⟨hrestore, hnext, hnextLe, hrestoreLe⟩ := hx
  unfold Standing.adopt
  split
  · refine ⟨hrestore, by simp, ?_, hrestoreLe⟩
    rintro t ⟨⟩
    exact capSeconds_le _
  next g v restore _ =>
    refine ⟨?_, by simp, ?_, ?_⟩
    · cases v <;> simp [restoreUntilOf]
    · rintro t ⟨⟩
      exact capSeconds_le _
    · intro t ht
      cases v <;> cases restore <;> simp [restoreUntilOf] at ht
      exact ht ▸ capSeconds_le _
  · exact ⟨hrestore, hnext, hnextLe, hrestoreLe⟩

theorem Standing.adopt_band {x : Standing} (h : x.band ≠ none) (o : Order) (now period : Nat) :
    (x.adopt o now period).band ≠ none := by
  unfold Standing.adopt
  split <;> simp [h]

theorem Standing.adopt_relay {x : Standing} (h : x.relay ≠ none) (o : Order) (now period : Nat) :
    (x.adopt o now period).relay ≠ none := by
  unfold Standing.adopt
  split <;> simp [h]

/-- A restore turns a standing relay ON. -/
theorem Standing.restored_sound {x : Standing} (hx : x.Sound) (h : x.relay ≠ none) (tag : Tag) (n : BitVec 16) :
    ({ x with relay := some (.on, tag), restoreUntil := none, changeCount := n } : Standing).Sound := by
  obtain ⟨-, hnext, hnextLe, -⟩ := hx
  exact ⟨by simp, by simpa [h] using hnext, hnextLe, by simp⟩

theorem State.restoreIfDue_acts (s : State) (g : Fin 16) : StandingActs s (s.restoreIfDue g) := by
  unfold State.restoreIfDue
  dsimp only
  split
  next r v tag hr hrelay =>
    split
    · have hne : (s.standing g).relay ≠ none := by simp [hrelay]
      have hset := StandingAct.standing (s := s) (g := g)
        (fun h => Standing.restored_sound h hne tag ((s.standing g).changeCount + 1)) (fun h => h) fun _ => by simp
      exact (ReflTransGen.single hset).tail (.post _ _)
    · exact .refl
  · exact .refl

theorem OrderBody.partValue_eq_some {b : OrderBody} {x : Fin 16 × PartValue} (h : b.partValue = some x) :
    b.group = some x.1 := by
  cases b <;> cases h <;> rfl

theorem State.adoptOrder_acts {s : State} {o : Order} (ho : s.findOrder o.tag = some o) :
    StandingActs s (s.adoptOrder o) := by
  unfold State.adoptOrder
  split
  · exact .refl
  next g value hv =>
    have hb : o.body.group ≠ none := by simp [OrderBody.partValue_eq_some hv]
    dsimp only
    split
    · exact .single (.mark .passed ho hb nofun)
    · have hset := StandingAct.standing (s := s) (g := g) (fun h => Standing.adopt_sound h o s.now s.params.refreshPeriod)
        (fun h => Standing.adopt_band h _ _ _) (fun h => Standing.adopt_relay h _ _ _)
      have hpost := (ReflTransGen.single hset).tail (.post _ (.standing g value o.tag .adopted))
      have hmark := hpost.tail (.mark .adopted ho hb nofun)
      cases value with
      | band b => exact hmark
      | relay v => exact hmark.trans (State.restoreIfDue_acts _ g)

theorem State.adoptIfDue_acts (s : State) (tag : Tag) : StandingActs s (s.adoptIfDue tag) := by
  unfold State.adoptIfDue
  split
  next o ho =>
    split
    · exact State.adoptOrder_acts (State.findOrder_tag ho ▸ ho)
    · exact .refl
  · exact .refl

/-- A fold of operations is a sequence of their acts. -/
theorem foldl_acts {σ α : Type} {r : σ → σ → Prop} {f : σ → α → σ} (hf : ∀ s x, ReflTransGen r s (f s x)) (l : List α)
    (s : σ) : ReflTransGen r s (l.foldl f s) := by
  induction l generalizing s with
  | nil => exact .refl
  | cons x l ih => exact (hf s x).trans (ih _)

theorem State.adoptionCheck_acts (s : State) : StandingActs s s.adoptionCheck :=
  foldl_acts (fun s o => s.adoptIfDue_acts o.tag) _ _

/-! ### The work on one order -/

/-- A change of a phase progress that leaves its stage, its slot in flight and the tallies of its misses. -/
def Progress.KeepsStage (f : Progress → Progress) (pp : Progress) : Prop :=
  (f pp).stage = pp.stage ∧ (f pp).inFlight = pp.inFlight ∧ (f pp).missTally = pp.missTally

/-- A change of an entry's miss count, health and margin alone, to values in their ranges. -/
def House.HealthOnly (f : House → House) : Prop :=
  ∀ h, ∃ m margin, m ≤ 15 ∧ (margin = h.margin ∨ ∃ k ≤ 63, margin = some k)
    ∧ f h = { h with missCount := m, health := healthOf m, margin := margin }

/-- An order with one more miss on a phase: its tally and its record (R5, R106). -/
def Order.missOn (o : Order) (p : Phase) (reason : MissReason) (m : Miss) : Order :=
  (o.modProgress p fun pp => pp.tally (.miss reason)).recordMiss m

/-- An act of a line controller's work for the order `tag` on phase `p`. What an act that changes the record of the order takes
for granted of it is asked only where tags are distinct. -/
inductive OrderAct (p : Phase) (tag : Tag) : State → State → Prop
  | standing {s t : State} (h : StandingAct s t) : OrderAct p tag s t
  | serve {s : State} {o : Order} (ho : o ∈ s.orm.table) (ht : o.tag = tag) (hl : o.state.live = true)
      (ha : (o.progress.get p).stage.active = true) : OrderAct p tag s (s.takeService p tag)
  | progress {s : State} {f : Progress → Progress}
      (hf : s.orm.Distinct → ∀ o ∈ s.orm.table, o.tag = tag → Progress.KeepsStage f (o.progress.get p)) :
      OrderAct p tag s (s.modProgress tag p f)
  | miss (s : State) (reason : MissReason) (m : Miss) : OrderAct p tag s (s.modOrder tag fun o => o.missOn p reason m)
  | filled {s : State} (r : LineReply) (hq : s.orm.Distinct → ∀ o ∈ s.orm.table, o.tag = tag → o.body.group = none) :
      OrderAct p tag s (s.modOrder tag fun o => o.fillResult r)
  | done {s : State} (hs : s.orm.Distinct → ∀ o ∈ s.orm.table, o.tag = tag →
        (o.progress.get p).stage = .serving ∨ (o.progress.get p).stage = .paused) :
      OrderAct p tag s (s.modProgress tag p fun pp => { pp with stage := .done })
  | complete {s : State} {o : Order} {st : OrderState} (ho : s.findOrder tag = some o) (hr : o.state = .running)
      (hd : o.allDone = true) (hst : st = .complete ∨ st = .partly) : OrderAct p tag s (s.enterFinal tag st)
  | house {s : State} (i : Nat) {f : House → House} (hf : House.HealthOnly f) :
      OrderAct p tag s { s with dir := s.dir.modify i f }

abbrev OrderActs (p : Phase) (tag : Tag) : State → State → Prop := ReflTransGen (OrderAct p tag)

theorem StandingActs.orderActs {s t : State} (h : StandingActs s t) (p : Phase) (tag : Tag) : OrderActs p tag s t :=
  h.lift id fun _ _ => .standing

theorem State.updateHouse_acts (s : State) (i : Nat) {f : House → House} (hf : House.HealthOnly f) (p : Phase) (tag : Tag) :
    OrderActs p tag s (s.updateHouse i f) := by
  have hmod : OrderActs p tag s { s with dir := s.dir.modify i f } := .single (.house i hf)
  unfold State.updateHouse
  split
  · exact .refl
  · dsimp only
    split
    · exact hmod
    · exact hmod.tail (.standing (.post _ _))

theorem State.houseReplied_acts (s : State) (i : Nat) {margin : Nat} (hm : margin ≤ 63) (p : Phase) (tag : Tag) :
    OrderActs p tag s (s.houseReplied i margin) :=
  s.updateHouse_acts i (fun _ => ⟨0, some margin, by omega, .inr ⟨margin, hm, rfl⟩, rfl⟩) p tag

theorem State.houseMissed_acts (s : State) (i : Nat) (p : Phase) (tag : Tag) : OrderActs p tag s (s.houseMissed i) :=
  s.updateHouse_acts i (fun h => ⟨min (h.missCount + 1) 15, h.margin, Nat.min_le_right _ _, .inl rfl, rfl⟩) p tag

theorem State.recordResult_acts (s : State) (p : Phase) (tag : Tag) (i : Nat) (r : Result) :
    OrderActs p tag s (s.recordResult p tag i r) := by
  cases r with
  | confirmed => exact .single (.progress fun _ _ _ _ => ⟨rfl, rfl, rfl⟩)
  | miss reason =>
    have hmiss : OrderActs p tag s ((s.modProgress tag p fun pp => pp.tally (.miss reason)).modOrder tag
        fun o => o.recordMiss ⟨i, s.addressAt i, p, reason⟩) := by
      rw [State.modProgress, State.modOrder_modOrder s tag (fun o => o.modProgress p fun pp => pp.tally (.miss reason)) _
        fun _ => rfl]
      exact .single (.miss s reason _)
    unfold State.recordResult
    dsimp only
    split
    · exact hmiss.trans (State.houseMissed_acts _ i p tag)
    · exact hmiss

theorem State.moveCursor_acts (s : State) (p : Phase) (tag : Tag) (c : Cursor) : OrderActs p tag s (s.moveCursor p tag c) :=
  .single (.progress fun _ _ _ _ => ⟨rfl, rfl, rfl⟩)

theorem State.reportDone_acts (s : State) (p : Phase) (tag : Tag) : OrderActs p tag s (s.reportDone tag) := by
  obtain h | ⟨o, ho, hr, hd, h⟩ := s.reportDone_cases tag
  · rw [h]
  · rw [h]
    refine .single (.complete ho hr hd ?_)
    cases o.hasMiss <;> simp

theorem State.phaseDone_acts (s : State) (p : Phase) (tag : Tag) : OrderActs p tag s (s.phaseDone tag p) := by
  have hdone : ∀ {o : Order}, s.findOrder tag = some o →
      (o.progress.get p).stage = .serving ∨ (o.progress.get p).stage = .paused →
      OrderActs p tag s ((s.modProgress tag p fun pp => { pp with stage := .done }).reportDone tag) := by
    intro o ho hst
    refine (ReflTransGen.single (.done fun hd x hx hxt => ?_)).trans (State.reportDone_acts _ p tag)
    rw [hd.eq_of_tag hx (State.findOrder_mem ho) (hxt.trans (State.findOrder_tag ho).symm)]
    exact hst
  unfold State.phaseDone
  split
  next o ho =>
    split
    next hst => exact hdone ho (.inl hst)
    next hst => exact hdone ho (.inr hst)
    · exact .refl
  · exact .refl

theorem State.moveCursorDone_acts (s : State) (p : Phase) (tag : Tag) (c : Cursor) :
    OrderActs p tag s (s.moveCursorDone p tag c) := by
  unfold State.moveCursorDone
  cases c with
  | atEnd => exact (s.moveCursor_acts p tag _).trans (State.phaseDone_acts _ p tag)
  | _ i => exact s.moveCursor_acts p tag _

/-- The settling of a step that needs no slot works on the order that has been named. -/
theorem State.settle_acts {s : State} {p : Phase} {o : Order} (ho : o ∈ s.orm.table) (hl : o.state.live = true)
    (ha : (o.progress.get p).stage.active = true) (next : NextStep) : OrderActs p o.tag s (s.settle p o.tag next) := by
  have hserve : OrderActs p o.tag s (s.takeService p o.tag) := .single (.serve ho rfl hl ha)
  unfold State.settle
  cases next with
  | slot st => exact hserve
  | close => exact hserve.trans (State.moveCursorDone_acts _ _ _ _)
  | vacant =>
    dsimp only
    split
    · split
      · exact hserve.trans ((State.recordResult_acts _ _ _ _ _).trans (State.moveCursorDone_acts _ _ _ _))
      · exact hserve
    · exact hserve

/-- A record found by its tag is the only one with it. -/
theorem State.findOrder_unique {s : State} {tag : Tag} {o : Order} (ho : s.findOrder tag = some o) (hd : s.orm.Distinct)
    {x : Order} (hx : x ∈ s.orm.table) (hxt : x.tag = tag) : x = o :=
  hd.eq_of_tag hx (State.findOrder_mem ho) (hxt.trans (State.findOrder_tag ho).symm)

theorem State.beginSweep_acts {s : State} {p : Phase} {o : Order} (ho : s.findOrder o.tag = some o) (g : Fin 16) :
    OrderActs p o.tag s (s.beginSweep p o g) := by
  have hset : OrderActs p o.tag s
      (s.modProgress o.tag p fun _ => (o.progress.get p).beginSweep s.dir p g o.direction) := by
    refine .single (.progress fun hd x hx hxt => ?_)
    rw [State.findOrder_unique ho hd hx hxt]
    exact ⟨rfl, rfl, rfl⟩
  unfold State.beginSweep
  dsimp only
  split
  · exact hset.trans (State.phaseDone_acts _ _ _)
  · exact hset

theorem State.endBroadcast_acts (s : State) (p : Phase) (tag : Tag) : OrderActs p tag s (s.endBroadcast p tag) := by
  have hadopt : OrderActs p tag s s.adoptionCheck := s.adoptionCheck_acts.orderActs p tag
  unfold State.endBroadcast
  dsimp only
  split
  next o ho =>
    have htag := State.findOrder_tag ho
    subst htag
    split
    · split
      · exact hadopt.trans (State.beginSweep_acts ho _)
      · exact hadopt.trans (State.phaseDone_acts _ _ _)
    · split
      · exact hadopt.trans (State.beginSweep_acts ho _)
      · exact hadopt.trans (State.phaseDone_acts _ _ _)
    · exact hadopt
  · exact hadopt

theorem State.accountRepeat_acts (s : State) (p : Phase) (o : Order) : OrderActs p o.tag s (s.accountRepeat p o) := by
  have hsent : OrderActs p o.tag s
      (s.modProgress o.tag p fun pp => { pp with repeatsSent := (o.progress.get p).repeatsSent + 1 }) :=
    .single (.progress fun _ _ _ _ => ⟨rfl, rfl, rfl⟩)
  unfold State.accountRepeat
  dsimp only
  split
  · exact hsent.trans (State.endBroadcast_acts _ _ _)
  · exact hsent

theorem State.accountReply_acts (s : State) (i : Nat) {reply : Option LineReply} (hm : ∀ r ∈ reply, r.margin ≤ 63)
    (p : Phase) (tag : Tag) : OrderActs p tag s (s.accountReply i reply) := by
  cases reply with
  | none => exact .refl
  | some r => exact s.houseReplied_acts i (hm r rfl) p tag

theorem State.accountAttempt_acts (s : State) (p : Phase) (o : Order) (g : Fin 16) (i allowance : Nat)
    {reply : Option LineReply} (hm : ∀ r ∈ reply, r.margin ≤ 63) :
    OrderActs p o.tag s (s.accountAttempt p o g i allowance reply) := by
  have hattempt := (s.accountReply_acts i hm p o.tag).tail
    (.progress (f := fun pp => { pp with attempts := (o.progress.get p).attempts + 1 }) fun _ _ _ _ => ⟨rfl, rfl, rfl⟩)
  unfold State.accountAttempt
  dsimp only
  split
  · exact hattempt
  · exact hattempt.trans ((State.recordResult_acts _ _ _ _ _).trans (State.moveCursorDone_acts _ _ _ _))

@[simp] theorem State.updateHouse_orm (s : State) (i : Nat) (f : House → House) : (s.updateHouse i f).orm = s.orm := by
  unfold State.updateHouse
  split
  · rfl
  · dsimp only
    split <;> rfl

theorem State.accountQuery_acts {s : State} {p : Phase} {o : Order} (ho : s.findOrder o.tag = some o)
    (hq : o.body.group = none) (i allowance : Nat) {reply : Option LineReply} (hm : ∀ r ∈ reply, r.margin ≤ 63) :
    OrderActs p o.tag s (s.accountQuery p o i allowance reply) := by
  unfold State.accountQuery
  cases reply with
  | some r =>
    have horm : (s.houseReplied i r.margin).orm = s.orm := State.updateHouse_orm _ _ _
    have hfill := (s.houseReplied_acts i (hm r rfl) p o.tag).tail (.filled r fun hd x hx hxt => by
      rw [horm] at hd hx
      rw [State.findOrder_unique ho hd hx hxt]
      exact hq)
    exact hfill.trans ((State.recordResult_acts _ _ _ _ _).trans (State.moveCursorDone_acts _ _ _ _))
  | none =>
    dsimp only
    split
    · exact .single (.progress fun _ _ _ _ => ⟨rfl, rfl, rfl⟩)
    · exact (State.recordResult_acts _ _ _ _ _).trans (State.moveCursorDone_acts _ _ _ _)

/-- The accounting of an ended slot works on its order alone, or takes its refresh from the queue. -/
theorem State.account_acts (s : State) (p : Phase) (ol : OnLine) {reply : Option LineReply}
    (hm : ∀ r ∈ reply, r.margin ≤ 63) :
    (∃ tag, ol.frame.work = .order tag ∧ OrderActs p tag s (s.account p ol reply))
      ∨ ∃ g, ol.frame.work = .refresh g ∧ s.account p ol reply = s.accountRefresh p g := by
  unfold State.account
  split
  next g hw => exact .inr ⟨g, hw, rfl⟩
  next tag hw =>
    refine .inl ⟨tag, hw, ?_⟩
    split
    · exact .refl
    next o ho =>
      have htag := State.findOrder_tag ho
      subst htag
      split
      · exact s.accountRepeat_acts p o
      · exact s.accountAttempt_acts p o _ _ _ hm
      next hb => exact State.accountQuery_acts ho hb _ _ hm
      · exact .refl

/-! ### The checks of a clock reading -/

/-- An act of the checks: an adoption's or a restore's, the end of an order, a group with a next refresh joining a queue, or a
free pick. -/
inductive CheckAct : State → State → Prop
  | standing {s t : State} (h : StandingAct s t) : CheckAct s t
  | ended (s : State) (tag : Tag) (reason : Reason) : CheckAct s (s.endOrder tag reason)
  | queued {s : State} {p : Phase} {g : Fin 16} (hn : (s.standing g).nextRefresh ≠ none)
      (hq : inQueue (s.queue p) g = false) : CheckAct s (s.setQueue p (s.queue p ++ [⟨g, s.now⟩]))
  | pick (s : State) (n : Nat) : CheckAct s { s with picks := n }

abbrev CheckActs : State → State → Prop := ReflTransGen CheckAct

theorem StandingActs.checkActs {s t : State} (h : StandingActs s t) : CheckActs s t :=
  h.lift id fun _ _ => .standing

theorem State.expireIfDue_acts (s : State) (tag : Tag) : CheckActs s (s.expireIfDue tag) := by
  unfold State.expireIfDue
  split
  · split
    · exact .single (.ended s tag .expired)
    · exact .refl
  · exact .refl

theorem State.expiryCheck_acts (s : State) : CheckActs s s.expiryCheck :=
  foldl_acts (fun s o => s.expireIfDue_acts o.tag) _ _

/-- Whatever is done for each element in a free order is done with acts, beside the free picks. -/
theorem State.forEachFree_acts {α : Type} {r : State → State → Prop} (hpick : ∀ s n, r s { s with picks := n }) (s : State)
    (l : List α) {f : State → α → State} (hf : ∀ s, ∀ x ∈ l, ReflTransGen r s (f s x)) :
    ReflTransGen r s (s.forEachFree l f) :=
  State.forEachFree_induct (P := ReflTransGen r s) s l f (fun t n h => h.tail (hpick t n))
    (fun t x hx h => h.trans (hf t x hx)) .refl

/-- The groups' queues on the phases of a list, each without the group. -/
theorem State.queueEach_acts {g : Fin 16} (ps : List Phase) (hnodup : ps.Nodup) (s : State)
    (hn : (s.standing g).nextRefresh ≠ none) (hq : ∀ p ∈ ps, inQueue (s.queue p) g = false) :
    CheckActs s (ps.foldl (fun s p => s.setQueue p (s.queue p ++ [⟨g, s.now⟩])) s) := by
  induction ps generalizing s with
  | nil => exact .refl
  | cons p ps ih =>
    obtain ⟨hp, hrest⟩ := List.nodup_cons.mp hnodup
    refine (ReflTransGen.single (.queued hn (hq p (by simp)))).trans (ih hrest _ hn fun q hmem => ?_)
    have hne : q ≠ p := fun h => hp (h ▸ hmem)
    rw [State.queue_setQueue_ne _ _ hne]
    exact hq q (by simp [hmem])

theorem foldl_setQueue_standing (g : Fin 16) (ps : List Phase) (s : State) (k : Fin 16) :
    (ps.foldl (fun s p => s.setQueue p (s.queue p ++ [⟨g, s.now⟩])) s).standing k = s.standing k :=
  foldl_keeps (f := fun s p => s.setQueue p (s.queue p ++ [⟨g, s.now⟩])) (fun s => s.standing k) (fun _ _ => rfl) ps s

theorem State.forEachFree_standing {α : Type} (s : State) (l : List α) {f : State → α → State} (k : Fin 16)
    (hf : ∀ s x, (f s x).standing k = s.standing k) : (s.forEachFree l f).standing k = s.standing k :=
  State.forEachFree_induct (P := fun t => t.standing k = s.standing k) s l f (fun _ _ h => h)
    (fun t x _ h => (hf t x).trans h) rfl

theorem Standing.fired_sound {x : Standing} (hx : x.Sound) (h : x.nextRefresh ≠ none) (t now period : Nat) :
    ({ x with nextRefresh := some (nextAfterFiring t now period) } : Standing).Sound := by
  obtain ⟨hrestore, hnext, -, hrestoreLe⟩ := hx
  refine ⟨hrestore, by simpa [h] using hnext, ?_, hrestoreLe⟩
  rintro n ⟨⟩
  exact capSeconds_le _

theorem State.fireIfDue_acts (s : State) (g : Fin 16) : CheckActs s (s.fireIfDue g) := by
  unfold State.fireIfDue
  split
  next t ht =>
    have hn : (s.standing g).nextRefresh ≠ none := by simp [ht]
    split
    · dsimp only
      have hnodup : allPhases.Nodup := by decide
      have hqueued := State.queueEach_acts
        ((allPhases.filter fun p => s.dir.hasMember g p).filter fun p => !inQueue (s.queue p) g)
        ((hnodup.filter _).filter _) s hn fun p hp => by simpa using (List.mem_filter.mp hp).2
      refine (hqueued.trans (State.forEachFree_acts CheckAct.pick _ _ fun u p _ =>
        .single (.standing (.post u (.refreshLate g p))))).tail (.standing (.standing (fun h => ?_) (fun h => h) fun h => h))
      refine Standing.fired_sound h (fun he => hn ?_) _ _ _
      rwa [State.forEachFree_standing (f := fun u p => u.post (.refreshLate g p)) _ _ g fun _ _ => rfl,
        foldl_setQueue_standing] at he
    · exact .refl
  · exact .refl

theorem State.checkTimer_acts (s : State) (g : Fin 16) : CheckActs s (s.checkTimer g) := by
  obtain ⟨-, h⟩ | ⟨-, h⟩ := s.checkTimer_cases g
  · exact h ▸ s.fireIfDue_acts g
  · rw [h]

theorem State.runCheck_acts (s : State) (c : Check) : CheckActs s (s.runCheck c) := by
  cases c with
  | expire tag => exact s.expireIfDue_acts tag
  | adopt tag => exact (s.adoptIfDue_acts tag).checkActs
  | restore g => exact (s.restoreIfDue_acts g).checkActs
  | fire g => exact s.fireIfDue_acts g

theorem State.runChecks_acts (fuel : Nat) (ls : List (List Check)) (s : State) :
    CheckActs s (State.runChecks fuel ls s) := by
  induction fuel generalizing ls s with
  | zero => exact .refl
  | succ fuel ih =>
    unfold State.runChecks
    split
    · exact .refl
    · exact (s.runCheck_acts _).trans (ih _ _)
    · exact (ReflTransGen.single (.pick s _)).trans ((State.runCheck_acts _ _).trans (ih _ _))

theorem State.clockChecks_acts (s : State) : CheckActs s s.clockChecks := s.runChecks_acts _ _

end Sys2Proof.Machine
end

section
/-! PROOF. What a line controller does, said once as sequences of elementary acts: the settling of steps, staging, the beginning, the
segments and the end of a slot, and what received frames bring (R49 to R62, R73 to R76, R86 to R91). -/

namespace Sys2Proof.Machine

open Relation (ReflTransGen)

/-! ### What the work on orders leaves -/

/-- The parts that no work on an order touches. -/
structure OutsideOrders (s t : State) : Prop where
  lines : t.lines = s.lines
  mtb : t.mtb = s.mtb
  scs : t.scs = s.scs
  params : t.params = s.params
  pending : t.pending = s.pending
  picks : t.picks = s.picks
  queues : t.rfs.queues = s.rfs.queues
  freezes : t.dir.freezes = s.dir.freezes
  tagCounter : t.orm.tagCounter = s.orm.tagCounter
  seqCounter : t.orm.seqCounter = s.orm.seqCounter
  floor : t.orm.floor = s.orm.floor
  tags : t.orm.table.map (·.tag) = s.orm.table.map (·.tag)

theorem OutsideOrders.refl (s : State) : OutsideOrders s s := ⟨rfl, rfl, rfl, rfl, rfl, rfl, rfl, rfl, rfl, rfl, rfl, rfl⟩

theorem OutsideOrders.trans {s t u : State} (h : OutsideOrders s t) (k : OutsideOrders t u) : OutsideOrders s u :=
  ⟨k.lines.trans h.lines, k.mtb.trans h.mtb, k.scs.trans h.scs, k.params.trans h.params, k.pending.trans h.pending,
    k.picks.trans h.picks, k.queues.trans h.queues, k.freezes.trans h.freezes, k.tagCounter.trans h.tagCounter,
    k.seqCounter.trans h.seqCounter, k.floor.trans h.floor, k.tags.trans h.tags⟩

/-- What holds of the reflexive acts and is transitive holds of a sequence of acts. -/
theorem acts_induct {σ : Type} {r R : σ → σ → Prop} (hrefl : ∀ s, R s s) (htrans : ∀ {s t u}, R s t → R t u → R s u)
    (hact : ∀ {s t}, r s t → R s t) {s t : σ} (h : ReflTransGen r s t) : R s t := by
  induction h with
  | refl => exact hrefl s
  | tail _ hlast ih => exact htrans ih (hact hlast)

/-- What every act keeps, a sequence of acts keeps. -/
theorem acts_keep {σ : Type} {r : σ → σ → Prop} {P : σ → Prop} (hact : ∀ {s t}, r s t → P s → P t) {s t : σ}
    (h : ReflTransGen r s t) (hs : P s) : P t :=
  acts_induct (R := fun s t => P s → P t) (fun _ h => h) (fun h k hs => k (h hs)) hact h hs

theorem State.modOrder_tags (s : State) (tag : Tag) {f : Order → Order} (hf : ∀ o, (f o).tag = o.tag) :
    (s.modOrder tag f).orm.table.map (·.tag) = s.orm.table.map (·.tag) := by
  simp only [State.modOrder, List.map_map, Function.comp_def]
  exact List.map_congr_left fun o _ => by split <;> simp [hf]

theorem OutsideOrders.modOrder (s : State) (tag : Tag) {f : Order → Order} (hf : ∀ o, (f o).tag = o.tag) :
    OutsideOrders s (s.modOrder tag f) :=
  ⟨rfl, rfl, rfl, rfl, rfl, rfl, rfl, rfl, rfl, rfl, rfl, s.modOrder_tags tag hf⟩

theorem OutsideOrders.post (s : State) (n : Notice) : OutsideOrders s (s.post n) :=
  ⟨rfl, rfl, rfl, rfl, rfl, rfl, rfl, rfl, rfl, rfl, rfl, rfl⟩

theorem OutsideOrders.enterFinal (s : State) (tag : Tag) (st : OrderState) : OutsideOrders s (s.enterFinal tag st) :=
  (OutsideOrders.modOrder s tag (f := fun o => { o with state := st, closing := none, finishedAt := some s.now })
    fun _ => rfl).trans (.post _ _)

theorem StandingAct.outside {s t : State} (h : StandingAct s t) : OutsideOrders s t := by
  cases h with
  | post n => exact .post s n
  | mark m => exact .modOrder s _ fun _ => rfl
  | standing => exact ⟨rfl, rfl, rfl, rfl, rfl, rfl, rfl, rfl, rfl, rfl, rfl, rfl⟩

@[simp] theorem Order.firstSelected_stage (o : Order) (d : Dir) (p : Phase) (pp : Progress) :
    (o.firstSelected d p pp).inFlight = pp.inFlight ∧ (o.firstSelected d p pp).missTally = pp.missTally := by
  unfold Order.firstSelected
  split
  · exact ⟨rfl, rfl⟩
  · split <;> exact ⟨rfl, rfl⟩
  · split <;> exact ⟨rfl, rfl⟩

@[simp] theorem Order.serve_tag (o : Order) (d : Dir) (p : Phase) : (o.serve d p).tag = o.tag := by
  unfold Order.serve
  split <;> rfl

@[simp] theorem Order.serve_body (o : Order) (d : Dir) (p : Phase) : (o.serve d p).body = o.body := by
  unfold Order.serve
  split <;> rfl

@[simp] theorem Order.pauseOn_tag (o : Order) (p : Phase) : (o.pauseOn p).tag = o.tag := by
  unfold Order.pauseOn
  split <;> rfl

@[simp] theorem Order.pauseOn_body (o : Order) (p : Phase) : (o.pauseOn p).body = o.body := by
  unfold Order.pauseOn
  split <;> rfl

@[simp] theorem Order.recordMiss_tag (o : Order) (m : Miss) : (o.recordMiss m).tag = o.tag := by
  unfold Order.recordMiss
  split <;> rfl

@[simp] theorem Order.fillResult_tag (o : Order) (r : LineReply) : (o.fillResult r).tag = o.tag := by
  unfold Order.fillResult
  split <;> rfl

/-- The record as service of the phase passes to the order with a tag. -/
def Order.passService (o : Order) (d : Dir) (p : Phase) (tag : Tag) : Order :=
  if o.tag = tag then o.serve d p else o.pauseOn p

@[simp] theorem Order.passService_tag (o : Order) (d : Dir) (p : Phase) (tag : Tag) : (o.passService d p tag).tag = o.tag := by
  unfold Order.passService
  split <;> simp

@[simp] theorem Order.passService_body (o : Order) (d : Dir) (p : Phase) (tag : Tag) :
    (o.passService d p tag).body = o.body := by
  unfold Order.passService
  split <;> simp

theorem State.takeService_table (s : State) (p : Phase) (tag : Tag) :
    (s.takeService p tag).orm.table = s.orm.table.map fun o => o.passService s.dir p tag := rfl

theorem State.takeService_tags (s : State) (p : Phase) (tag : Tag) :
    (s.takeService p tag).orm.table.map (·.tag) = s.orm.table.map (·.tag) := by
  rw [State.takeService_table, List.map_map]
  exact List.map_congr_left fun o _ => o.passService_tag _ _ _

theorem OrderAct.outside {p : Phase} {tag : Tag} {s t : State} (h : OrderAct p tag s t) : OutsideOrders s t := by
  cases h with
  | standing h => exact h.outside
  | serve => exact ⟨rfl, rfl, rfl, rfl, rfl, rfl, rfl, rfl, rfl, rfl, rfl, s.takeService_tags p tag⟩
  | progress | done => exact .modOrder s tag fun _ => rfl
  | miss => exact .modOrder s tag fun o => Order.recordMiss_tag _ _
  | filled r => exact .modOrder s tag fun o => o.fillResult_tag r
  | complete => exact .enterFinal s tag _
  | house => exact ⟨rfl, rfl, rfl, rfl, rfl, rfl, rfl, rfl, rfl, rfl, rfl, rfl⟩

theorem OrderActs.outside {p : Phase} {tag : Tag} {s t : State} (h : OrderActs p tag s t) : OutsideOrders s t :=
  acts_induct OutsideOrders.refl OutsideOrders.trans OrderAct.outside h

theorem OutsideOrders.line {s t : State} (h : OutsideOrders s t) (p : Phase) : t.line p = s.line p := by
  rw [State.line, h.lines]; rfl

/-! ### What selection names (R73, R74) -/

theorem bestCandidate_mem {p : Phase} {l : List (Order × NextStep)} {c : Order × NextStep} (h : bestCandidate p l = some c) :
    c ∈ l := by
  induction l generalizing c with
  | nil => cases h
  | cons d l ih =>
    unfold bestCandidate at h
    split at h
    · cases h; simp
    next e he =>
      split at h
      · cases h; exact List.mem_cons_of_mem _ (ih he)
      · cases h; simp

theorem State.mem_candidates {s : State} {p : Phase} {ahead : Ahead} {o : Order} {st : NextStep}
    (h : (o, st) ∈ s.candidates p ahead) :
    o ∈ s.orm.table ∧ s.eligible p o = true ∧ nextStep s.dir p o (s.progressFor p ahead o) = some st := by
  obtain ⟨x, hx, he⟩ := List.mem_filterMap.mp h
  split at he
  next hel =>
    split at he
    next st' hst =>
      split at he
      · cases he
      · cases he; exact ⟨hx, hel, hst⟩
    · cases he
  · cases he

theorem State.select_open {s : State} {p : Phase} {ahead : Ahead} {c : Choice} (h : s.select p ahead = c)
    (hc : c ≠ .nothing) : (s.line p).causes.isEmpty = true ∧ (s.line p).holdPending = false := by
  by_contra hno
  rw [not_and_or, Bool.not_eq_true, Bool.not_eq_false] at hno
  exact hc (h.symm.trans (s.select_blocked p ahead hno))

theorem State.select_order {s : State} {p : Phase} {ahead : Ahead} {tag : Tag} {next : NextStep}
    (h : s.select p ahead = .order tag next) :
    ∃ o ∈ s.orm.table, o.tag = tag ∧ s.eligible p o = true ∧ nextStep s.dir p o (s.progressFor p ahead o) = some next := by
  unfold State.select at h
  dsimp only at h
  split at h
  · cases h
  · split at h
    · cases h
    next o st hbest _ =>
      cases h
      obtain ⟨ho, hel, hst⟩ := State.mem_candidates (bestCandidate_mem hbest)
      exact ⟨o, ho, rfl, hel, hst⟩
    · cases h
    · cases h

theorem State.eligible_live {s : State} {p : Phase} {o : Order} (h : s.eligible p o = true) :
    o.state.live = true ∧ (o.progress.get p).stage.active = true := by
  simp only [State.eligible, Bool.and_eq_true] at h
  exact ⟨h.1.1.1, h.1.1.2⟩

/-- A step that an order can have next: of the kind of its body, and for an addressed frame at an occupied entry (R94). -/
def StepFits (d : Dir) (o : Order) : Step → Prop
  | .repeatNo _ => o.body.group ≠ none
  | .attempt i _ => o.body.group ≠ none ∧ ∃ h, d.get i = some h
  | .query i _ => o.body.group = none ∧ ∃ h, d.get i = some h
  | .refresh => False

theorem StepFits.of_body {d : Dir} {o o' : Order} {step : Step} (h : StepFits d o step) (hb : o'.body = o.body) :
    StepFits d o' step := by
  unfold StepFits at h ⊢
  rwa [hb]

theorem Dir.get_of_mem {d : Dir} {e : Nat × House} (h : e ∈ d.houses) : ∃ k, d.get e.1 = some k := by
  unfold Dir.get
  cases hf : d.houses.find? fun x => x.1 == e.1 with
  | none => exact absurd (List.find?_eq_none.mp hf e h) (by simp)
  | some x => exact ⟨x.2, rfl⟩

theorem Dir.get_of_mem_members {d : Dir} {g : Fin 16} {p : Phase} {j : Nat} (h : j ∈ d.members g p) :
    ∃ k, d.get j = some k := by
  obtain ⟨e, he, rfl⟩ := List.mem_map.mp h
  exact Dir.get_of_mem (List.mem_filter.mp he).1

theorem Dir.get_of_firstBeyond {d : Dir} {g : Fin 16} {p : Phase} {dirn : Direction} {i j : Nat}
    (h : d.firstBeyond g p dirn i = some j) : ∃ k, d.get j = some k := by
  unfold Dir.firstBeyond at h
  cases dirn with
  | ascending => exact Dir.get_of_mem_members (List.mem_filter.mp (List.min?_mem h)).1
  | descending => exact Dir.get_of_mem_members (List.mem_filter.mp (List.max?_mem h)).1

theorem sweepStep_fits {d : Dir} {p : Phase} {g : Fin 16} {dirn : Direction} {pp : Progress} {o : Order} {step : Step}
    (hb : o.body.group ≠ none) (h : sweepStep d p g dirn pp = some (.slot step)) : StepFits d o step := by
  unfold sweepStep at h
  split at h
  · cases h
  next i _ =>
    split at h
    next hm =>
      cases h
      refine ⟨hb, ?_⟩
      unfold Dir.isMember at hm
      split at hm
      next k hk => exact ⟨k, hk⟩
      · cases hm
    · split at h
      next j hj => cases h; exact ⟨hb, Dir.get_of_firstBeyond hj⟩
      · cases h

theorem queryStep_fits {d : Dir} {p : Phase} {target : Nat} {pp : Progress} {o : Order} {step : Step}
    (hb : o.body.group = none) (h : queryStep d p target pp = some (.slot step)) : StepFits d o step := by
  unfold queryStep at h
  split at h
  · cases h
  · split at h
    next k hk =>
      split at h
      · cases h; exact ⟨hb, k, hk⟩
      · cases h
    · cases h

theorem nextStep_fits {d : Dir} {p : Phase} {o : Order} {pp : Progress} {step : Step}
    (h : nextStep d p o pp = some (.slot step)) : StepFits d o step := by
  unfold nextStep at h
  split at h
  · split at h
    next hb => exact queryStep_fits (by simp [hb, OrderBody.group]) h
    next hb =>
      have hg : o.body.group ≠ none := by simp [hb, OrderBody.group]
      split at h
      · cases h; exact hg
      · split at h
        · cases h
        · exact sweepStep_fits hg h
    next hb =>
      have hg : o.body.group ≠ none := by simp [hb, OrderBody.group]
      split at h
      · cases h; exact hg
      · split at h
        · cases h
        · exact sweepStep_fits hg h
  · cases h

/-! ### Frames as they are composed -/

/-- The records of the table hold no tag twice (R1). -/
def Orm.TagsDistinct (m : Orm) : Prop := (m.table.map (·.tag)).Nodup

theorem Orm.Distinct.tags {m : Orm} (h : m.Distinct) : m.TagsDistinct :=
  List.pairwise_map.mpr (List.Pairwise.imp (fun hxy => hxy.1) h)

theorem Orm.TagsDistinct.eq_of_tag {m : Orm} (hd : m.TagsDistinct) {x y : Order} (hx : x ∈ m.table) (hy : y ∈ m.table)
    (h : x.tag = y.tag) : x = y :=
  List.inj_on_of_nodup_map hd hx hy h

/-- A frame composed in a state: a REFRESH, or the frame of an order's step, which where tags are distinct is a step the order
can have. -/
def Composed (s : State) (f : Frame) : Prop :=
  (∃ p k g, f = s.refreshFrame p k g)
    ∨ ∃ p k, ∃ o ∈ s.orm.table, ∃ step, f = s.orderFrame p k o step ∧ (s.orm.TagsDistinct → StepFits s.dir o step)

theorem State.orderFrame_work (s : State) (p : Phase) (k : Nat) (o : Order) (step : Step) :
    (s.orderFrame p k o step).work = .order o.tag := by
  cases step <;> rfl

/-! ### The acts of a line controller -/

/-- The order a slot or a frame works for may be served on the phase. -/
def Serves (s : State) (p : Phase) (tag : Tag) : Prop :=
  ∃ o ∈ s.orm.table, o.tag = tag ∧ o.state.live = true ∧ (o.progress.get p).stage.active = true

/-- No slot is in progress on a line controller whose frame on line and segment agree. -/
def Line.Idle (l : Line) : Prop := l.onLine = none ∨ l.segment = .none

/-- An act of the line controller of phase `p`. -/
inductive LineAct (p : Phase) : State → State → Prop
  | pick (s : State) (n : Nat) : LineAct p s { s with picks := n }
  | settle {s t : State} {tag : Tag} (hs : Serves s p tag) (hi : (s.line p).Idle) (h : OrderActs p tag s t) : LineAct p s t
  | serve {s : State} {tag : Tag} (hs : Serves s p tag) : LineAct p s (s.takeService p tag)
  | stage {s : State} {f : Frame} (hf : Composed s f) : LineAct p s (s.modLine p fun l => { l with staged := some f })
  | discard (s : State) : LineAct p s (s.modLine p Line.discardStaged)
  | beginSlot {s : State} {f : Frame} (hc : (s.line p).causes.isEmpty = true) (hi : (s.line p).Idle)
      (hh : (s.line p).holdPending = false) (hf : (s.line p).staged = some f ∨ Composed s f)
      (hs : ∀ tag, f.work = .order tag → Serves s p tag) : LineAct p s (s.beginSlot p f)
  | endSlot {s : State} {ol : OnLine} {st : Stats → Stats} {tx : Bool} {reply : Option LineReply}
      (hon : (s.line p).onLine = some ol) (hm : ∀ r ∈ reply, r.margin ≤ 63) :
      LineAct p s (((s.modLine p fun l => { l with stats := st l.stats, txEnable := tx && l.txEnable }).endSlot p reply).modLine p
        Line.takeHold)
  | hold {s : State} (hi : (s.line p).Idle) : LineAct p s (s.modLine p Line.takeHold)
  | toSend {s : State} (h : (s.line p).segment = .guard) (hon : (s.line p).onLine ≠ none) :
      LineAct p s (s.modLine p fun l => { l with segment := .send, txEnable := true })
  | toQuiet {s : State} {ol : OnLine} {seg : Segment} {f : Line → Line} {st : Stats} {tx : Bool}
      (hon : (s.line p).onLine = some ol)
      (hseg : seg = .relay ∨ seg = .listen) (htx : tx = false ∨ (tx = (s.line p).txEnable ∧ (s.line p).segment = .relay))
      (hf : f (s.line p) = { s.line p with segment := seg, stats := st, txEnable := tx }) : LineAct p s (s.modLine p f)
  | stats (s : State) (f : Stats → Stats) : LineAct p s (s.modLine p fun l => l.countStats f)
  | waiting (s : State) (f : List RxFrame → List RxFrame) :
      LineAct p s (s.modLine p fun l => { l with waiting := f l.waiting })

abbrev LineActs (p : Phase) : State → State → Prop := ReflTransGen (LineAct p)

theorem State.line_takeService (s : State) (p q : Phase) (tag : Tag) : (s.takeService p tag).line q = s.line q := rfl

/-- The order that takes service stays one that may be served. -/
theorem Serves.takeService {s : State} {p : Phase} {tag : Tag} (h : Serves s p tag) : Serves (s.takeService p tag) p tag := by
  obtain ⟨o, ho, ht, hl, ha⟩ := h
  refine ⟨o.serve s.dir p, ?_, by simp [ht], ?_⟩
  · rw [State.takeService_table]
    exact List.mem_map.mpr ⟨o, ho, by simp [Order.passService, ht]⟩
  · unfold Order.serve
    split
    · refine ⟨?_, by simp [Order.modProgress, Stage.active]⟩
      dsimp only [Order.modProgress]
      split
      · rfl
      · exact hl
    · exact ⟨hl, by simp [Order.modProgress, Stage.active]⟩
    · exact ⟨hl, ha⟩

theorem State.select_serves {s : State} {p : Phase} {ahead : Ahead} {tag : Tag} {next : NextStep}
    (h : s.select p ahead = .order tag next) : Serves s p tag := by
  obtain ⟨o, ho, ht, hel, -⟩ := State.select_order h
  exact ⟨o, ho, ht, State.eligible_live hel⟩

/-- What selection names is composed with the order's service taken, and fits the order. -/
theorem State.compose_cases {s u : State} {p : Phase} {ahead : Ahead} {c : Choice} (h : u.select p ahead = c)
    (horm : s.orm = u.orm) (hdir : s.dir = u.dir) (k : Nat) :
    (∃ g f, c = .refresh g ∧ s.compose p k c = (s, some f) ∧ f.work = .refresh g ∧ Composed s f)
      ∨ (∃ tag step f, c = .order tag (.slot step) ∧ s.compose p k c = (s.takeService p tag, some f) ∧ f.work = .order tag
          ∧ Serves s p tag ∧ Composed (s.takeService p tag) f)
      ∨ (∃ tag, s.compose p k c = (s.takeService p tag, none) ∧ Serves s p tag)
      ∨ s.compose p k c = (s, none) := by
  match c, h with
  | .nothing, _ => exact .inr (.inr (.inr rfl))
  | .refresh g, _ => exact .inl ⟨g, _, rfl, rfl, rfl, .inl ⟨p, k, g, rfl⟩⟩
  | .order _ .close, _ => exact .inr (.inr (.inr rfl))
  | .order _ .vacant, _ => exact .inr (.inr (.inr rfl))
  | .order tag (.slot step), h =>
    have hserves : Serves s p tag := by
      obtain ⟨o, ho, ht, hl, ha⟩ := State.select_serves h
      exact ⟨o, horm ▸ ho, ht, hl, ha⟩
    obtain ⟨o, ho, ht, -, hnext⟩ := State.select_order h
    cases hfind : (s.takeService p tag).findOrder tag with
    | none => exact .inr (.inr (.inl ⟨tag, by simp [State.compose, hfind], hserves⟩))
    | some x =>
      have hx : x ∈ (s.takeService p tag).orm.table := State.findOrder_mem hfind
      have hxt : x.tag = tag := State.findOrder_tag hfind
      refine .inr (.inl ⟨tag, step, (s.takeService p tag).orderFrame p k x step, rfl, by simp [State.compose, hfind], ?_,
        hserves, .inr ⟨p, k, x, hx, step, rfl, fun hd => ?_⟩⟩)
      · rw [State.orderFrame_work, hxt]
      · have hd' : s.orm.TagsDistinct := by rwa [Orm.TagsDistinct, State.takeService_tags] at hd
        rw [State.takeService_table] at hx
        obtain ⟨y, hy, rfl⟩ := List.mem_map.mp hx
        have hyo : y = o := hd'.eq_of_tag hy (horm ▸ ho) (by rw [ht, ← hxt, Order.passService_tag])
        subst hyo
        rw [State.takeService_dir, hdir]
        exact (nextStep_fits hnext).of_body (y.passService_body _ _ _)

theorem State.stage_acts {s : State} {p : Phase} {ahead : Ahead} (k : Nat) :
    LineActs p s (s.stage p k (s.select p ahead)) := by
  unfold State.stage
  obtain ⟨g, f, -, hc, -, hf⟩ | ⟨tag, step, f, -, hc, -, hs, hf⟩ | ⟨tag, hc, hs⟩ | hc :=
    State.compose_cases (s := s) (u := s) (p := p) (ahead := ahead) rfl rfl rfl k <;> rw [hc]
  · exact .single (.stage hf)
  · exact (ReflTransGen.single (.serve hs)).tail (.stage hf)
  · exact .single (.serve hs)

/-- Settling leaves the line controllers, and what is left over is what selection names there. -/
theorem State.selectSettled_acts (fuel : Nat) (p : Phase) (s : State) (hi : (s.line p).Idle) :
    LineActs p s (State.selectSettled fuel p s).1 ∧ (State.selectSettled fuel p s).1.lines = s.lines
      ∧ ((State.selectSettled fuel p s).2 = .nothing
        ∨ (State.selectSettled fuel p s).1.select p none = (State.selectSettled fuel p s).2) := by
  induction fuel generalizing s with
  | zero => exact ⟨.refl, rfl, .inl rfl⟩
  | succ fuel ih =>
    unfold State.selectSettled
    split
    next h => exact ⟨.refl, rfl, .inr h⟩
    next tag next _ h =>
      obtain ⟨o, ho, rfl, hl, ha⟩ := State.select_serves h
      have hacts : OrderActs p o.tag s (s.settle p o.tag next) := State.settle_acts ho hl ha next
      have hlines : (s.settle p o.tag next).lines = s.lines := hacts.outside.lines
      have hidle : ((s.settle p o.tag next).line p).Idle := by
        rw [hacts.outside.line p]
        exact hi
      obtain ⟨hrest, hrlines, hchoice⟩ := ih _ hidle
      exact ⟨(ReflTransGen.single (.settle ⟨o, ho, rfl, hl, ha⟩ hi hacts)).trans hrest, hrlines.trans hlines, hchoice⟩
    · exact ⟨.refl, rfl, .inr rfl⟩

/-! ### The gap (R75) -/

theorem Line.Idle.discardStaged {l : Line} (h : l.Idle) : l.discardStaged.Idle := h

theorem State.composed_acts {s : State} {p : Phase} {c : Choice} (hi : (s.line p).Idle)
    (hc : c = .nothing ∨ s.select p none = c) :
    LineActs p s (match (s.modLine p Line.discardStaged).compose p 0 c with
      | (s1, some f) => s1.beginSlot p f
      | (s1, none) => s1) := by
  have hdiscard : LineActs p s (s.modLine p Line.discardStaged) := .single (.discard s)
  obtain rfl | hsel := hc
  · exact hdiscard
  · have hopen : ∀ f, (c = .refresh f ∨ ∃ tag next, c = .order tag next) →
        (s.line p).causes.isEmpty = true ∧ (s.line p).holdPending = false := fun f h =>
      State.select_open hsel (by rintro rfl; simp at h)
    obtain ⟨g, f, hg, hcomp, hw, hf⟩ | ⟨tag, step, f, ho, hcomp, hw, hs, hf⟩ | ⟨tag, hcomp, hs⟩ | hcomp :=
      State.compose_cases (s := s.modLine p Line.discardStaged) hsel rfl rfl 0 <;> rw [hcomp]
    · obtain ⟨hcauses, hhold⟩ := hopen g (.inl hg)
      refine hdiscard.tail (.beginSlot ?_ ?_ ?_ (.inr hf) fun tag h => ?_)
      · rwa [State.line_modLine_same]
      · rwa [State.line_modLine_same]
      · rwa [State.line_modLine_same]
      · rw [hw] at h; cases h
    · obtain ⟨hcauses, hhold⟩ := hopen 0 (.inr ⟨_, _, ho⟩)
      refine (hdiscard.tail (.serve hs)).tail (.beginSlot ?_ ?_ ?_ (.inr hf) fun t h => ?_)
      · rwa [State.line_takeService, State.line_modLine_same]
      · rwa [State.line_takeService, State.line_modLine_same]
      · rwa [State.line_takeService, State.line_modLine_same]
      · rw [hw] at h; cases h; exact hs.takeService
    · exact hdiscard.tail (.serve hs)
    · exact hdiscard

theorem State.stands_serves {s : State} {p : Phase} {answered : Option Work} {f : Frame} {c : Choice}
    (h : s.stands p answered f c = true) :
    (s.line p).causes.isEmpty = true ∧ c ≠ .nothing ∧ ∀ tag, f.work = .order tag → Serves s p tag := by
  simp only [State.stands, Bool.and_eq_true] at h
  obtain ⟨⟨⟨-, hcauses⟩, -⟩, hmatch⟩ := h
  refine ⟨hcauses, ?_, fun tag hw => ?_⟩
  · rintro rfl
    simp at hmatch
  · rw [hw] at hmatch
    split at hmatch
    next tag' step t hwt =>
      cases hwt
      simp only [Bool.and_eq_true, decide_eq_true_eq] at hmatch
      obtain ⟨⟨rfl, -⟩, hel⟩ := hmatch
      split at hel
      next o ho => exact ⟨o, State.findOrder_mem ho, State.findOrder_tag ho, State.eligible_live hel⟩
      · cases hel
    next hwt => cases hwt
    · cases hmatch

theorem State.judgeStaged_acts {s : State} {p : Phase} {answered : Option Work} {c : Choice} (hi : (s.line p).Idle)
    (hc : c = .nothing ∨ s.select p none = c) : LineActs p s (s.judgeStaged p answered c) := by
  unfold State.judgeStaged
  dsimp only
  split
  next f hf =>
    split
    next hstands =>
      obtain ⟨hcauses, hne, hserves⟩ := State.stands_serves hstands
      obtain ⟨-, hhold⟩ := State.select_open (hc.resolve_left hne) hne
      exact .single (.beginSlot hcauses hi hhold (.inl hf) hserves)
    · exact State.composed_acts hi hc
  · exact State.composed_acts hi hc

theorem Line.takeHold_idle {l : Line} (h : l.Idle) : l.takeHold.Idle := by
  unfold Line.takeHold
  split <;> exact h

/-- What follows the end of a slot, and a pending hold's taking effect, at their gap. -/
theorem State.afterEnd_acts (s : State) (p : Phase) (answered : Option Work) (fuel : Nat) (hi : (s.line p).Idle) :
    LineActs p (s.modLine p Line.takeHold) ((State.selectSettled fuel p (s.modLine p Line.takeHold)).1.judgeStaged p answered
      (State.selectSettled fuel p (s.modLine p Line.takeHold)).2) := by
  have hi' : ((s.modLine p Line.takeHold).line p).Idle := by
    rw [State.line_modLine_same]
    exact Line.takeHold_idle hi
  obtain ⟨hacts, hlines, hchoice⟩ := State.selectSettled_acts fuel p _ hi'
  have hidle : ((State.selectSettled fuel p (s.modLine p Line.takeHold)).1.line p).Idle := by
    rw [State.line, hlines]
    exact hi'
  exact hacts.trans (State.judgeStaged_acts hidle hchoice)

theorem State.endSlot_idle {s : State} (p : Phase) (reply : Option LineReply) : ((s.endSlot p reply).line p).Idle := by
  unfold State.endSlot
  split
  next h => exact .inl h
  · exact .inl (by rw [State.line_modLine_same])

/-- The gap of a slot whose SEND or LISTEN ends here. -/
theorem State.gap_acts {s : State} {p : Phase} {ol : OnLine} (st : Stats → Stats) (tx : Bool) {reply : Option LineReply}
    (hon : (s.line p).onLine = some ol) (hm : ∀ r ∈ reply, r.margin ≤ 63) :
    LineActs p s ((s.modLine p fun l => { l with stats := st l.stats, txEnable := tx && l.txEnable }).gap p reply) :=
  (ReflTransGen.single (.endSlot (st := st) (tx := tx) hon hm)).trans
    (State.afterEnd_acts _ p _ _ (State.endSlot_idle p reply))

theorem State.modLine_self {s : State} {p : Phase} {f : Line → Line} (h : f (s.line p) = s.line p) : s.modLine p f = s := by
  have hl : s.lines.set p (f (s.lines.get p)) = s.lines := Tri.ext_get fun q => by
    by_cases hq : q = p
    · subst hq
      rw [Tri.get_set_same]
      exact h
    · rw [Tri.get_set_ne _ _ hq]
  rw [State.modLine, hl]

theorem State.gap_acts_plain {s : State} {p : Phase} {reply : Option LineReply} (hm : ∀ r ∈ reply, r.margin ≤ 63) :
    LineActs p s (s.gap p reply) := by
  cases hon : (s.line p).onLine with
  | none =>
    have he : s.endSlot p reply = s := by simp only [State.endSlot, hon]
    have hrest := (ReflTransGen.single (LineAct.hold (.inl hon))).trans
      (State.afterEnd_acts s p (s.answeredWork p reply) (s.orm.table.length + 1) (.inl hon))
    unfold State.gap
    simpa only [he, State.modLine_orm] using hrest
  | some ol =>
    have hself : s.modLine p (fun l => { l with stats := id l.stats, txEnable := true && l.txEnable }) = s :=
      State.modLine_self (by simp)
    have hgap := State.gap_acts id true hon hm
    rwa [hself] at hgap

/-! ### Segment moves and crossings -/

theorem State.stagingPoint_acts (s : State) (p : Phase) (ol : OnLine) (k : Nat) : LineActs p s (s.stagingPoint p ol k) :=
  State.stage_acts k

theorem State.endGuard_acts {s : State} {p : Phase} {ol : OnLine} (h : (s.line p).segment = .guard)
    (hon : (s.line p).onLine = some ol) : LineActs p s (s.endGuard p ol) := by
  have hsend := ReflTransGen.single (LineAct.toSend h (by simp [hon]))
  unfold State.endGuard
  dsimp only
  split
  · exact hsend.trans (State.stagingPoint_acts _ _ _ _)
  · exact hsend

/-- Two changes of one line controller in a row are one change. -/
theorem State.modLine_modLine (s : State) (p : Phase) (f g : Line → Line) :
    (s.modLine p f).modLine p g = s.modLine p fun l => g (f l) := by
  have hl : (s.lines.set p (f (s.lines.get p))).set p (g ((s.lines.set p (f (s.lines.get p))).get p))
      = s.lines.set p (g (f (s.lines.get p))) := Tri.ext_get fun q => by
    by_cases hq : q = p
    · subst hq; simp
    · simp [hq]
  simp only [State.modLine, hl]

theorem State.endSend_acts {s : State} {p : Phase} {ol : OnLine} (hon : (s.line p).onLine = some ol) :
    LineActs p s (s.endSend p ol) := by
  unfold State.endSend
  dsimp only
  split
  · have hgap := State.gap_acts (fun st => { st with framesSent := bump st.framesSent }) false hon
      (reply := none) (by simp)
    exact hgap
  · split
    · rw [State.modLine_modLine]
      exact .single (.toQuiet (seg := .relay) (tx := false) hon (.inl rfl) (.inl rfl) rfl)
    · rw [State.modLine_modLine]
      exact (ReflTransGen.single (.toQuiet (seg := .listen) (tx := false) hon (.inr rfl) (.inl rfl) rfl)).trans
        (State.stagingPoint_acts _ _ _ _)

theorem State.endRelay_acts {s : State} {p : Phase} {ol : OnLine} (h : (s.line p).segment = .relay)
    (hon : (s.line p).onLine = some ol) : LineActs p s (s.endRelay p ol) :=
  (ReflTransGen.single (.toQuiet (st := (s.line p).stats) hon (.inr rfl) (.inr ⟨rfl, h⟩) rfl)).trans
    (State.stagingPoint_acts _ _ _ _)

/-- The move that is due is that of the segment in which the frame on line stands. -/
theorem State.dueMove_segment {s : State} {p : Phase} {m : Move} {ol : OnLine} (h : s.dueMove p = some (m, ol)) :
    (s.line p).onLine = some ol
      ∧ match m with
        | .guardEnd => (s.line p).segment = .guard ∧ ol.offset (s.mains p).hc = ol.frame.sendAt
        | .sendComplete => (s.line p).segment = .send ∧ ol.offset (s.mains p).hc = ol.frame.sendEndAt
        | .relayEnd => (s.line p).segment = .relay ∧ ol.offset (s.mains p).hc = ol.frame.listenAt
        | .plannedEnd => (s.line p).segment = .listen ∧ ol.offset (s.mains p).hc = ol.frame.planned := by
  unfold State.dueMove at h
  dsimp only at h
  split at h
  · cases h
  next ol' hon =>
    split at h
    next offset m' hmove =>
      split at h
      next hoff =>
        cases h
        refine ⟨hon, ?_⟩
        unfold Frame.moveAfter at hmove
        split at hmove <;> cases hmove <;> exact ⟨‹_›, hoff⟩
      · cases h
    · cases h

theorem State.move_acts {s : State} {p : Phase} {m : Move} {ol : OnLine} (h : s.dueMove p = some (m, ol)) :
    LineActs p s (s.move p ol m) := by
  obtain ⟨hon, hseg⟩ := State.dueMove_segment h
  cases m with
  | guardEnd => exact State.endGuard_acts hseg.1 hon
  | sendComplete => exact State.endSend_acts hon
  | relayEnd => exact State.endRelay_acts hseg.1 hon
  | plannedEnd => exact State.gap_acts_plain (by simp)

theorem State.takeMove_acts (s : State) (p : Phase) : LineActs p s (s.takeMove p) := by
  unfold State.takeMove
  split
  next h => exact State.move_acts h
  · exact .refl

theorem State.takeMoveIf_acts (s : State) (p : Phase) (m : Move) : LineActs p s (s.takeMoveIf p m) := by
  obtain h | ⟨ol, hdue, h⟩ := s.takeMoveIf_cases p m
  · rw [h]
  · exact h ▸ State.move_acts hdue

theorem marginOf_le (b : Byte) : marginOf b ≤ 63 := by
  have := (b.extractLsb' 0 6).isLt
  unfold marginOf
  omega

theorem judgeFrame_accepted {store : Scs} {l : Line} {hc : Hc} {f : RxFrame} {r : LineReply}
    (h : judgeFrame store l hc f = .accepted r) : r.margin ≤ 63 ∧ ∃ ol, l.onLine = some ol ∧ l.listening hc = true := by
  unfold judgeFrame at h
  dsimp only at h
  split at h
  · cases h
  · split at h
    · cases h
    · split at h
      · cases h
      · split at h
        · cases h
        next ol hon =>
          split at h
          · cases h
          next hl =>
            have hlist : l.listening hc = true := by
              simp only [Bool.or_eq_true, Bool.not_eq_true', not_or, Bool.not_eq_false] at hl
              exact hl.1
            split at h
            · cases h
            · split at h <;> cases h <;> exact ⟨marginOf_le _, ol, hon, hlist⟩

theorem State.takeFrame_acts (s : State) (p : Phase) (f : RxFrame) : LineActs p s (s.takeFrame p f) := by
  unfold State.takeFrame
  split
  · exact .refl
  · split
    · exact .single (.stats s _)
    · exact .single (.stats s _)
    · exact .refl
    · exact .single (.stats s _)
    next r hr =>
      obtain ⟨hm, ol, hon, -⟩ := judgeFrame_accepted hr
      have hgap := State.gap_acts (fun st => { st with repliesAccepted := bump st.repliesAccepted, quality := some f.quality })
        true hon (reply := some r) (by simpa using hm)
      exact hgap

theorem State.takeWaiting_acts (s : State) (p : Phase) : LineActs p s (s.takeWaiting p) :=
  (ReflTransGen.single (.waiting s fun _ => [])).trans
    (State.forEachFree_acts LineAct.pick _ _ fun u f _ => u.takeFrame_acts p f)

/-- A frame that finds no slot in LISTEN is counted at most, so that no slot begins by it. -/
theorem State.takeFrame_segment_none {s : State} {p : Phase} (f : RxFrame) (h : (s.line p).segment = .none) :
    ((s.takeFrame p f).line p).segment = .none := by
  unfold State.takeFrame
  split
  · exact h
  · split
    · rw [State.line_modLine_same]; exact h
    · rw [State.line_modLine_same]; exact h
    · exact h
    · rw [State.line_modLine_same]; exact h
    next hr =>
      obtain ⟨-, ol, hon, hl⟩ := judgeFrame_accepted hr
      simp [Line.listening, hon, h] at hl

theorem State.takeWaiting_segment_none {s : State} {p : Phase} (h : (s.line p).segment = .none) :
    ((s.takeWaiting p).line p).segment = .none :=
  State.forEachFree_induct (P := fun t => (t.line p).segment = .none) _ _ _ (fun _ _ h => h)
    (fun _ f _ h => State.takeFrame_segment_none f h) (by rw [State.line_modLine_same]; exact h)

theorem State.idleCrossing_acts {s : State} {p : Phase} (h : (s.line p).segment = .none) :
    LineActs p s (s.idleCrossing p) := by
  obtain ⟨hacts, -, hchoice⟩ := State.selectSettled_acts (s.orm.table.length + 1) p s (.inr h)
  unfold State.idleCrossing
  split
  · split
    · exact State.gap_acts_plain (by simp)
    · exact hacts
  · dsimp only
    obtain hnone | hsel := hchoice
    · rw [hnone]
      exact hacts
    · exact hacts.trans (hsel ▸ State.stage_acts (ahead := none) 1)

theorem State.deliver_acts (s : State) (p : Phase) : LineActs p s (s.deliver p) := by
  unfold State.deliver
  dsimp only
  split
  · exact (s.takeWaiting_acts p).trans (State.takeMove_acts _ p)
  next h =>
    have hseg : (s.line p).segment = .none := by simpa [Line.inSlot] using h
    exact (s.takeWaiting_acts p).trans (State.idleCrossing_acts (State.takeWaiting_segment_none hseg))

theorem State.frameCompleted_acts (s : State) (p : Phase) (f : RxFrame) : LineActs p s (s.frameCompleted p f) := by
  unfold State.frameCompleted
  split
  · exact .refl
  · exact .single (.waiting s fun w => w ++ [f])

theorem State.holdTakesEffect_acts (s : State) (p : Phase) : LineActs p s (s.holdTakesEffect p) := by
  unfold State.holdTakesEffect
  split
  · exact .refl
  next h => exact .single (.hold (.inr (by simpa [Line.inSlot] using h)))

end Sys2Proof.Machine
end

section
/-! PROOF. What a step of the machine can do, said once: every command but a power-up is a sequence of elementary acts of the blocks
(R143 to R149 for the link, R131 to R141 for the mains and the clock, and the requests' owners). -/

namespace Sys2Proof.Machine

open Relation (ReflTransGen)

/-! ### The acts of the requests' owners -/

/-- The new order joins the table with the tag and the sequence it takes (R12). -/
def State.enlist (s : State) (o : Order) : State :=
  { s with orm := { s.orm with
      table := s.orm.table ++ [o], tagCounter := nextTag o.tag, seqCounter := s.orm.seqCounter + 1 } }

/-- The new order joins the table, and supersedes the live one of its kind and group (R12, R13). -/
def State.enroll (s : State) (o : Order) : State := (s.enlist o).supersede o

theorem State.admitOrder_eq (s : State) (o : Order) :
    s.admitOrder o = if o.body.group = none then s.enroll o else (s.enroll o).adoptionCheck := by
  unfold State.admitOrder State.enroll State.enlist
  cases hb : o.body with
  | band | relay => rfl
  | query i => simp [State.supersede, State.supersededBy, hb, OrderBody.group]

/-- A stretch of a step: what comes before an accepted crossing and with it, what may add records to the order table, and what
may take records from it. -/
inductive Stretch
  | crossing
  | admitting
  | plain

/-- An act of the owner of a request (R9, R20 to R25, R37 to R45, R86, R87, R92, R138, R152 to R159). -/
inductive OwnerAct : Stretch → State → State → Prop
  | check {k : Stretch} {s t : State} (h : CheckAct s t) : OwnerAct k s t
  | clearFlags {k : Stretch} (s : State) : OwnerAct k s { s with rlc := { s.rlc with overrun := false, noticeLost := false } }
  | reset (s : State) : OwnerAct .plain s (handleReset s).1
  | enroll {s : State} {f : SubmitFields} {q : Submission} (hq : submissionOf f s.now = some q)
      (hcap : s.orm.table.length < Config.orderCapacity) : OwnerAct .admitting s (s.enroll (admittedOrder s f q s.orm.freeTag))
  | release {s : State} {tag : Tag} {o : Order} (ho : s.findOrder tag = some o) (hf : o.state.final = true) :
      OwnerAct .plain s { s with orm := { s.orm with table := s.orm.table.filter fun x => x.tag != tag } }
  | floor {k : Stretch} (s : State) {n : Nat} (hn : n ≤ 7) : OwnerAct k s { s with orm := { s.orm with floor := n } }
  | config {k : Stretch} (s : State) {x : Param} (n : Nat) :
      OwnerAct k s { s with params := s.params.put x (clampTo x.low x.high n) }
  | tagCounter {k : Stretch} {s : State} (h : s.orm.table = []) (n : Nat) :
      OwnerAct k s { s with orm := { s.orm with
        tagCounter := BitVec.ofNat 16 (clampTo Param.tagBase.low Param.tagBase.high n) } }
  | put {k : Stretch} {s : State} {i : Nat} {a : Addr} {p : Phase} (groups : BitVec 16) {route : List Nat} (hi : i < Config.houseCapacity)
      (ha : addressOk a = true) (hb : s.busy i = false) (he : s.dir.addressElsewhere i a = false)
      (hlen : route.length ≤ 2) (hr : s.dir.routeOk i p route = true) (href : s.dir.referenceOk i p route = true) :
      OwnerAct k s { s with dir := s.dir.edit i a p groups route }
  | remove {k : Stretch} {s : State} {i : Nat} {h : House} (hg : s.dir.get i = some h) (hb : s.busy i = false) (href : h.refCount = 0) :
      OwnerAct k s { s with dir := (s.dir.moveReferences h.route []).remove i }
  | freeze {k : Stretch} {s : State} {f : Freeze} (hf : f.first ≤ f.last ∧ f.last < Config.houseCapacity)
      (hcap : s.dir.freezes.length < Config.freezeCapacity) :
      OwnerAct k s { s with dir := { s.dir with freezes := s.dir.freezes ++ [f] } }
  | thaw {k : Stretch} (s : State) {keep : Freeze → Bool} (hk : ∀ f, f.mode = .hard → keep f = true) :
      OwnerAct k s { s with dir := { s.dir with freezes := s.dir.freezes.filter keep } }
  | pendHold {k : Stretch} {s : State} {p : Phase} (hs : (s.line p).segment ≠ .none) (hh : (s.line p).causes.held = false) :
      OwnerAct k s (s.modLine p fun l => { l with holdPending := true })
  | holdNow {k : Stretch} {s : State} {p : Phase} (hs : (s.line p).segment = .none) (hh : (s.line p).holdPending = false) :
      OwnerAct k s (s.modLine p fun l => { l with causes := { l.causes with held := true } })
  | resume {k : Stretch} (s : State) (p : Phase) :
      OwnerAct k s (s.modLine p fun l => { l with causes := { l.causes with held := false }, holdPending := false })
  | zeroStats {k : Stretch} (s : State) (p : Phase) : OwnerAct k s (s.modLine p fun l => { l with stats := Stats.zero })
  | setClock {k : Stretch} (s : State) (v : BitVec 32) : OwnerAct k s ((s.setClock v.toNat).noteTimes)
  | unstage {k : Stretch} (s : State) : OwnerAct k s (s.mapLines Line.discardStaged)
  | adjust {k : Stretch} (s : State) : OwnerAct k s s.adjustRefresh

abbrev OwnerActs (k : Stretch) : State → State → Prop := ReflTransGen (OwnerAct k)

theorem CheckActs.ownerActs {k : Stretch} {s t : State} (h : CheckActs s t) : OwnerActs k s t := h.lift id fun _ _ => .check

theorem handleSetTime_acts {k : Stretch} (v : BitVec 32) (s : State) : OwnerActs k s (handleSetTime v s).1 :=
  (((ReflTransGen.single (.setClock s v)).tail (.unstage _)).trans (State.clockChecks_acts _).ownerActs).tail (.adjust _)

theorem handleSetConfig_acts {k : Stretch} (id : Byte) (v : BitVec 16) (s : State) : OwnerActs k s (handleSetConfig id v s).1 := by
  unfold handleSetConfig
  split
  · exact .refl
  next x _ =>
    split
    · exact .refl
    next hne =>
      dsimp only
      have hput := ReflTransGen.single (OwnerAct.config (k := k) s (x := x) v.toNat)
      split
      next hx =>
        subst hx
        have htable : s.orm.table = [] := by simpa using hne
        have hload := OwnerAct.tagCounter (k := k)
          (s := { s with params := s.params.put .tagBase (clampTo Param.tagBase.low Param.tagBase.high v.toNat) }) htable v.toNat
        exact hput.tail hload
      · exact hput

theorem handle_writeSite_answered {s t : State} {c : Addr} {a : Answer} (h : handle s (.writeSite c) = (t, some a)) :
    t = s := by
  simp only [handle] at h
  split at h <;> cases h
  rfl

theorem putRoute_length (f : PutFields) : (putRoute f).length ≤ 2 := by
  simp only [putRoute, List.length_take, List.length_cons, List.length_nil]
  omega

theorem handleHousePut_acts {k : Stretch} (f : PutFields) (s : State) : OwnerActs k s (handleHousePut f s).1 := by
  unfold handleHousePut
  dsimp only
  split
  · exact .refl
  next p _ =>
    split_ifs with hrange hfrozen hbusy haddr hroute href
    · exact .refl
    · exact .refl
    · exact .refl
    · exact .refl
    · exact .refl
    · exact .refl
    · simp only [Bool.not_eq_true', Bool.not_eq_false, Bool.and_eq_true, Bool.not_eq_true] at hrange hbusy haddr hroute href
      obtain ⟨⟨⟨hi, ha⟩, -⟩, -⟩ := hrange
      exact .single (.put _ (of_decide_eq_true hi) ha hbusy haddr (putRoute_length f) hroute href)

theorem handleHouseRemove_acts {k : Stretch} (i : BitVec 16) (s : State) : OwnerActs k s (handleHouseRemove i s).1 := by
  unfold handleHouseRemove
  dsimp only
  split_ifs with hi hfrozen hbusy
  · exact .refl
  · exact .refl
  · exact .refl
  · split
    · exact .refl
    next h hg =>
      split
      · exact .refl
      next href => exact .single (.remove hg (by simpa using hbusy) (by simpa using href))

theorem handleFreeze_acts {k : Stretch} (first last : BitVec 16) (mode : Byte) (s : State) :
    OwnerActs k s (handleFreeze first last mode s).1 := by
  unfold handleFreeze
  split
  · exact .refl
  · split_ifs with hspan hcap
    · exact .refl
    · exact .refl
    · have hok : first.toNat ≤ last.toNat ∧ last.toNat ≤ 479 := (spanOk_iff _ _).mp (by simpa using hspan)
      exact .single (.freeze ⟨hok.1, Nat.lt_succ_of_le hok.2⟩ (Nat.lt_of_not_le hcap))

theorem handleThaw_acts {k : Stretch} (first last : BitVec 16) (s : State) : OwnerActs k s (handleThaw first last s).1 := by
  unfold handleThaw
  split
  · exact .refl
  · exact .single (.thaw s fun f hf => by simp [keptByThaw, hf])

theorem State.admitOrder_acts {s : State} {f : SubmitFields} {q : Submission} (hq : submissionOf f s.now = some q)
    (hcap : s.orm.table.length < Config.orderCapacity) :
    OwnerActs .admitting s (s.admitOrder (admittedOrder s f q s.orm.freeTag)) := by
  have henroll := ReflTransGen.single (OwnerAct.enroll hq hcap)
  rw [State.admitOrder_eq]
  split
  · exact henroll
  · exact henroll.trans (State.adoptionCheck_acts _).checkActs.ownerActs

theorem handleOrderSubmit_acts (f : SubmitFields) (s : State) : OwnerActs .admitting s (handleOrderSubmit f s).1 := by
  unfold handleOrderSubmit
  split
  · exact .refl
  · split
    · exact .refl
    · split
      · exact .refl
      next q hq =>
        split_ifs with _ _ _ hfull
        · exact .refl
        · exact .refl
        · exact .refl
        · exact .refl
        · exact State.admitOrder_acts hq (Nat.lt_of_not_le hfull)

theorem handleOrderRead_state (tag : Tag) (sect : Byte) (s : State) : (handleOrderRead tag sect s).1 = s := by
  unfold handleOrderRead
  split
  · rfl
  · split <;> rfl

theorem handleOrderCancel_acts {k : Stretch} (tag : Tag) (s : State) : OwnerActs k s (handleOrderCancel tag s).1 := by
  unfold handleOrderCancel
  split
  · exact .refl
  · split
    · exact .single (.check (.ended s tag .cancelled))
    · exact .refl

theorem State.findOrder_of_named {s : State} {tag : Tag} {o : Order} (h : s.named tag = some o) :
    s.findOrder tag = some o := by
  unfold State.named at h
  split at h
  · cases h
  · exact h

theorem handleOrderRelease_acts (tag : Tag) (s : State) : OwnerActs .plain s (handleOrderRelease tag s).1 := by
  unfold handleOrderRelease
  split
  · exact .refl
  next o ho =>
    split
    next hf => exact .single (.release (State.findOrder_of_named ho) hf)
    · exact .refl

theorem handlePhaseHold_acts {k : Stretch} (b : Byte) (s : State) : OwnerActs k s (handlePhaseHold b s).1 := by
  unfold handlePhaseHold
  split
  · exact .refl
  next p _ =>
    dsimp only
    split_ifs with hheld hpending hslot
    · exact .refl
    · exact .refl
    · exact .single (.pendHold (by simpa [Line.inSlot] using hslot) (by simpa using hheld))
    · exact .single (.holdNow (by simpa [Line.inSlot] using hslot) (by simpa using hpending))

theorem handlePhaseResume_acts {k : Stretch} (b : Byte) (s : State) : OwnerActs k s (handlePhaseResume b s).1 := by
  unfold handlePhaseResume
  split
  · exact .refl
  · exact .single (.resume s _)

theorem handlePhaseStats_acts {k : Stretch} (b clear : Byte) (s : State) : OwnerActs k s (handlePhaseStats b clear s).1 := by
  unfold handlePhaseStats
  split
  · exact .refl
  · dsimp only
    split
    · exact .single (.zeroStats s _)
    · exact .refl

theorem handleStandingRead_state (b : Byte) (s : State) : (handleStandingRead b s).1 = s := by
  unfold handleStandingRead
  split <;> rfl

theorem handleHouseGet_state (i : BitVec 16) (s : State) : (handleHouseGet i s).1 = s := by
  unfold handleHouseGet
  dsimp only
  split
  · rfl
  · split <;> rfl

theorem handleHouseFind_state (a : Addr) (s : State) : (handleHouseFind a s).1 = s := by
  unfold handleHouseFind
  split
  · rfl
  · split <;> rfl

theorem handleGetConfig_state (id : Byte) (s : State) : (handleGetConfig id s).1 = s := by
  unfold handleGetConfig
  split <;> rfl

/-- A request that is answered at once is a sequence of its owner's acts; an ORDER_SUBMIT takes no record from the table, and no
other request adds one. -/
theorem handle_acts {s t : State} {r : Request} {a : Answer} (h : handle s r = (t, some a)) :
    ∃ k, k ≠ .crossing ∧ OwnerActs k s t := by
  have ht : (handle s r).1 = t := congrArg Prod.fst h
  have hrefl : (handle s r).1 = s → OwnerActs .plain s t := fun he => by
    rw [← ht, he]
  cases r with
  | orderSubmit f => exact ⟨.admitting, nofun, ht ▸ handleOrderSubmit_acts f s⟩
  | getStatus => exact ⟨.plain, nofun, ht ▸ .single (.clearFlags s)⟩
  | getIdentity | getTime | orderList => exact ⟨.plain, nofun, hrefl rfl⟩
  | setTime v => exact ⟨.plain, nofun, ht ▸ handleSetTime_acts v s⟩
  | setConfig id v => exact ⟨.plain, nofun, ht ▸ handleSetConfig_acts id v s⟩
  | getConfig id => exact ⟨.plain, nofun, hrefl (handleGetConfig_state id s)⟩
  | writeSite c => exact ⟨.plain, nofun, by rw [handle_writeSite_answered h]⟩
  | housePut f => exact ⟨.plain, nofun, ht ▸ handleHousePut_acts f s⟩
  | houseGet i => exact ⟨.plain, nofun, hrefl (handleHouseGet_state i s)⟩
  | houseRemove i => exact ⟨.plain, nofun, ht ▸ handleHouseRemove_acts i s⟩
  | houseFind a => exact ⟨.plain, nofun, hrefl (handleHouseFind_state a s)⟩
  | freeze first last mode => exact ⟨.plain, nofun, ht ▸ handleFreeze_acts first last mode s⟩
  | thaw first last => exact ⟨.plain, nofun, ht ▸ handleThaw_acts first last s⟩
  | orderRead tag sect => exact ⟨.plain, nofun, hrefl (handleOrderRead_state tag sect s)⟩
  | orderCancel tag => exact ⟨.plain, nofun, ht ▸ handleOrderCancel_acts tag s⟩
  | orderRelease tag => exact ⟨.plain, nofun, ht ▸ handleOrderRelease_acts tag s⟩
  | setFloor f => exact ⟨.plain, nofun, ht ▸ .single (.floor s (Nat.min_le_right _ _))⟩
  | phaseHold b => exact ⟨.plain, nofun, ht ▸ handlePhaseHold_acts b s⟩
  | phaseResume b => exact ⟨.plain, nofun, ht ▸ handlePhaseResume_acts b s⟩
  | phaseStats b clear => exact ⟨.plain, nofun, ht ▸ handlePhaseStats_acts b clear s⟩
  | standingRead g => exact ⟨.plain, nofun, hrefl (handleStandingRead_state g s)⟩
  | reset => exact ⟨.plain, nofun, ht ▸ .single (.reset s)⟩

/-- Only a WRITE_SITE of a code in range on a BLANK store stays in HANDLING (R148, R161). -/
theorem handle_unanswered {s t : State} {r : Request} (h : handle s r = (t, none)) :
    ∃ c, r = .writeSite c ∧ addressOk c = true ∧ s.scs.state = .blank ∧ t = s.beginProgramming c := by
  cases r with
  | writeSite c =>
    simp only [handle] at h
    split at h
    · cases h
    next ha =>
      cases h
      unfold writeSiteAnswer at ha
      split at ha
      · cases ha
      next hok =>
        split at ha <;> cases ha
        next hblank => exact ⟨c, rfl, by simpa using hok, hblank, rfl⟩
  | _ => simp [handle] at h

/-! ### The parts of the link that the blocks' acts leave -/

/-- The parts of the link controller that nothing but the link's own acts touches. -/
structure SameRequests (s t : State) : Prop where
  receiver : t.rlc.receiver = s.rlc.receiver
  processing : t.rlc.processing = s.rlc.processing
  transmitter : t.rlc.transmitter = s.rlc.transmitter
  pending : t.pending = s.pending

theorem SameRequests.refl (s : State) : SameRequests s s := ⟨rfl, rfl, rfl, rfl⟩

theorem SameRequests.trans {s t u : State} (h : SameRequests s t) (k : SameRequests t u) : SameRequests s u :=
  ⟨k.receiver.trans h.receiver, k.processing.trans h.processing, k.transmitter.trans h.transmitter,
    k.pending.trans h.pending⟩

theorem SameRequests.of_rlc {s t : State} (h : t.rlc = s.rlc) (hp : t.pending = s.pending) : SameRequests s t :=
  ⟨by rw [h], by rw [h], by rw [h], hp⟩

theorem SameRequests.post (s : State) (n : Notice) : SameRequests s (s.post n) := by
  obtain ⟨-, h⟩ | ⟨-, h⟩ := s.rlc.post_cases n <;>
    refine ⟨?_, ?_, ?_, rfl⟩ <;> simp [State.post, h]

theorem StandingAct.sameRequests {s t : State} (h : StandingAct s t) : SameRequests s t := by
  cases h with
  | post n => exact .post s n
  | mark | standing => exact .of_rlc rfl rfl

theorem SameRequests.enterFinal (s : State) (tag : Tag) (st : OrderState) : SameRequests s (s.enterFinal tag st) :=
  .trans (t := s.modOrder tag fun o => { o with state := st, closing := none, finishedAt := some s.now })
    (.of_rlc rfl rfl) (.post _ _)

theorem State.endOrder_sameRequests (s : State) (tag : Tag) (reason : Reason) :
    SameRequests s (s.endOrder tag reason) := by
  unfold State.endOrder
  split
  · exact .refl s
  · split
    · dsimp only
      split
      · exact .of_rlc rfl rfl
      · refine .trans (t := (s.modOrder tag fun o => o.stopped reason).mapLines fun l => l.discardStagedOf tag) ?_
          (.enterFinal _ tag reason.final)
        exact .of_rlc rfl rfl
    · exact .refl s

theorem CheckAct.sameRequests {s t : State} (h : CheckAct s t) : SameRequests s t := by
  cases h with
  | standing h => exact h.sameRequests
  | ended tag reason => exact s.endOrder_sameRequests tag reason
  | queued | pick => exact .of_rlc rfl rfl

theorem State.supersede_sameRequests (s : State) (o : Order) : SameRequests s (s.supersede o) := by
  unfold State.supersede
  split
  · exact s.endOrder_sameRequests _ _
  · exact .refl s

theorem State.enroll_sameRequests (s : State) (o : Order) : SameRequests s (s.enroll o) :=
  .trans (t := s.enlist o) (.of_rlc rfl rfl) ((s.enlist o).supersede_sameRequests o)

theorem OwnerAct.sameRequests {k : Stretch} {s t : State} (h : OwnerAct k s t) : SameRequests s t := by
  cases h with
  | check h => exact h.sameRequests
  | enroll => exact s.enroll_sameRequests _
  | _ => exact ⟨rfl, rfl, rfl, rfl⟩

theorem OwnerActs.sameRequests {k : Stretch} {s t : State} (h : OwnerActs k s t) : SameRequests s t :=
  acts_induct SameRequests.refl SameRequests.trans OwnerAct.sameRequests h

theorem OrderAct.sameRequests {p : Phase} {tag : Tag} {s t : State} (h : OrderAct p tag s t) : SameRequests s t := by
  cases h with
  | standing h => exact h.sameRequests
  | complete => exact .enterFinal s tag _
  | _ => exact .of_rlc rfl rfl

theorem OrderActs.sameRequests {p : Phase} {tag : Tag} {s t : State} (h : OrderActs p tag s t) : SameRequests s t :=
  acts_induct SameRequests.refl SameRequests.trans OrderAct.sameRequests h

/-! ### The acts of the machine -/

/-- An act of the machine in a command other than a power-up, which may add records to the order table or else take them from it. -/
inductive Act : Stretch → State → State → Prop
  | owner {k : Stretch} {s t : State} (h : OwnerAct k s t) : Act k s t
  | line {k : Stretch} {s t : State} {p : Phase} (h : LineAct p s t) (hk : k ≠ .crossing) : Act k s t
  | closingEnd {k : Stretch} (s : State) (tag : Tag) : Act k s (s.closingEnd tag)
  | pump {k : Stretch} (s : State) : Act k s s.pump
  | receiver {k : Stretch} (s : State) (x : Receiver) : Act k s (s.setReceiver x)
  | holdRecord {k : Stretch} {s : State} (rec : Record) (h : s.rlc.processing ≠ none) : Act k s (s.holdRecord rec)
  | owe {k : Stretch} {s : State} (rec : Record) (r : Reply) (h : s.rlc.processing = none) : Act k s (s.process rec (.owed r))
  | program {k : Stretch} {s : State} (rec : Record) {code : Addr} (h : s.rlc.processing = none) (hb : s.scs.state = .blank)
      (hc : addressOk code = true) : Act k s ((s.beginProgramming code).process rec .handling)
  | written {k : Stretch} (s : State) (equal : Bool) : Act k s (s.completeWrite equal)
  | heldTaken {k : Stretch} {s : State} (h : s.rlc.processing = none) : Act k s { s with rlc := { s.rlc with holding := none } }
  | advance {k : Stretch} (s : State) (n : Nat) : Act k s (s.advanceTo n)
  | crossed {k : Stretch} {s : State} {p : Phase} (n : Nat) (h : (s.mains p).presence = .present) (hk : k = .crossing) :
      Act k s (s.setMains p ((s.mains p).count n ((s.mains p).intervalAt n)))
  | returning {k : Stretch} {s : State} {p : Phase} (n : Nat) (h : (s.mains p).presence = .lost) :
      Act k s ((s.setMains p ((s.mains p).countReturn n ((s.mains p).intervalAt n))).returnIfDue p)
  | returned {k : Stretch} (s : State) (p : Phase) : Act k s (s.returnIfDue p)
  | lost {k : Stretch} {s : State} {p : Phase} (h : (s.mains p).presence = .present) : Act k s (s.losePhase p)
  | subcount {k : Stretch} (s : State) : Act k s s.advanceSubcount
  | tick {k : Stretch} {s : State} (h : s.mtb.clock.runs = true) :
      Act k s (State.noteTimes { s.advanceTo s.mtb.clock.rollover with
        mtb := { (s.advanceTo s.mtb.clock.rollover).mtb with clock := { s.mtb.clock with
          seconds := s.mtb.clock.seconds + 1, subcount := 0, mark := s.mtb.clock.rollover } } })
  | quietOff {k : Stretch} (s : State) : Act k s s.releaseQuiet
  | quietOn {k : Stretch} {s : State} (h : s.mtb.quiet = false) :
      Act k s ({ s with mtb := { s.mtb with quietIn := true, quiet := true, releaseEnd := none } }.quietLines)
  | quietStays {k : Stretch} {s : State} (h : s.mtb.quiet = true) :
      Act k s { s with mtb := { s.mtb with quietIn := true, quiet := true, releaseEnd := none } }
  | quietInput {k : Stretch} (s : State) (n : Nat) : Act k s (s.releaseInput n)

abbrev Acts (k : Stretch) : State → State → Prop := ReflTransGen (Act k)

theorem OwnerActs.acts {k : Stretch} {s t : State} (h : OwnerActs k s t) : Acts k s t := h.lift id fun _ _ => .owner
theorem CheckActs.acts {k : Stretch} {s t : State} (h : CheckActs s t) : Acts k s t := h.ownerActs.acts
theorem LineActs.acts {k : Stretch} {p : Phase} {s t : State} (h : LineActs p s t) (hk : k ≠ .crossing) : Acts k s t :=
  h.lift id fun _ _ h => .line h hk

/-- Acts of one stretch other than that of a crossing. -/
abbrev Runs (s t : State) : Prop := ∃ k, k ≠ Stretch.crossing ∧ Acts k s t

theorem Act.post {k : Stretch} (s : State) (n : Notice) : Act k s (s.post n) := .owner (.check (.standing (.post s n)))

/-! ### The link -/

theorem Runs.before {s t u : State} (h : ∀ k, Acts k s t) (hr : Runs t u) : Runs s u :=
  hr.imp fun k hk => ⟨hk.1, (h k).trans hk.2⟩

theorem Runs.after {s t u : State} (hr : Runs s t) (h : ∀ k, Act k t u) : Runs s u :=
  hr.imp fun k hk => ⟨hk.1, hk.2.tail (h k)⟩

theorem State.handleRequest_acts {s : State} (rec : Record) (r : Request) (hp : s.rlc.processing = none) :
    Runs s (s.handleRequest rec r) := by
  unfold State.handleRequest
  split
  next t a h =>
    obtain ⟨k, hk, hacts⟩ := handle_acts h
    exact ⟨k, hk, hacts.acts.tail (.owe rec _ (hacts.sameRequests.processing.trans hp))⟩
  next t h =>
    obtain ⟨c, rfl, hc, hb, rfl⟩ := handle_unanswered h
    exact ⟨.plain, nofun, .single (.program rec hp hb hc)⟩

theorem State.takeRecord_acts {s : State} (rec : Record) (hp : s.rlc.processing = none) :
    Runs s (s.takeRecord rec) := by
  unfold State.takeRecord
  split
  · exact State.handleRequest_acts rec _ hp
  · exact ⟨.plain, nofun, .single (.owe rec _ hp)⟩

theorem State.recordArrives_acts (s : State) (rec : Record) : Runs s (s.recordArrives rec) := by
  unfold State.recordArrives
  split
  next hp => exact State.takeRecord_acts rec hp
  next hp => exact ⟨.plain, nofun, .single (.holdRecord rec (by simp [hp]))⟩

theorem State.takeRequest_acts (s : State) (r : Request) : Runs s (s.takeRequest r) := by
  have harrives : Runs s (s.requestArrives r) := by
    unfold State.requestArrives
    split
    next hp => exact State.handleRequest_acts _ r hp
    next hp => exact ⟨.plain, nofun, .single (.holdRecord _ (by simp [hp]))⟩
  exact harrives.after fun _ => .pump _

theorem State.takeHeld_acts (s : State) : Runs s s.takeHeld := by
  unfold State.takeHeld
  split
  next hp _ => exact Runs.before (fun _ => .single (.heldTaken hp)) (State.takeRecord_acts _ hp)
  · exact ⟨.plain, nofun, .refl⟩

theorem State.completeRecord_acts (s : State) (rec : Record) : Runs s (s.completeRecord rec) :=
  Runs.before (fun _ => .single (.receiver s .hunt)) (State.recordArrives_acts _ rec)

theorem State.receive_acts (s : State) (b : Byte) : Runs s (s.receive b) := by
  unfold State.receive
  split
  · split
    · exact ⟨.plain, nofun, .single (.receiver s _)⟩
    · exact ⟨.plain, nofun, .refl⟩
  · split
    · exact ⟨.plain, nofun, .single (.receiver s _)⟩
    · exact s.completeRecord_acts _
  · dsimp only
    split
    · exact s.completeRecord_acts _
    · exact ⟨.plain, nofun, .single (.receiver s _)⟩

/-! ### Mains, clock and QUIET -/

/-- An accepted crossing, with what the line controller does at it on a PRESENT phase. -/
theorem State.acceptCrossing_acts (s : State) (p : Phase) (n : Nat) :
    ∃ u, Acts .crossing s u ∧ Acts .plain u (s.acceptCrossing p n) := by
  unfold State.acceptCrossing
  dsimp only
  split
  next h => exact ⟨_, .single (.crossed n h rfl), (State.deliver_acts _ p).acts nofun⟩
  next h => exact ⟨_, .single (.returning n h), .refl⟩

theorem State.edge_acts (s : State) (p : Phase) (n : Nat) :
    ∃ u, Acts .crossing s u ∧ Acts .plain u (s.edge p n) := by
  have hbefore : Acts .crossing s (if (s.mains p).lostBefore n then (s.losePhase p).pump else s) := by
    split
    next h =>
      simp only [Mains.lostBefore, Bool.and_eq_true, decide_eq_true_eq] at h
      exact (ReflTransGen.single (.lost h.1)).tail (.pump _)
    · exact .refl
  unfold State.edge
  extract_lets s1
  have hadvance : Acts .crossing s s1 := hbefore.tail (.advance _ n)
  split
  · exact ⟨_, hadvance, .refl⟩
  · obtain ⟨u, hcross, hline⟩ := State.acceptCrossing_acts s1 p n
    exact ⟨u, hadvance.trans hcross, hline⟩

theorem State.incrementClock_acts {k : Stretch} (s : State) : Acts k s s.incrementClock := by
  unfold State.incrementClock
  dsimp only
  split
  next h => exact (ReflTransGen.single (.tick h)).trans (State.clockChecks_acts _).acts
  · exact .refl

theorem State.assertQuiet_acts {k : Stretch} (s : State) (n : Nat) : Acts k s (s.assertQuiet n) := by
  unfold State.assertQuiet
  extract_lets s1 s2 s3
  have hs1 : Acts k s s1 := by
    unfold s1
    split
    · split
      · exact (ReflTransGen.single (.quietOff s)).tail (.pump _)
      · exact .refl
    · exact .refl
  have hs2 : Acts k s s2 := hs1.tail (.advance s1 n)
  split
  next h => exact hs2.tail (.quietStays h)
  next h => exact (hs2.tail (.quietOn (by simpa [s2] using h))).tail (.post _ _)

/-! ### Every command -/

/-- The last byte of the record being sent leaves: a notice, or the reply to the request in processing, with the holding place
empty from then on (R145, R149). -/
inductive LastByte : State → State → Prop
  | notice {s : State} {n : Notice} (h : s.rlc.transmitter = .sending (.notice n)) :
      LastByte s { s with rlc := { s.rlc with transmitter := .free } }
  | reply {s : State} {x : Reply} (h : s.rlc.transmitter = .sending (.reply x)) :
      LastByte s { s with rlc := { s.rlc with transmitter := .free, processing := none, holding := none } }

theorem State.endTransmission_acts (s : State) :
    s.endTransmission = s ∨ ∃ u, LastByte s u ∧ Runs u s.endTransmission := by
  unfold State.endTransmission
  split
  · exact .inl rfl
  next h => exact .inr ⟨_, .notice h, .plain, nofun, .refl⟩
  next h =>
    refine .inr ⟨_, .reply h, ?_⟩
    unfold State.takeHeld
    split
    · exact State.takeRecord_acts _ rfl
    next hno =>
      cases hh : s.rlc.holding with
      | some rec => exact absurd hh (hno rec rfl)
      | none =>
        have hsame : ({ s.rlc with transmitter := .free, processing := none, holding := none } : Rlc)
            = { s.rlc with transmitter := .free, processing := none } := by rw [← hh]
        rw [hsame]
        exact ⟨.plain, nofun, .refl⟩

/-- Every command but a power-up and the end of a transmission is a run of acts, before which a crossing may be accepted. -/
theorem exec_acts {c : Instr} {s t : State} (h : exec c s = .next t) (hpower : ∀ quiet touched, c ≠ .powerUp quiet touched)
    (hend : c ≠ .transmitEnd) : ∃ u, Acts .crossing s u ∧ Runs u t := by
  have hpump : ∀ {u : State}, Runs s u → ∃ v, Acts .crossing s v ∧ Runs v u.pump := fun h =>
    ⟨s, .refl, h.after fun _ => .pump _⟩
  have hplain : ∀ {u : State}, Acts .plain s u → ∃ v, Acts .crossing s v ∧ Runs v u.pump := fun h =>
    hpump ⟨.plain, nofun, h⟩
  cases c with
  | powerUp quiet touched => exact absurd rfl (hpower quiet touched)
  | transmitEnd => exact absurd rfl hend
  | recordComplete r => cases h; exact hpump (s.completeRecord_acts r)
  | linkGapTimeout | byteWithoutStopBit => cases h; exact hplain (.single (.receiver s .hunt))
  | holdingPlaceTaken => cases h; exact hpump s.takeHeld_acts
  | sendReply =>
    cases h
    unfold Rlc.beginReply
    split
    · exact hplain .refl
    · exact ⟨s, .refl, .plain, nofun, .refl⟩
  | sendNotice =>
    cases h
    unfold Rlc.beginNotice
    split
    · exact ⟨s, .refl, .plain, nofun, .refl⟩
    · exact hplain .refl
  | getStatus | getIdentity | setTime | getTime | setConfig | getConfig | writeSite | housePut | houseGet | houseRemove
    | houseFind | freeze | thaw | orderSubmit | orderRead | orderCancel | orderRelease | orderList | setFloor | phaseHold
    | phaseResume | phaseStats | standingRead | reset => cases h; exact ⟨s, .refl, s.takeRequest_acts _⟩
  | writeSiteComplete equal => cases h; exact hplain (.single (.written s equal))
  | holdTakesEffect p => cases h; exact hplain ((s.holdTakesEffect_acts p).acts nofun)
  | orderClosingEnd tag => cases h; exact hplain (.single (.closingEnd s tag))
  | clockIncrement => cases h; exact hplain s.incrementClock_acts
  | orderExpiry => cases h; exact hplain s.expiryCheck_acts.acts
  | adoption tag => cases h; exact hplain (s.adoptIfDue_acts tag).checkActs.acts
  | selfRestore g => cases h; exact hplain (s.restoreIfDue_acts g).checkActs.acts
  | refreshTimerFire g => cases h; exact hplain (s.checkTimer_acts g).acts
  | zeroCrossing p n =>
    cases h
    obtain ⟨u, hcross, hline⟩ := s.edge_acts p n
    exact ⟨u, hcross, .plain, nofun, hline.tail (.pump _)⟩
  | phaseReturn p => cases h; exact hplain (.single (.returned s p))
  | phaseLost p =>
    cases h
    unfold State.loseIfPresent
    split
    next hpres => exact hplain (.single (.lost hpres))
    · exact hplain .refl
  | quietAssert n => cases h; exact hplain (s.assertQuiet_acts n)
  | quietInputRelease n => cases h; exact hplain (.single (.quietInput s n))
  | quietReleaseTimeout => cases h; exact hplain (.single (.quietOff s))
  | guardEnd p | sendComplete p | relayEnd p | slotPlannedEnd p =>
    cases h; exact hplain ((s.takeMoveIf_acts p _).acts nofun)
  | lineFrameTaken p f => cases h; exact hplain ((s.takeFrame_acts p f).acts nofun)
  | linkByteReceived b => cases h; exact hpump (s.receive_acts b)
  | frontEndFrameComplete p f => cases h; exact hplain ((s.frameCompleted_acts p f).acts nofun)
  | subcountAdvance => cases h; exact hplain (.single (.subcount s))

/-- An act of a step: of its command, the removal of the command from the queue, or the leaving of a last byte. -/
inductive StepAct (k : Stretch) : State → State → Prop
  | pending (s : State) (q : List Instr) : StepAct k s (s.withPending q)
  | act {s t : State} (h : Act k s t) : StepAct k s t
  | lastByte {s t : State} (h : LastByte s t) : StepAct k s t

abbrev StepActs (k : Stretch) : State → State → Prop := ReflTransGen (StepAct k)

theorem Acts.stepActs {k : Stretch} {s t : State} (h : Acts k s t) : StepActs k s t := h.lift id fun _ _ => .act

/-- A step is a power-up or a sequence of acts: a crossing may be accepted in it, and after that not both a record is added and
one taken away. -/
theorem step_acts {s t : State} (h : step s = .next t) :
    (∃ quiet touched rest, s.pending = .powerUp quiet touched :: rest ∧ t = (s.withPending rest).powerOn quiet touched)
      ∨ ((∀ quiet touched, s.pending.head? ≠ some (.powerUp quiet touched))
          ∧ ∃ u, StepActs .crossing s u ∧ ∃ k, k ≠ .crossing ∧ StepActs k u t) := by
  unfold step at h
  split at h
  next hp =>
    cases h
    exact .inr ⟨by simp [hp], s, .refl, .plain, nofun, .refl⟩
  next c rest hp =>
    by_cases hpower : ∃ quiet touched, c = .powerUp quiet touched
    · obtain ⟨quiet, touched, rfl⟩ := hpower
      cases h
      exact .inl ⟨quiet, touched, rest, hp, rfl⟩
    · refine .inr ⟨fun quiet touched he => hpower ⟨quiet, touched, by simpa [hp] using he⟩, ?_⟩
      have hpending : StepActs .crossing s (s.withPending rest) := .single (.pending s rest)
      by_cases hend : c = .transmitEnd
      · subst hend
        cases h
        obtain he | ⟨u, hu, k, hk, hrest⟩ := (s.withPending rest).endTransmission_acts
        · rw [he]
          exact ⟨_, hpending, .plain, nofun, .single (.act (.pump _))⟩
        · exact ⟨_, hpending.tail (.lastByte hu), k, hk, hrest.stepActs.tail (.act (.pump _))⟩
      · obtain ⟨u, hcross, k, hk, hrest⟩ := exec_acts h (fun quiet touched hc => hpower ⟨quiet, touched, hc⟩) hend
        exact ⟨u, hpending.trans hcross.stepActs, k, hk, hrest.stepActs⟩

/-- A step is a power-up, or what every act and every last byte relates, it relates. -/
theorem step_cases {R : State → State → Prop} (hrefl : ∀ s, R s s)
    (htrans : ∀ {s t u}, R s t → R t u → R s u) (hpending : ∀ s q, R s (s.withPending q))
    (hact : ∀ {k s t}, Act k s t → R s t) (hlast : ∀ {s t}, LastByte s t → R s t) {s t : State}
    (h : step s = .next t) :
    (∃ quiet touched rest, s.pending = .powerUp quiet touched :: rest ∧ t = (s.withPending rest).powerOn quiet touched)
      ∨ R s t := by
  have hstep : ∀ {k s t}, StepAct k s t → R s t := fun ha => by
    cases ha with
    | pending q => exact hpending _ q
    | act ha => exact hact ha
    | lastByte hl => exact hlast hl
  obtain hpower | ⟨-, u, hcross, k, -, hacts⟩ := step_acts h
  · exact .inl hpower
  · exact .inr (htrans (acts_induct hrefl htrans hstep hcross) (acts_induct hrefl htrans hstep hacts))

/-- What a power-up brings about, and every act and every last byte keeps, a step keeps. -/
theorem step_keeps {P : State → Prop} (hpower : ∀ s quiet touched, P (State.powerOn s quiet touched))
    (hpending : ∀ s q, P s → P (s.withPending q)) (hact : ∀ {k s t}, Act k s t → P s → P t)
    (hlast : ∀ {s t}, LastByte s t → P s → P t) {s t : State} (h : step s = .next t) (hs : P s) : P t := by
  obtain ⟨quiet, touched, rest, -, rfl⟩ | hkeep :=
    step_cases (R := fun s t => P s → P t) (fun _ h => h) (fun h k hs => k (h hs)) hpending hact hlast h
  · exact hpower _ quiet touched
  · exact hkeep hs

end Sys2Proof.Machine
end

section
/-! PROOF. What each kind of act leaves as it stands: the end of an order, the acts of a line controller, of the checks and of an
owner. -/

namespace Sys2Proof.Machine

open Relation (ReflTransGen)

/-! ### The end of an order (R15, R16) -/

/-- A line controller but for a staged frame that may have been discarded. -/
def Line.SameButStaged (l k : Line) : Prop := k = l ∨ k = { l with staged := none }

theorem Line.SameButStaged.trans {l k m : Line} (h : l.SameButStaged k) (h' : k.SameButStaged m) : l.SameButStaged m := by
  rcases h with rfl | rfl <;> rcases h' with rfl | rfl
  · exact .inl rfl
  · exact .inr rfl
  · exact .inr rfl
  · exact .inr rfl

/-- The parts that the end of an order leaves: all but its record, frames staged for it, and notices. -/
structure OutsideEnd (s t : State) : Prop where
  lines : ∀ p, (s.line p).SameButStaged (t.line p)
  dir : t.dir = s.dir
  rfs : t.rfs = s.rfs
  mtb : t.mtb = s.mtb
  scs : t.scs = s.scs
  params : t.params = s.params
  pending : t.pending = s.pending
  picks : t.picks = s.picks
  holding : t.rlc.holding = s.rlc.holding
  tagCounter : t.orm.tagCounter = s.orm.tagCounter
  seqCounter : t.orm.seqCounter = s.orm.seqCounter
  floor : t.orm.floor = s.orm.floor
  tags : t.orm.table.map (·.tag) = s.orm.table.map (·.tag)

theorem OutsideEnd.refl (s : State) : OutsideEnd s s :=
  ⟨fun _ => .inl rfl, rfl, rfl, rfl, rfl, rfl, rfl, rfl, rfl, rfl, rfl, rfl, rfl⟩

theorem OutsideEnd.trans {s t u : State} (h : OutsideEnd s t) (k : OutsideEnd t u) : OutsideEnd s u :=
  ⟨fun p => (h.lines p).trans (k.lines p), k.dir.trans h.dir, k.rfs.trans h.rfs, k.mtb.trans h.mtb, k.scs.trans h.scs,
    k.params.trans h.params, k.pending.trans h.pending, k.picks.trans h.picks, k.holding.trans h.holding,
    k.tagCounter.trans h.tagCounter, k.seqCounter.trans h.seqCounter, k.floor.trans h.floor, k.tags.trans h.tags⟩

theorem State.post_holding (s : State) (n : Notice) : (s.post n).rlc.holding = s.rlc.holding := by
  obtain ⟨-, h⟩ | ⟨-, h⟩ := s.rlc.post_cases n <;> simp [State.post, h]

theorem OutsideEnd.post (s : State) (n : Notice) : OutsideEnd s (s.post n) :=
  ⟨fun _ => .inl rfl, rfl, rfl, rfl, rfl, rfl, rfl, rfl, s.post_holding n, rfl, rfl, rfl, rfl⟩

theorem OutsideEnd.modOrder (s : State) (tag : Tag) {f : Order → Order} (hf : ∀ o, (f o).tag = o.tag) :
    OutsideEnd s (s.modOrder tag f) :=
  ⟨fun _ => .inl rfl, rfl, rfl, rfl, rfl, rfl, rfl, rfl, rfl, rfl, rfl, rfl, s.modOrder_tags tag hf⟩

theorem OutsideEnd.enterFinal (s : State) (tag : Tag) (st : OrderState) : OutsideEnd s (s.enterFinal tag st) :=
  .trans (t := s.modOrder tag fun o => { o with state := st, closing := none, finishedAt := some s.now })
    (.modOrder s tag fun _ => rfl) (.post _ _)

theorem OutsideEnd.unstage (s : State) (tag : Tag) : OutsideEnd s (s.mapLines fun l => l.discardStagedOf tag) :=
  ⟨fun p => by rw [State.line_mapLines]; exact Line.discardStagedOf_cases _ _, rfl, rfl, rfl, rfl, rfl, rfl, rfl, rfl, rfl,
    rfl, rfl, rfl⟩

theorem State.endOrder_outside (s : State) (tag : Tag) (reason : Reason) : OutsideEnd s (s.endOrder tag reason) := by
  unfold State.endOrder
  split
  · exact .refl s
  · split
    · dsimp only
      have hstop : OutsideEnd s ((s.modOrder tag fun o => o.stopped reason).mapLines fun l => l.discardStagedOf tag) :=
        .trans (t := s.modOrder tag fun o => o.stopped reason) (.modOrder s tag fun _ => rfl) (.unstage _ tag)
      split
      · exact hstop.trans (.modOrder _ tag fun _ => rfl)
      · exact hstop.trans (.enterFinal _ tag _)
    · exact .refl s

theorem State.supersede_outside (s : State) (o : Order) : OutsideEnd s (s.supersede o) := by
  unfold State.supersede
  split
  · exact s.endOrder_outside _ _
  · exact .refl s

theorem State.closingEnd_outside (s : State) (tag : Tag) : OutsideEnd s (s.closingEnd tag) := by
  obtain h | ⟨_, reason, -, -, -, -, h⟩ := s.closingEnd_cases tag <;> rw [h]
  · exact .refl s
  · exact .enterFinal s tag _

theorem State.clearInFlight_outside (s : State) (tag : Tag) (p : Phase) : OutsideEnd s (s.clearInFlight tag p) :=
  .trans (t := s.modProgress tag p fun pp => { pp with inFlight := false }) (.modOrder s tag fun _ => rfl)
    (State.closingEnd_outside _ tag)

theorem State.closingEnd_sameRequests (s : State) (tag : Tag) : SameRequests s (s.closingEnd tag) := by
  obtain h | ⟨_, reason, -, -, -, -, h⟩ := s.closingEnd_cases tag <;> rw [h]
  · exact .refl s
  · exact .enterFinal s tag _

theorem State.clearInFlight_sameRequests (s : State) (tag : Tag) (p : Phase) : SameRequests s (s.clearInFlight tag p) :=
  .trans (t := s.modProgress tag p fun pp => { pp with inFlight := false }) (.of_rlc rfl rfl)
    (State.closingEnd_sameRequests _ tag)

theorem State.modOrder_line (s : State) (tag : Tag) (f : Order → Order) (p : Phase) : (s.modOrder tag f).line p = s.line p := rfl

theorem State.closingEnd_lines (s : State) (tag : Tag) : (s.closingEnd tag).lines = s.lines := by
  obtain h | ⟨_, reason, -, -, -, -, h⟩ := s.closingEnd_cases tag <;> rw [h]
  rfl

theorem State.clearInFlight_lines (s : State) (tag : Tag) (p : Phase) : (s.clearInFlight tag p).lines = s.lines :=
  State.closingEnd_lines _ tag

/-! ### The acts of a line controller -/

theorem OrderAct.holding {p : Phase} {tag : Tag} {s t : State} (h : OrderAct p tag s t) : t.rlc.holding = s.rlc.holding := by
  cases h with
  | standing h => cases h with
    | post n => exact s.post_holding n
    | mark | standing => rfl
  | complete => exact (OutsideEnd.enterFinal s tag _).holding
  | _ => rfl

theorem OrderActs.holding {p : Phase} {tag : Tag} {s t : State} (h : OrderActs p tag s t) : t.rlc.holding = s.rlc.holding :=
  acts_induct (R := fun s t : State => t.rlc.holding = s.rlc.holding) (fun _ => rfl) (fun h k => k.trans h)
    (fun h => h.holding) h

/-- The parts that an act of phase `p`'s line controller leaves: the other phases, the mains block, the store, the parameters, and
the requests of the link. -/
structure OutsideLine (p : Phase) (s t : State) : Prop where
  line : ∀ q, q ≠ p → t.line q = s.line q
  queue : ∀ q, q ≠ p → t.queue q = s.queue q
  mtb : t.mtb = s.mtb
  scs : t.scs = s.scs
  params : t.params = s.params
  freezes : t.dir.freezes = s.dir.freezes
  requests : SameRequests s t
  holding : t.rlc.holding = s.rlc.holding
  tagCounter : t.orm.tagCounter = s.orm.tagCounter
  seqCounter : t.orm.seqCounter = s.orm.seqCounter
  floor : t.orm.floor = s.orm.floor
  tags : t.orm.table.map (·.tag) = s.orm.table.map (·.tag)

theorem OutsideLine.refl (p : Phase) (s : State) : OutsideLine p s s :=
  ⟨fun _ _ => rfl, fun _ _ => rfl, rfl, rfl, rfl, rfl, .refl s, rfl, rfl, rfl, rfl, rfl⟩

theorem OutsideLine.trans {p : Phase} {s t u : State} (h : OutsideLine p s t) (k : OutsideLine p t u) : OutsideLine p s u :=
  ⟨fun q hq => (k.line q hq).trans (h.line q hq), fun q hq => (k.queue q hq).trans (h.queue q hq), k.mtb.trans h.mtb,
    k.scs.trans h.scs, k.params.trans h.params, k.freezes.trans h.freezes, h.requests.trans k.requests,
    k.holding.trans h.holding, k.tagCounter.trans h.tagCounter, k.seqCounter.trans h.seqCounter, k.floor.trans h.floor,
    k.tags.trans h.tags⟩

theorem OutsideLine.modLine (p : Phase) (s : State) (f : Line → Line) : OutsideLine p s (s.modLine p f) :=
  ⟨fun _ hq => State.line_modLine_ne s f hq, fun _ _ => rfl, rfl, rfl, rfl, rfl, .of_rlc rfl rfl, rfl, rfl, rfl, rfl, rfl⟩

theorem OutsideLine.setQueue (p : Phase) (s : State) (q : List QueueEntry) : OutsideLine p s (s.setQueue p q) :=
  ⟨fun _ _ => rfl, fun _ hq => State.queue_setQueue_ne s q hq, rfl, rfl, rfl, rfl, .of_rlc rfl rfl, rfl, rfl, rfl, rfl, rfl⟩

theorem OutsideLine.modProgress (p : Phase) (s : State) (tag : Tag) (q : Phase) (f : Progress → Progress) :
    OutsideLine p s (s.modProgress tag q f) :=
  ⟨fun _ _ => rfl, fun _ _ => rfl, rfl, rfl, rfl, rfl, .of_rlc rfl rfl, rfl, rfl, rfl, rfl, s.modOrder_tags tag fun _ => rfl⟩

theorem OutsideOrders.queue {s t : State} (h : OutsideOrders s t) (p : Phase) : t.queue p = s.queue p := by
  rw [State.queue, h.queues]; rfl

theorem OrderActs.outsideLine {p : Phase} {tag : Tag} {s t : State} (h : OrderActs p tag s t) (q : Phase) :
    OutsideLine q s t :=
  have ho := h.outside
  ⟨fun r _ => ho.line r, fun r _ => ho.queue r, ho.mtb, ho.scs, ho.params, ho.freezes, h.sameRequests, h.holding, ho.tagCounter,
    ho.seqCounter, ho.floor, ho.tags⟩

theorem State.clearInFlight_outsideLine (s : State) (tag : Tag) (p q : Phase) : OutsideLine q s (s.clearInFlight tag p) :=
  have h := s.clearInFlight_outside tag p
  ⟨fun r _ => by rw [State.line, s.clearInFlight_lines]; rfl, fun r _ => by rw [State.queue, h.rfs]; rfl, h.mtb, h.scs, h.params,
    by rw [h.dir], s.clearInFlight_sameRequests tag p, h.holding, h.tagCounter, h.seqCounter, h.floor, h.tags⟩

/-- The state at the end of a slot before the line controller is cleared: accounted, with slot in flight cleared (R75 step 1). -/
def State.settledSlot (s : State) (p : Phase) (ol : OnLine) (reply : Option LineReply) : State :=
  match ol.frame.work with
  | .order tag => (s.account p ol reply).clearInFlight tag p
  | .refresh _ => s.account p ol reply

theorem State.endSlot_eq {s : State} {p : Phase} {ol : OnLine} (hon : (s.line p).onLine = some ol) (reply : Option LineReply) :
    s.endSlot p reply
      = (s.settledSlot p ol reply).modLine p fun l => { l with segment := .none, txEnable := false, onLine := none } := by
  unfold State.endSlot
  rw [hon]
  rfl

/-- The accounted slot of an order, and that of a refresh. -/
theorem State.settledSlot_cases (s : State) (p : Phase) (ol : OnLine) {reply : Option LineReply}
    (hm : ∀ r ∈ reply, r.margin ≤ 63) :
    (∃ tag u, ol.frame.work = .order tag ∧ OrderActs p tag s u ∧ s.settledSlot p ol reply = u.clearInFlight tag p)
      ∨ ∃ g, ol.frame.work = .refresh g ∧ s.settledSlot p ol reply = s.accountRefresh p g := by
  unfold State.settledSlot
  obtain ⟨tag, hw, h⟩ | ⟨g, hw, h⟩ := s.account_acts p ol hm
  · exact .inl ⟨tag, _, hw, h, by rw [hw]⟩
  · exact .inr ⟨g, hw, by rw [hw]; exact h⟩

theorem State.settledSlot_outsideLine (s : State) (p : Phase) (ol : OnLine) {reply : Option LineReply}
    (hm : ∀ r ∈ reply, r.margin ≤ 63) : OutsideLine p s (s.settledSlot p ol reply) := by
  obtain ⟨tag, u, -, h, he⟩ | ⟨g, -, he⟩ := s.settledSlot_cases p ol hm <;> rw [he]
  · exact (h.outsideLine p).trans (u.clearInFlight_outsideLine tag p p)
  · exact .setQueue p s _

theorem State.settledSlot_line (s : State) (p q : Phase) (ol : OnLine) {reply : Option LineReply}
    (hm : ∀ r ∈ reply, r.margin ≤ 63) : (s.settledSlot p ol reply).line q = s.line q := by
  obtain ⟨tag, u, -, h, he⟩ | ⟨g, -, he⟩ := s.settledSlot_cases p ol hm <;> rw [he]
  · rw [State.line, u.clearInFlight_lines, h.outside.lines]; rfl
  · rfl

theorem State.beginSlot_outsideLine (s : State) (p : Phase) (f : Frame) : OutsideLine p s (s.beginSlot p f) := by
  unfold State.beginSlot
  dsimp only
  split
  · exact .trans (.modLine p s _) (.modProgress p _ _ p _)
  · exact .modLine p s _

theorem State.beginSlot_line (s : State) (p : Phase) (f : Frame) :
    (s.beginSlot p f).line p = { s.line p with
      segment := .guard, onLine := some ⟨f, (s.mains p).hc, s.startAllowance f, s.placeBefore p f⟩, staged := none } := by
  unfold State.beginSlot
  dsimp only
  split
  · rw [State.modProgress, State.modOrder_line]
    exact s.line_modLine_same p _
  · exact s.line_modLine_same p _

/-- At the end of a slot, the line controller is the one before it with no slot. -/
theorem State.endSlot_line {s : State} {p : Phase} {ol : OnLine} (hon : (s.line p).onLine = some ol)
    {reply : Option LineReply} (hm : ∀ r ∈ reply, r.margin ≤ 63) :
    (s.endSlot p reply).line p = { s.line p with segment := .none, txEnable := false, onLine := none } := by
  rw [State.endSlot_eq hon, State.line_modLine_same, s.settledSlot_line p p ol hm]

theorem State.endSlot_outsideLine (s : State) (p : Phase) {reply : Option LineReply} (hm : ∀ r ∈ reply, r.margin ≤ 63) :
    OutsideLine p s (s.endSlot p reply) := by
  cases hon : (s.line p).onLine with
  | none =>
    have he : s.endSlot p reply = s := by simp only [State.endSlot, hon]
    rw [he]
    exact .refl p s
  | some ol =>
    rw [State.endSlot_eq hon]
    exact (s.settledSlot_outsideLine p ol hm).trans (.modLine p _ _)

theorem LineAct.outside {p : Phase} {s t : State} (h : LineAct p s t) : OutsideLine p s t := by
  cases h with
  | pick => exact ⟨fun _ _ => rfl, fun _ _ => rfl, rfl, rfl, rfl, rfl, .of_rlc rfl rfl, rfl, rfl, rfl, rfl, rfl⟩
  | settle _ _ h => exact h.outsideLine p
  | serve =>
    exact ⟨fun _ _ => rfl, fun _ _ => rfl, rfl, rfl, rfl, rfl, .of_rlc rfl rfl, rfl, rfl, rfl, rfl, s.takeService_tags p _⟩
  | beginSlot => exact s.beginSlot_outsideLine p _
  | endSlot _ hm => exact (OutsideLine.trans (.modLine p s _) (State.endSlot_outsideLine _ p hm)).trans (.modLine p _ _)
  | stage | discard | hold | toSend | toQuiet | stats | waiting => exact .modLine p s _

theorem LineActs.outside {p : Phase} {s t : State} (h : LineActs p s t) : OutsideLine p s t :=
  acts_induct (OutsideLine.refl p) OutsideLine.trans LineAct.outside h

/-! ### The checks and the owners -/

/-- The parts that the checks of a clock reading leave. -/
structure OutsideChecks (s t : State) : Prop where
  lines : ∀ p, (s.line p).SameButStaged (t.line p)
  dir : t.dir = s.dir
  mtb : t.mtb = s.mtb
  scs : t.scs = s.scs
  params : t.params = s.params
  pending : t.pending = s.pending
  holding : t.rlc.holding = s.rlc.holding
  tagCounter : t.orm.tagCounter = s.orm.tagCounter
  seqCounter : t.orm.seqCounter = s.orm.seqCounter
  floor : t.orm.floor = s.orm.floor
  tags : t.orm.table.map (·.tag) = s.orm.table.map (·.tag)

theorem OutsideChecks.refl (s : State) : OutsideChecks s s :=
  ⟨fun _ => .inl rfl, rfl, rfl, rfl, rfl, rfl, rfl, rfl, rfl, rfl, rfl⟩

theorem OutsideChecks.trans {s t u : State} (h : OutsideChecks s t) (k : OutsideChecks t u) : OutsideChecks s u :=
  ⟨fun p => (h.lines p).trans (k.lines p), k.dir.trans h.dir, k.mtb.trans h.mtb, k.scs.trans h.scs, k.params.trans h.params,
    k.pending.trans h.pending, k.holding.trans h.holding, k.tagCounter.trans h.tagCounter, k.seqCounter.trans h.seqCounter,
    k.floor.trans h.floor, k.tags.trans h.tags⟩

theorem OutsideEnd.checks {s t : State} (h : OutsideEnd s t) : OutsideChecks s t :=
  ⟨h.lines, h.dir, h.mtb, h.scs, h.params, h.pending, h.holding, h.tagCounter, h.seqCounter, h.floor, h.tags⟩

theorem StandingAct.dir {s t : State} (h : StandingAct s t) : t.dir = s.dir := by
  cases h <;> rfl

theorem StandingAct.checks {s t : State} (h : StandingAct s t) : OutsideChecks s t :=
  have ho := h.outside
  ⟨fun p => .inl (ho.line p), h.dir, ho.mtb, ho.scs, ho.params, ho.pending,
    OrderAct.holding (p := .a) (tag := 0) (.standing h), ho.tagCounter, ho.seqCounter, ho.floor, ho.tags⟩

theorem CheckAct.outside {s t : State} (h : CheckAct s t) : OutsideChecks s t := by
  cases h with
  | standing h => exact h.checks
  | ended tag reason => exact (s.endOrder_outside tag reason).checks
  | queued | pick => exact ⟨fun _ => .inl rfl, rfl, rfl, rfl, rfl, rfl, rfl, rfl, rfl, rfl, rfl⟩

theorem CheckActs.outside {s t : State} (h : CheckActs s t) : OutsideChecks s t :=
  acts_induct OutsideChecks.refl OutsideChecks.trans CheckAct.outside h

theorem State.enroll_mtb (s : State) (o : Order) : (s.enroll o).mtb = s.mtb := ((s.enlist o).supersede_outside o).mtb
theorem State.enroll_scs (s : State) (o : Order) : (s.enroll o).scs = s.scs := ((s.enlist o).supersede_outside o).scs
theorem State.enroll_params (s : State) (o : Order) : (s.enroll o).params = s.params := ((s.enlist o).supersede_outside o).params
theorem State.enroll_rfs (s : State) (o : Order) : (s.enroll o).rfs = s.rfs := ((s.enlist o).supersede_outside o).rfs
theorem State.enroll_dir (s : State) (o : Order) : (s.enroll o).dir = s.dir := ((s.enlist o).supersede_outside o).dir
theorem State.enroll_line (s : State) (o : Order) (p : Phase) : (s.line p).SameButStaged ((s.enroll o).line p) :=
  ((s.enlist o).supersede_outside o).lines p

theorem OwnerAct.scs {k : Stretch} {s t : State} (h : OwnerAct k s t) : t.scs = s.scs := by
  cases h with
  | check h => exact h.outside.scs
  | enroll => exact s.enroll_scs _
  | _ => rfl

/-- No owner but that of SET_TIME changes the mains block. -/
theorem OwnerAct.mtb {k : Stretch} {s t : State} (h : OwnerAct k s t) :
    t.mtb = s.mtb ∨ ∃ v : BitVec 32, t.mtb = (s.setClock v.toNat).mtb := by
  cases h with
  | check h => exact .inl h.outside.mtb
  | enroll => exact .inl (s.enroll_mtb _)
  | setClock _ v => exact .inr ⟨v, rfl⟩
  | _ => exact .inl rfl

/-! ### Aborts, and the ends of phases -/

theorem State.abortSlot_line (s : State) (p : Phase) : (s.abortSlot p).line p = (s.line p).abort := by
  obtain h | ⟨tag, -, h⟩ := s.abortSlot_cases p <;> rw [h]
  · exact s.line_modLine_same p _
  · rw [State.line, State.clearInFlight_lines]
    exact s.line_modLine_same p _

theorem State.abortSlot_outsideLine (s : State) (p : Phase) : OutsideLine p s (s.abortSlot p) := by
  obtain h | ⟨tag, -, h⟩ := s.abortSlot_cases p <;> rw [h]
  · exact .modLine p s _
  · exact ((OutsideLine.modLine p s _).trans (.modProgress p _ tag p _)).trans (State.clearInFlight_outsideLine _ tag p p)

/-- The line controller of a phase that is lost (R82). -/
def Line.lost (l : Line) : Line :=
  let k := { l.cutReception with causes := { l.causes with lost := true } }
  if l.inSlot then k.abort else k.discardStaged

theorem State.loseLine_line (s : State) (p : Phase) : (s.loseLine p).line p = (s.line p).lost := by
  unfold State.loseLine Line.lost
  dsimp only
  split
  · rw [State.abortSlot_line, State.line_modLine_same]
  · rw [State.line_modLine_same, State.line_modLine_same]

theorem State.loseLine_outsideLine (s : State) (p : Phase) : OutsideLine p s (s.loseLine p) := by
  unfold State.loseLine
  dsimp only
  split
  · exact .trans (.modLine p s _) (State.abortSlot_outsideLine _ p)
  · exact .trans (.modLine p s _) (.modLine p _ _)

/-- The moment at which a PRESENT phase is lost (R134). -/
def State.lossMoment (s : State) (p : Phase) : State :=
  match (s.mains p).lastCrossing with
  | some n => s.advanceTo (n + Config.lossLimit)
  | none => s

theorem State.losePhase_eq (s : State) (p : Phase) :
    s.losePhase p = (((s.lossMoment p).setMains p (s.mains p).lose).loseLine p).post (.phase p .lost (s.mains p).period) := by
  unfold State.losePhase State.lossMoment
  rfl

theorem State.lossMoment_eq (s : State) (p : Phase) : ∃ n, s.lossMoment p = s.advanceTo n := by
  unfold State.lossMoment
  split
  · exact ⟨_, rfl⟩
  · refine ⟨0, ?_⟩
    simp [State.advanceTo]

theorem State.losePhase_mtb (s : State) (p : Phase) :
    (s.losePhase p).mtb = ((s.lossMoment p).setMains p (s.mains p).lose).mtb := by
  rw [State.losePhase_eq, State.post_mtb, (State.loseLine_outsideLine _ p).mtb]

theorem State.returnIfDue_cases (s : State) (p : Phase) :
    (s.returnIfDue p = s ∧ (s.mains p).returnDue = false)
      ∨ ((s.mains p).returnDue = true ∧ s.returnIfDue p = s.returnPhase p) := by
  unfold State.returnIfDue
  split
  next h => exact .inr ⟨h, rfl⟩
  next h => exact .inl ⟨rfl, by simpa using h⟩

theorem State.releaseQuiet_cases (s : State) :
    (s.releaseQuiet = s ∧ s.mtb.releaseEnd = none)
      ∨ ∃ n, s.mtb.releaseEnd = some n
          ∧ s.releaseQuiet = ({ s.advanceTo n with
              mtb := { (s.advanceTo n).mtb with quiet := false, releaseEnd := none } }.mapLines fun l =>
              { l with causes := { l.causes with quiet := false } }).post (.quiet false) := by
  unfold State.releaseQuiet
  cases h : s.mtb.releaseEnd with
  | none => exact .inl ⟨rfl, rfl⟩
  | some n => exact .inr ⟨n, rfl, rfl⟩

theorem State.quietLines_induct {P : State → Prop} (s : State) (hp : ∀ s n, P s → P { s with picks := n })
    (hf : ∀ t : State, ∀ p, P t → P (t.abortSlot p))
    (h : P (s.mapLines fun l => { l with causes := { l.causes with quiet := true } })) : P s.quietLines :=
  State.forEachFree_induct _ _ _ hp (fun t p _ h => hf t p h) h

theorem State.quietLines_mtb (s : State) : s.quietLines.mtb = s.mtb :=
  State.quietLines_induct (P := fun t => t.mtb = s.mtb) s (fun _ _ h => h)
    (fun t p h => (t.abortSlot_outsideLine p).mtb.trans h) rfl

theorem State.completeWrite_cases (s : State) (equal : Bool) :
    (s.scs.programming = none ∧ s.completeWrite equal = s)
      ∨ ∃ code, s.scs.programming = some code
          ∧ ((s.rlc.processing = none ∧ s.completeWrite equal = (endProgramming code equal s).1)
            ∨ ∃ pr, s.rlc.processing = some pr ∧ s.completeWrite equal
                = (endProgramming code equal s).1.process pr.record
                    (.owed (replyTo (.writeSite code) (endProgramming code equal s).2))) := by
  unfold State.completeWrite
  split
  next h => exact .inl ⟨h, rfl⟩
  next code h =>
    refine .inr ⟨code, h, ?_⟩
    have hproc : (endProgramming code equal s).1.rlc.processing = s.rlc.processing := by
      unfold endProgramming
      split <;> rfl
    dsimp only
    split
    next pr hpr => exact .inr ⟨pr, hproc ▸ hpr, rfl⟩
    next hpr => exact .inl ⟨hproc ▸ hpr, rfl⟩

theorem State.completeWrite_mtb (s : State) (equal : Bool) : (s.completeWrite equal).mtb = s.mtb := by
  have hend : ∀ code, (endProgramming code equal s).1.mtb = s.mtb := fun code => by
    unfold endProgramming
    split <;> rfl
  obtain ⟨-, h⟩ | ⟨code, -, ⟨-, h⟩ | ⟨_, -, h⟩⟩ := s.completeWrite_cases equal <;> rw [h]
  · exact hend code
  · exact hend code

theorem State.holdRecord_blocks (s : State) (rec : Record) : ∃ r, s.holdRecord rec = { s with rlc := r } := by
  unfold State.holdRecord
  split <;> exact ⟨_, rfl⟩

end Sys2Proof.Machine
end

section
/-! PROOF. Every step keeps the Mains and Time Block sound, and the timebase runs back only at a power-up (R130 to R141). -/

namespace Sys2Proof.Machine

open Relation (ReflTransGen)

/-! ### The history and the period (R133) -/

theorem joinHistory_length (l : List Nat) (i : Nat) (h : l.length ≤ Config.historyLength) :
    (joinHistory l i).length = min (l.length + 1) Config.historyLength := by
  have hlen : Config.historyLength = 16 := rfl
  unfold joinHistory
  split <;> simp only [List.length_append, List.length_drop, List.length_singleton] <;> omega

theorem joinHistory_mem {l : List Nat} {i x : Nat} (h : x ∈ joinHistory l i) : x ∈ l ∨ x = i := by
  unfold joinHistory at h
  obtain h | h := List.mem_append.mp h
  · split at h
    · exact .inl h
    · exact .inl (List.mem_of_mem_drop h)
  · exact .inr (List.mem_singleton.mp h)

theorem inRange_iff (i : Nat) : inRange i = true ↔ Config.minInterval ≤ i ∧ i ≤ Config.maxInterval := by
  simp only [inRange, decide_eq_true_eq]

theorem joinHistory_inRange {l : List Nat} {i : Nat} (hl : ∀ x ∈ l, Config.minInterval ≤ x ∧ x ≤ Config.maxInterval)
    (hi : inRange i = true) : ∀ x ∈ joinHistory l i, Config.minInterval ≤ x ∧ x ≤ Config.maxInterval := by
  intro x hx
  obtain hx | rfl := joinHistory_mem hx
  · exact hl x hx
  · exact (inRange_iff x).mp hi

/-- The mean of a full history lies between the bounds of its intervals. -/
theorem periodOf_inRange {l : List Nat} (hlen : l.length = Config.historyLength)
    (hl : ∀ x ∈ l, Config.minInterval ≤ x ∧ x ≤ Config.maxInterval) :
    Config.minInterval ≤ periodOf l ∧ periodOf l ≤ Config.maxInterval := by
  have hlow : l.length * Config.minInterval ≤ l.sum := List.card_nsmul_le_sum l _ fun x hx => (hl x hx).1
  have hhigh : l.sum ≤ l.length * Config.maxInterval := List.sum_le_card_nsmul l _ fun x hx => (hl x hx).2
  rw [hlen] at hlow hhigh
  have hpos : 0 < Config.historyLength := by decide
  exact ⟨(Nat.le_div_iff_mul_le hpos).mpr (by rwa [Nat.mul_comm]), Nat.div_le_of_le_mul hhigh⟩

/-! ### One phase -/

theorem Mains.Sound.lose {m : Mains} (h : m.Sound) : m.lose.Sound := by
  obtain ⟨hperiod, -, -, -, -, -⟩ := h
  exact ⟨hperiod, Nat.zero_le _, by simp [Mains.lose], Nat.zero_le _, by simp [Mains.lose],
    fun _ => show 0 < Config.returnGoal by decide⟩

theorem Mains.Sound.count {m : Mains} (h : m.Sound) (hp : m.presence = .present) (n : Nat) (i : Option Nat) :
    (m.count n i).Sound := by
  obtain ⟨hperiod, hlen, hin, hcount, hpresent, -⟩ := h
  obtain ⟨hgoal, -⟩ := hpresent hp
  have hlost : m.presence ≠ .lost := by simp [hp]
  have hplain : ({ m with lastCrossing := some n, hc := m.hc + 1 } : Mains).Sound :=
    ⟨hperiod, hlen, hin, hcount, fun _ => ⟨hgoal, by simp⟩, fun h => absurd h hlost⟩
  unfold Mains.count
  dsimp only
  split
  next i =>
    split
    next hi =>
      have hfull : (joinHistory m.history i).length = Config.historyLength := by
        have : Config.historyLength = 16 ∧ Config.returnGoal = 64 := ⟨rfl, rfl⟩
        rw [joinHistory_length _ _ hlen]
        omega
      have hrange := joinHistory_inRange hin hi
      exact ⟨periodOf_inRange hfull hrange, hfull.le, hrange, hfull ▸ Nat.min_le_right _ _, fun _ => ⟨hgoal, by simp⟩,
        fun h => absurd h hlost⟩
    · exact hplain
  · exact hplain

/-- A LOST phase's return may just have become due; its completion is sound. -/
structure Mains.Returning (m : Mains) : Prop where
  period : Config.minInterval ≤ m.period ∧ m.period ≤ Config.maxInterval
  length : m.history.length ≤ Config.historyLength
  inRange : ∀ i ∈ m.history, Config.minInterval ≤ i ∧ i ≤ Config.maxInterval
  count : min m.returnCount Config.historyLength ≤ m.history.length
  lost : m.presence = .lost
  crossed : m.lastCrossing ≠ none
  goal : m.returnCount ≤ Config.returnGoal

theorem Mains.Sound.countReturn {m : Mains} (h : m.Sound) (hp : m.presence = .lost) (n : Nat) (i : Option Nat) :
    (m.countReturn n i).Returning := by
  obtain ⟨hperiod, hlen, hin, hcount, -, hlost⟩ := h
  have hgoal := hlost hp
  have hplain : ({ m with lastCrossing := some n, returnCount := 0 } : Mains).Returning :=
    ⟨hperiod, hlen, hin, Nat.zero_le _, hp, by simp, Nat.zero_le _⟩
  unfold Mains.countReturn
  dsimp only
  split
  next i =>
    split
    next hi =>
      refine ⟨hperiod, ?_, joinHistory_inRange hin hi, ?_, hp, by simp, hgoal⟩
      · exact (joinHistory_length _ i hlen).trans_le (Nat.min_le_right _ _)
      · dsimp only
        rw [joinHistory_length _ i hlen]
        omega
    · exact hplain
  · exact hplain

theorem Mains.Returning.sound {m : Mains} (h : m.Returning) (hd : m.returnDue = false) : m.Sound := by
  have hlt : m.returnCount ≠ Config.returnGoal := fun he => by simp [Mains.returnDue, h.lost, he] at hd
  exact ⟨h.period, h.length, h.inRange, h.count, by simp [h.lost], fun _ => Nat.lt_of_le_of_ne h.goal hlt⟩

theorem Mains.Returning.completed {m : Mains} (h : m.Returning) (hd : m.returnDue = true) :
    ({ m with presence := .present, period := periodOf m.history } : Mains).Sound := by
  have hgoal : m.returnCount = Config.returnGoal := by
    simp only [Mains.returnDue, decide_eq_true_eq] at hd
    exact hd.2
  have hfull : m.history.length = Config.historyLength := by
    have hc := h.count
    have hl := h.length
    have : Config.historyLength = 16 ∧ Config.returnGoal = 64 := ⟨rfl, rfl⟩
    omega
  exact ⟨periodOf_inRange hfull h.inRange, h.length, h.inRange, h.count, fun _ => ⟨hgoal, h.crossed⟩, by simp⟩

theorem Mains.Sound.not_returnDue {m : Mains} (h : m.Sound) : m.returnDue = false := by
  obtain ⟨-, -, -, -, -, hlost⟩ := h
  simp only [Mains.returnDue, decide_eq_false_iff_not, not_and]
  exact fun hp => Nat.ne_of_lt (hlost hp)

/-! ### The block -/

theorem eachPhase_iff {P : Phase → Prop} : EachPhase P ↔ ∀ p, P p :=
  ⟨fun ⟨ha, hb, hc⟩ p => by cases p <;> assumption, fun h => ⟨h _, h _, h _⟩⟩

theorem Mtb.Sound.phase {m : Mtb} (h : m.Sound) (p : Phase) : (m.phases.get p).Sound := eachPhase_iff.mp h.1 p

/-- The block stays sound when one phase gets a sound state. -/
theorem Mtb.Sound.setMains {s : State} (h : s.mtb.Sound) {p : Phase} {m : Mains} (hm : m.Sound) :
    (s.setMains p m).mtb.Sound := by
  obtain ⟨hphases, hrest⟩ := h
  refine ⟨eachPhase_iff.mpr fun q => ?_, hrest⟩
  by_cases hq : q = p
  · subst hq
    simpa [State.setMains] using hm
  · simpa [State.setMains, Tri.get_set_ne _ _ hq] using eachPhase_iff.mp hphases q

theorem Mtb.Sound.advanceTo {s : State} (h : s.mtb.Sound) (n : Nat) : (s.advanceTo n).mtb.Sound := h

theorem Mtb.Sound.setClock {m : Mtb} (h : m.Sound) {c : Clock} (hc : c.Sound) (n : Nat) :
    ({ m with timebase := n, clock := c } : Mtb).Sound :=
  ⟨h.1, hc, h.2.2⟩

theorem State.returnIfDue_mtb_sound {s : State} {p : Phase} {m : Mains} (h : s.mtb.Sound) (hm : m.Returning) :
    ((s.setMains p m).returnIfDue p).mtb.Sound := by
  have hmains : (s.setMains p m).mains p = m := by simp [State.mains, State.setMains]
  obtain ⟨he, hd⟩ | ⟨hd, he⟩ := (s.setMains p m).returnIfDue_cases p
  · rw [he]
    exact h.setMains (hm.sound (hmains ▸ hd))
  · rw [he]
    have hdone := hm.completed (hmains ▸ hd)
    obtain ⟨hphases, hrest⟩ := h
    refine ⟨eachPhase_iff.mpr fun q => ?_, hrest⟩
    by_cases hq : q = p
    · subst hq
      simpa [State.returnPhase, State.setMains, State.mains] using hdone
    · simpa [State.returnPhase, State.setMains, State.mains, Tri.get_set_ne _ _ hq] using eachPhase_iff.mp hphases q

theorem OwnerAct.mtb_sound {k : Stretch} {s t : State} (h : OwnerAct k s t) (hs : s.mtb.Sound) :
    t.mtb.Sound ∧ s.mtb.timebase ≤ t.mtb.timebase := by
  obtain he | ⟨v, he⟩ := h.mtb <;> rw [he]
  · exact ⟨hs, le_rfl⟩
  · have hv : v.toNat ≤ Config.maxSeconds := Nat.le_of_lt_succ v.isLt
    exact ⟨hs.setClock ⟨hv, by simp, by simp, by simp⟩ _, le_rfl⟩

theorem State.advanceSubcount_mtb_sound {s : State} (hs : s.mtb.Sound) :
    s.advanceSubcount.mtb.Sound ∧ s.mtb.timebase ≤ s.advanceSubcount.mtb.timebase := by
  unfold State.advanceSubcount
  dsimp only
  split
  next h =>
    simp only [Clock.runs, Bool.and_eq_true, decide_eq_true_eq] at h
    obtain ⟨⟨hset, hlt⟩, hsub⟩ := h
    obtain ⟨-, ⟨hmax, -, -, -⟩, -⟩ := id hs
    have hclock : Clock.Sound { s.mtb.clock with
        subcount := s.mtb.clock.subcount + 1, mark := s.mtb.clock.mark + 1000 } :=
      ⟨hmax, Nat.succ_le_of_lt hsub, by simp [hset], fun he => absurd he (Nat.ne_of_lt hlt)⟩
    exact ⟨hs.setClock hclock _, Nat.le_max_left _ _⟩
  · exact ⟨hs, le_rfl⟩

theorem State.tick_mtb_sound {s : State} (h : s.mtb.clock.runs = true) (hs : s.mtb.Sound) (n : Nat) :
    ({ s.mtb with timebase := n, clock := { s.mtb.clock with
        seconds := s.mtb.clock.seconds + 1, subcount := 0, mark := s.mtb.clock.rollover } } : Mtb).Sound := by
  simp only [Clock.runs, Bool.and_eq_true, decide_eq_true_eq] at h
  exact hs.setClock ⟨Nat.succ_le_of_lt h.2, Nat.zero_le _, by simp [h.1], by simp⟩ n

theorem State.releaseQuiet_mtb_sound {s : State} (hs : s.mtb.Sound) :
    s.releaseQuiet.mtb.Sound ∧ s.mtb.timebase ≤ s.releaseQuiet.mtb.timebase := by
  obtain ⟨he, -⟩ | ⟨n, hn, he⟩ := s.releaseQuiet_cases <;> rw [he]
  · exact ⟨hs, le_rfl⟩
  · obtain ⟨hphases, hclock, hrelease, -⟩ := hs
    obtain ⟨-, hin⟩ := hrelease (by simp [hn])
    exact ⟨⟨hphases, hclock, by simp, by simp [hin]⟩, Nat.le_max_left _ _⟩

theorem State.releaseInput_mtb_sound {s : State} (hs : s.mtb.Sound) (n : Nat) :
    (s.releaseInput n).mtb.Sound ∧ s.mtb.timebase ≤ (s.releaseInput n).mtb.timebase := by
  obtain ⟨hphases, hclock, -, -⟩ := hs
  refine ⟨⟨hphases, hclock, fun h => ?_, by simp [State.releaseInput]⟩, Nat.le_max_left _ _⟩
  cases hq : s.mtb.quiet with
  | false => simp [State.releaseInput, hq] at h
  | true => exact ⟨hq, rfl⟩

theorem State.losePhase_mtb_sound {s : State} {p : Phase} (hs : s.mtb.Sound) :
    (s.losePhase p).mtb.Sound ∧ s.mtb.timebase ≤ (s.losePhase p).mtb.timebase := by
  rw [State.losePhase_mtb]
  obtain ⟨n, hn⟩ := s.lossMoment_eq p
  rw [hn]
  exact ⟨(hs.advanceTo n).setMains (hs.phase p).lose, Nat.le_max_left _ _⟩

theorem State.returnIfDue_timebase (s : State) (p : Phase) : (s.returnIfDue p).mtb.timebase = s.mtb.timebase := by
  obtain ⟨he, -⟩ | ⟨-, he⟩ := s.returnIfDue_cases p <;> rw [he]
  rfl

/-- Every act keeps the block sound and its timebase running on. -/
theorem Act.mtb_sound {k : Stretch} {s t : State} (h : Act k s t) (hs : s.mtb.Sound) :
    t.mtb.Sound ∧ s.mtb.timebase ≤ t.mtb.timebase := by
  have hkept : ∀ {u : State}, u.mtb = s.mtb → u.mtb.Sound ∧ s.mtb.timebase ≤ u.mtb.timebase := fun he =>
    ⟨he.symm ▸ hs, he ▸ le_rfl⟩
  cases h with
  | owner h => exact h.mtb_sound hs
  | line h => exact hkept h.outside.mtb
  | closingEnd tag => exact hkept (s.closingEnd_outside tag).mtb
  | pump | receiver | owe | program | heldTaken => exact hkept rfl
  | holdRecord rec =>
    obtain ⟨r, he⟩ := s.holdRecord_blocks rec
    exact hkept (by rw [he])
  | written equal => exact hkept (s.completeWrite_mtb equal)
  | advance n => exact ⟨hs.advanceTo n, Nat.le_max_left _ _⟩
  | crossed n h => exact ⟨hs.setMains ((hs.phase _).count h n _), le_rfl⟩
  | returning n h =>
    exact ⟨State.returnIfDue_mtb_sound hs ((hs.phase _).countReturn h n _), by
      rw [State.returnIfDue_timebase]; exact le_rfl⟩
  | returned p =>
    obtain ⟨he, -⟩ | ⟨hd, -⟩ := s.returnIfDue_cases p
    · exact hkept (by rw [he])
    · exact absurd ((hs.phase p).not_returnDue.symm.trans hd) (by decide)
  | lost h => exact State.losePhase_mtb_sound hs
  | subcount => exact State.advanceSubcount_mtb_sound hs
  | tick h => exact ⟨State.tick_mtb_sound h hs _, Nat.le_max_left _ _⟩
  | quietOff => exact State.releaseQuiet_mtb_sound hs
  | quietOn h =>
    obtain ⟨hphases, hclock, -, -⟩ := hs
    rw [State.quietLines_mtb]
    exact ⟨⟨hphases, hclock, by simp, by simp⟩, le_rfl⟩
  | quietStays h =>
    obtain ⟨hphases, hclock, -, -⟩ := hs
    exact ⟨⟨hphases, hclock, by simp, by simp⟩, le_rfl⟩
  | quietInput n => exact State.releaseInput_mtb_sound hs n

theorem Mains.powerUp_sound : Mains.powerUp.Sound := by decide

theorem State.powerOn_mtb_sound (s : State) (quiet touched : Bool) : (s.powerOn quiet touched).mtb.Sound :=
  ⟨⟨Mains.powerUp_sound, Mains.powerUp_sound, Mains.powerUp_sound⟩,
    show Clock.Sound ⟨false, 0, 0, 0⟩ by decide, by simp [State.powerOn, State.powerUp], fun h => h⟩

/-- Settles O52, by the acts of a step: each keeps the block sound, and the timebase moves on. -/
theorem mainsAndTimeStaySound : Obligations.MainsAndTimeStaySound := by
  intro s t hs h
  have hkeep := step_cases (R := fun s t => s.mtb.Sound → t.mtb.Sound ∧ s.mtb.timebase ≤ t.mtb.timebase)
    (fun _ h => ⟨h, le_rfl⟩) (fun h k hs => ⟨(k (h hs).1).1, (h hs).2.trans (k (h hs).1).2⟩) (fun _ _ h => ⟨h, le_rfl⟩)
    Act.mtb_sound (fun hl hs => by cases hl <;> exact ⟨hs, le_rfl⟩) h
  obtain ⟨quiet, touched, rest, hp, rfl⟩ | hkeep := hkeep
  · exact ⟨State.powerOn_mtb_sound _ quiet touched, fun hno => absurd (by rw [hp]; rfl) (hno quiet touched)⟩
  · exact ⟨(hkeep hs).1, fun _ => (hkeep hs).2⟩

end Sys2Proof.Machine
end

section
/-! PROOF. What the events of the mains, of QUIET and of the store leave of the other blocks, and the standing records and refresh
queues over every step (R115, R119 to R122). -/

namespace Sys2Proof.Machine

open Relation (ReflTransGen)

/-! ### The blocks beside lines, orders and mains -/

/-- The blocks that an abort, and an event of the mains or of QUIET, leave as they stand. -/
structure OutsideMains (s t : State) : Prop where
  dir : t.dir = s.dir
  rfs : t.rfs = s.rfs
  scs : t.scs = s.scs
  params : t.params = s.params
  requests : SameRequests s t
  holding : t.rlc.holding = s.rlc.holding
  tagCounter : t.orm.tagCounter = s.orm.tagCounter
  seqCounter : t.orm.seqCounter = s.orm.seqCounter
  floor : t.orm.floor = s.orm.floor
  tags : t.orm.table.map (·.tag) = s.orm.table.map (·.tag)

theorem OutsideMains.refl (s : State) : OutsideMains s s := ⟨rfl, rfl, rfl, rfl, .refl s, rfl, rfl, rfl, rfl, rfl⟩

theorem OutsideMains.trans {s t u : State} (h : OutsideMains s t) (k : OutsideMains t u) : OutsideMains s u :=
  ⟨k.dir.trans h.dir, k.rfs.trans h.rfs, k.scs.trans h.scs, k.params.trans h.params, h.requests.trans k.requests,
    k.holding.trans h.holding, k.tagCounter.trans h.tagCounter, k.seqCounter.trans h.seqCounter, k.floor.trans h.floor,
    k.tags.trans h.tags⟩

theorem OutsideMains.post (s : State) (n : Notice) : OutsideMains s (s.post n) :=
  ⟨rfl, rfl, rfl, rfl, .post s n, s.post_holding n, rfl, rfl, rfl, rfl⟩

theorem OutsideMains.modLine (s : State) (p : Phase) (f : Line → Line) : OutsideMains s (s.modLine p f) :=
  ⟨rfl, rfl, rfl, rfl, .of_rlc rfl rfl, rfl, rfl, rfl, rfl, rfl⟩

theorem OutsideMains.mapLines (s : State) (f : Line → Line) : OutsideMains s (s.mapLines f) :=
  ⟨rfl, rfl, rfl, rfl, .of_rlc rfl rfl, rfl, rfl, rfl, rfl, rfl⟩

theorem OutsideMains.mtb (s : State) (m : Mtb) : OutsideMains s { s with mtb := m } :=
  ⟨rfl, rfl, rfl, rfl, .of_rlc rfl rfl, rfl, rfl, rfl, rfl, rfl⟩

theorem OutsideMains.modProgress (s : State) (tag : Tag) (p : Phase) (f : Progress → Progress) :
    OutsideMains s (s.modProgress tag p f) :=
  ⟨rfl, rfl, rfl, rfl, .of_rlc rfl rfl, rfl, rfl, rfl, rfl, s.modOrder_tags tag fun _ => rfl⟩

theorem OutsideEnd.mains {s t : State} (h : OutsideEnd s t) (hr : SameRequests s t) : OutsideMains s t :=
  ⟨h.dir, h.rfs, h.scs, h.params, hr, h.holding, h.tagCounter, h.seqCounter, h.floor, h.tags⟩

theorem State.closingEnd_outsideMains (s : State) (tag : Tag) : OutsideMains s (s.closingEnd tag) :=
  (s.closingEnd_outside tag).mains (s.closingEnd_sameRequests tag)

theorem State.clearInFlight_outsideMains (s : State) (tag : Tag) (p : Phase) : OutsideMains s (s.clearInFlight tag p) :=
  (s.clearInFlight_outside tag p).mains (s.clearInFlight_sameRequests tag p)

theorem State.abortSlot_outsideMains (s : State) (p : Phase) : OutsideMains s (s.abortSlot p) := by
  obtain h | ⟨tag, -, h⟩ := s.abortSlot_cases p <;> rw [h]
  · exact .modLine s p _
  · exact ((OutsideMains.modLine s p _).trans (.modProgress _ tag p _)).trans (State.clearInFlight_outsideMains _ tag p)

theorem State.loseLine_outsideMains (s : State) (p : Phase) : OutsideMains s (s.loseLine p) := by
  unfold State.loseLine
  dsimp only
  split
  · exact .trans (.modLine s p _) (State.abortSlot_outsideMains _ p)
  · exact .trans (.modLine s p _) (.modLine _ p _)

theorem State.losePhase_outsideMains (s : State) (p : Phase) : OutsideMains s (s.losePhase p) := by
  have hmoment : OutsideMains s ((s.lossMoment p).setMains p (s.mains p).lose) := by
    obtain ⟨n, hn⟩ := s.lossMoment_eq p
    rw [hn]
    exact .mtb s _
  rw [State.losePhase_eq]
  exact (hmoment.trans (State.loseLine_outsideMains _ p)).trans (.post _ _)

theorem State.returnPhase_outsideMains (s : State) (p : Phase) : OutsideMains s (s.returnPhase p) :=
  (OutsideMains.trans (t := (s.setMains p { s.mains p with presence := .present, period := periodOf (s.mains p).history }).modLine p
    fun l => { l with causes := { l.causes with lost := false } }) (.trans (.mtb s _) (.modLine _ p _)) (.post _ _))

theorem State.returnIfDue_outsideMains (s : State) (p : Phase) : OutsideMains s (s.returnIfDue p) := by
  obtain ⟨he, -⟩ | ⟨-, he⟩ := s.returnIfDue_cases p <;> rw [he]
  · exact .refl s
  · exact s.returnPhase_outsideMains p

theorem State.advanceSubcount_outsideMains (s : State) : OutsideMains s s.advanceSubcount := by
  unfold State.advanceSubcount
  dsimp only
  split
  · exact .mtb s _
  · exact .refl s

theorem State.releaseQuiet_outsideMains (s : State) : OutsideMains s s.releaseQuiet := by
  obtain ⟨he, -⟩ | ⟨n, -, he⟩ := s.releaseQuiet_cases <;> rw [he]
  · exact .refl s
  · exact ((OutsideMains.mtb s _).trans (.mapLines _ _)).trans (.post _ _)

theorem State.quietLines_outsideMains (s : State) : OutsideMains s s.quietLines :=
  State.quietLines_induct s (P := OutsideMains s)
    (fun _ _ h => h.trans ⟨rfl, rfl, rfl, rfl, .of_rlc rfl rfl, rfl, rfl, rfl, rfl, rfl⟩)
    (fun t p h => h.trans (t.abortSlot_outsideMains p)) (.mapLines s _)

/-- What the end of programming changes: the store and SITE alone. -/
theorem endProgramming_eq (code : Addr) (equal : Bool) (s : State) :
    (endProgramming code equal s).1
      = if equal then { s with scs := ⟨.written, code, .written, .holds code, none⟩ }.mapLines fun l =>
          { l with causes := { l.causes with site := false } }
        else { s with scs := ⟨.fault, 0, .fault, .partly, none⟩ } := by
  unfold endProgramming
  split <;> rfl

/-- The blocks that the end of programming leaves as they stand. -/
theorem State.completeWrite_blocks (s : State) (equal : Bool) :
    (s.completeWrite equal).dir = s.dir ∧ (s.completeWrite equal).rfs = s.rfs ∧ (s.completeWrite equal).params = s.params
      ∧ (s.completeWrite equal).orm = s.orm ∧ (s.completeWrite equal).pending = s.pending := by
  have hend : ∀ code, (endProgramming code equal s).1.dir = s.dir ∧ (endProgramming code equal s).1.rfs = s.rfs
      ∧ (endProgramming code equal s).1.params = s.params ∧ (endProgramming code equal s).1.orm = s.orm
      ∧ (endProgramming code equal s).1.pending = s.pending := fun code => by
    rw [endProgramming_eq]
    split <;> exact ⟨rfl, rfl, rfl, rfl, rfl⟩
  obtain ⟨-, h⟩ | ⟨code, -, ⟨-, h⟩ | ⟨_, -, h⟩⟩ := s.completeWrite_cases equal <;> rw [h]
  · exact ⟨rfl, rfl, rfl, rfl, rfl⟩
  · exact hend code
  · exact hend code

/-! ### Standing records and refresh queues -/

/-- The step from one state to another keeps a sound refresh scheduler sound, and every standing part. -/
def KeepsRefresh (s t : State) : Prop :=
  s.RefreshSound → t.RefreshSound ∧ ∀ g, ((s.standing g).band ≠ none → (t.standing g).band ≠ none)
    ∧ ((s.standing g).relay ≠ none → (t.standing g).relay ≠ none)

theorem KeepsRefresh.trans {s t u : State} (h : KeepsRefresh s t) (k : KeepsRefresh t u) : KeepsRefresh s u := by
  intro hs
  obtain ⟨ht, hparts⟩ := h hs
  obtain ⟨hu, hparts'⟩ := k ht
  exact ⟨hu, fun g => ⟨fun hb => (hparts' g).1 ((hparts g).1 hb), fun hr => (hparts' g).2 ((hparts g).2 hr)⟩⟩

theorem State.refreshSound_congr {s t : State} (h : t.rfs = s.rfs) : t.RefreshSound ↔ s.RefreshSound := by
  simp only [State.RefreshSound, State.QueueSound, State.standing, State.queue, h]

theorem KeepsRefresh.of_rfs {s t : State} (h : t.rfs = s.rfs) : KeepsRefresh s t := fun hs =>
  ⟨(State.refreshSound_congr h).mpr hs, fun g => by simp [State.standing, h]⟩

theorem KeepsRefresh.refl (s : State) : KeepsRefresh s s := .of_rfs rfl

theorem State.RefreshSound.standing {s : State} (h : s.RefreshSound) (g : Fin 16) : (s.standing g).Sound :=
  h.1 g (List.mem_finRange g)

/-- Changed standing records that are sound and have lost no part leave the queues sound. -/
theorem KeepsRefresh.of_standing {s t : State} (hq : t.rfs.queues = s.rfs.queues)
    (hx : ∀ g, (s.standing g).Sound → (t.standing g).Sound)
    (hparts : ∀ g, ((s.standing g).band ≠ none → (t.standing g).band ≠ none)
      ∧ ((s.standing g).relay ≠ none → (t.standing g).relay ≠ none)) : KeepsRefresh s t := by
  intro hs
  refine ⟨⟨fun g _ => hx g (hs.standing g), eachPhase_iff.mpr fun p => ?_⟩, hparts⟩
  obtain ⟨hlen, hnodup, hmem⟩ := eachPhase_iff.mp hs.2 p
  rw [State.queue, hq]
  exact ⟨hlen, hnodup, fun e he => (hmem e he).imp (hparts e.group).1 (hparts e.group).2⟩

/-- Changed queues that stay sound leave the rest. -/
theorem KeepsRefresh.of_queue {s t : State} (hx : ∀ g, t.standing g = s.standing g)
    (hq : s.RefreshSound → ∀ p, s.QueueSound (t.queue p)) : KeepsRefresh s t := by
  intro hs
  refine ⟨⟨fun g _ => hx g ▸ hs.standing g, eachPhase_iff.mpr fun p => ?_⟩, fun g => by rw [hx g]; exact ⟨id, id⟩⟩
  obtain ⟨hlen, hnodup, hmem⟩ := hq hs p
  exact ⟨hlen, hnodup, fun e he => by rw [hx]; exact hmem e he⟩

theorem State.QueueSound.sublist {s : State} {q r : List QueueEntry} (h : s.QueueSound q) (hr : r.Sublist q) :
    s.QueueSound r := by
  obtain ⟨hlen, hnodup, hmem⟩ := h
  exact ⟨hr.length_le.trans hlen, hnodup.sublist (hr.map _), fun e he => hmem e (hr.mem he)⟩

theorem inQueue_eq_false {q : List QueueEntry} {g : Fin 16} (h : inQueue q g = false) : g ∉ q.map (·.group) := by
  intro hm
  obtain ⟨e, he, rfl⟩ := List.mem_map.mp hm
  simp only [inQueue, List.any_eq_false, beq_iff_eq] at h
  exact h e he rfl

/-- A queue has room for a group that is not in it, since there are 16 groups. -/
theorem State.QueueSound.append {s : State} {q : List QueueEntry} (h : s.QueueSound q) {e : QueueEntry}
    (hq : inQueue q e.group = false) (he : (s.standing e.group).band ≠ none ∨ (s.standing e.group).relay ≠ none) :
    s.QueueSound (q ++ [e]) := by
  obtain ⟨-, hnodup, hmem⟩ := h
  have hnodup' : ((q ++ [e]).map (·.group)).Nodup := by
    rw [List.map_append, List.nodup_append]
    refine ⟨hnodup, by simp, fun a ha b hb => ?_⟩
    obtain rfl : b = e.group := by simpa using hb
    exact fun hab => inQueue_eq_false hq (hab ▸ ha)
  refine ⟨?_, hnodup', fun x hx => ?_⟩
  · have hcard := hnodup'.length_le_card
    simpa [Config.groupCount] using hcard
  · obtain hx | hx := List.mem_append.mp hx
    · exact hmem x hx
    · rw [List.mem_singleton.mp hx]
      exact he

theorem StandingAct.keepsRefresh {s t : State} (h : StandingAct s t) : KeepsRefresh s t := by
  cases h with
  | post | mark => exact .of_rfs rfl
  | @standing g x hx hband hrelay =>
    refine .of_standing rfl (fun k => ?_) fun k => ?_
    · by_cases hk : k = g
      · subst hk
        rwa [State.standing_setStanding_same]
      · rw [State.standing_setStanding_ne _ _ hk]
        exact id
    · by_cases hk : k = g
      · subst hk
        rw [State.standing_setStanding_same]
        exact ⟨hband, hrelay⟩
      · rw [State.standing_setStanding_ne _ _ hk]
        exact ⟨id, id⟩

theorem CheckAct.keepsRefresh {s t : State} (h : CheckAct s t) : KeepsRefresh s t := by
  cases h with
  | standing h => exact h.keepsRefresh
  | ended tag reason => exact .of_rfs (s.endOrder_outside tag reason).rfs
  | @queued p g hn hq =>
    refine .of_queue (fun _ => rfl) fun hs q => ?_
    by_cases hqp : q = p
    · subst hqp
      rw [State.queue_setQueue_same]
      obtain ⟨-, hnext, -, -⟩ := hs.standing g
      exact State.QueueSound.append (eachPhase_iff.mp hs.2 q) hq (hnext.mp hn)
    · rw [State.queue_setQueue_ne _ _ hqp]
      exact eachPhase_iff.mp hs.2 q
  | pick => exact .of_rfs rfl

theorem OrderAct.keepsRefresh {p : Phase} {tag : Tag} {s t : State} (h : OrderAct p tag s t) : KeepsRefresh s t := by
  cases h with
  | standing h => exact h.keepsRefresh
  | complete => exact .of_rfs (OutsideEnd.enterFinal s tag _).rfs
  | _ => exact .of_rfs rfl

theorem OrderActs.keepsRefresh {p : Phase} {tag : Tag} {s t : State} (h : OrderActs p tag s t) : KeepsRefresh s t :=
  acts_induct KeepsRefresh.refl KeepsRefresh.trans OrderAct.keepsRefresh h

/-- A served refresh leaves its queue. -/
theorem State.accountRefresh_keepsRefresh (s : State) (p : Phase) (g : Fin 16) : KeepsRefresh s (s.accountRefresh p g) := by
  refine .of_queue (fun _ => rfl) fun hs q => ?_
  by_cases hq : q = p
  · subst hq
    rw [State.accountRefresh, State.queue_setQueue_same]
    exact State.QueueSound.sublist (eachPhase_iff.mp hs.2 q) List.filter_sublist
  · rw [State.accountRefresh, State.queue_setQueue_ne _ _ hq]
    exact eachPhase_iff.mp hs.2 q

theorem State.endSlot_keepsRefresh {s : State} {p : Phase} {ol : OnLine} (hon : (s.line p).onLine = some ol)
    {reply : Option LineReply} (hm : ∀ r ∈ reply, r.margin ≤ 63) : KeepsRefresh s (s.endSlot p reply) := by
  rw [State.endSlot_eq hon]
  refine .trans (t := s.settledSlot p ol reply) ?_ (.of_rfs rfl)
  obtain ⟨tag, u, -, h, he⟩ | ⟨g, -, he⟩ := s.settledSlot_cases p ol hm <;> rw [he]
  · exact h.keepsRefresh.trans (.of_rfs (u.clearInFlight_outside tag p).rfs)
  · exact s.accountRefresh_keepsRefresh p g

theorem State.beginSlot_rfs (s : State) (p : Phase) (f : Frame) : (s.beginSlot p f).rfs = s.rfs := by
  unfold State.beginSlot
  dsimp only
  split <;> rfl

theorem LineAct.keepsRefresh {p : Phase} {s t : State} (h : LineAct p s t) : KeepsRefresh s t := by
  cases h with
  | settle _ _ h => exact h.keepsRefresh
  | beginSlot => exact .of_rfs (s.beginSlot_rfs p _)
  | @endSlot ol _ _ _ hon hm =>
    exact (KeepsRefresh.trans (.of_rfs (State.modLine_rfs s p _))
      (State.endSlot_keepsRefresh (ol := ol) (by rw [State.line_modLine_same]; exact hon) hm)).trans (.of_rfs rfl)
  | _ => exact .of_rfs rfl

theorem Standing.pullBack_sound {x : Standing} (hx : x.Sound) (now period : Nat) : (x.pullBack now period).Sound := by
  obtain ⟨hrestore, hnext, hnextLe, hrestoreLe⟩ := hx
  unfold Standing.pullBack
  split
  next t ht =>
    split
    · refine ⟨hrestore, by simpa [ht] using hnext, ?_, hrestoreLe⟩
      rintro n ⟨⟩
      exact (Nat.le_of_lt ‹_›).trans (hnextLe t ht)
    · exact ⟨hrestore, hnext, hnextLe, hrestoreLe⟩
  · exact ⟨hrestore, hnext, hnextLe, hrestoreLe⟩

theorem Standing.pullBack_parts (x : Standing) (now period : Nat) :
    (x.pullBack now period).band = x.band ∧ (x.pullBack now period).relay = x.relay := by
  unfold Standing.pullBack
  split
  · split <;> exact ⟨rfl, rfl⟩
  · exact ⟨rfl, rfl⟩

theorem State.adjustRefresh_standing (s : State) (g : Fin 16) :
    s.adjustRefresh.standing g = (s.standing g).pullBack s.now s.params.refreshPeriod := by
  simp [State.adjustRefresh, State.standing]

theorem OwnerAct.keepsRefresh {k : Stretch} {s t : State} (h : OwnerAct k s t) : KeepsRefresh s t := by
  cases h with
  | check h => exact h.keepsRefresh
  | reset =>
    refine .of_queue (fun _ => rfl) fun _ p => ?_
    have hempty : (handleReset s).1.queue p = [] := by cases p <;> rfl
    rw [hempty]
    exact ⟨Nat.zero_le _, by simp, by simp⟩
  | enroll => exact .of_rfs (s.enroll_rfs _)
  | adjust =>
    refine .of_standing rfl (fun g hx => ?_) fun g => ?_
    · rw [State.adjustRefresh_standing]
      exact Standing.pullBack_sound hx _ _
    · obtain ⟨hband, hrelay⟩ := (s.standing g).pullBack_parts s.now s.params.refreshPeriod
      rw [State.adjustRefresh_standing, hband, hrelay]
      exact ⟨id, id⟩
  | _ => exact .of_rfs rfl

theorem Act.keepsRefresh {k : Stretch} {s t : State} (h : Act k s t) : KeepsRefresh s t := by
  cases h with
  | owner h => exact h.keepsRefresh
  | line h => exact h.keepsRefresh
  | closingEnd tag => exact .of_rfs (s.closingEnd_outsideMains tag).rfs
  | holdRecord rec =>
    obtain ⟨r, he⟩ := s.holdRecord_blocks rec
    exact .of_rfs (by rw [he])
  | written equal => exact .of_rfs (s.completeWrite_blocks equal).2.1
  | returning | returned => exact .of_rfs (State.returnIfDue_outsideMains _ _).rfs
  | lost => exact .of_rfs (s.losePhase_outsideMains _).rfs
  | subcount => exact .of_rfs s.advanceSubcount_outsideMains.rfs
  | quietOff => exact .of_rfs s.releaseQuiet_outsideMains.rfs
  | quietOn => exact .of_rfs (State.quietLines_outsideMains _).rfs
  | _ => exact .of_rfs rfl

theorem State.powerOn_standing (s : State) (quiet touched : Bool) (g : Fin 16) :
    (s.powerOn quiet touched).standing g = Standing.absent := by
  simp [State.powerOn, State.powerUp, State.standing]

theorem State.powerOn_queue (s : State) (quiet touched : Bool) (p : Phase) : (s.powerOn quiet touched).queue p = [] := by
  cases p <;> rfl

theorem State.powerOn_refreshSound (s : State) (quiet touched : Bool) : (s.powerOn quiet touched).RefreshSound := by
  refine ⟨fun g _ => ?_, eachPhase_iff.mpr fun p => ?_⟩
  · rw [State.powerOn_standing]
    decide
  · rw [State.powerOn_queue]
    exact ⟨Nat.zero_le _, by simp, by simp⟩

/-- Settles O58, by the acts of a step: adoptions keep parts, a firing queues a group with a part, a queue holds no group twice. -/
theorem refreshStaysSound : Obligations.RefreshStaysSound := by
  intro s t hs h
  obtain ⟨quiet, touched, rest, hp, rfl⟩ | hkeep := step_cases (R := KeepsRefresh) .refl .trans (fun _ _ => .of_rfs rfl)
    Act.keepsRefresh (fun hl => by cases hl <;> exact .of_rfs rfl) h
  · exact ⟨State.powerOn_refreshSound _ quiet touched, fun hno => absurd (by rw [hp]; rfl) (hno quiet touched)⟩
  · obtain ⟨ht, hparts⟩ := hkeep hs
    exact ⟨ht, fun _ => hparts⟩

end Sys2Proof.Machine
end

section
/-! PROOF. Every step keeps the link controller and the parameters sound (R144 to R150, R156). -/

namespace Sys2Proof.Machine

open Relation (ReflTransGen)

/-! ### The notice queue (R150) -/

/-- The notice queue is within its capacity. -/
abbrev State.NoticesFit (s : State) : Prop := s.rlc.notices.length ≤ Config.noticeCapacity

theorem State.NoticesFit.post {s : State} (h : s.NoticesFit) (n : Notice) : (s.post n).NoticesFit :=
  s.rlc.post_notices_le n h

theorem State.NoticesFit.enterFinal {s : State} (h : s.NoticesFit) (tag : Tag) (st : OrderState) :
    (s.enterFinal tag st).NoticesFit :=
  State.NoticesFit.post (s := s.modOrder tag fun o => { o with state := st, closing := none, finishedAt := some s.now }) h _

theorem State.NoticesFit.endOrder {s : State} (h : s.NoticesFit) (tag : Tag) (reason : Reason) :
    (s.endOrder tag reason).NoticesFit := by
  unfold State.endOrder
  split
  · exact h
  · split
    · dsimp only
      split
      · exact h
      · exact State.NoticesFit.enterFinal (s := (s.modOrder tag fun o => o.stopped reason).mapLines fun l =>
          l.discardStagedOf tag) h tag _
    · exact h

theorem State.NoticesFit.closingEnd {s : State} (h : s.NoticesFit) (tag : Tag) : (s.closingEnd tag).NoticesFit := by
  obtain he | ⟨_, reason, -, -, -, -, he⟩ := s.closingEnd_cases tag <;> rw [he]
  · exact h
  · exact h.enterFinal tag _

theorem State.NoticesFit.clearInFlight {s : State} (h : s.NoticesFit) (tag : Tag) (p : Phase) :
    (s.clearInFlight tag p).NoticesFit :=
  State.NoticesFit.closingEnd (s := s.modProgress tag p fun pp => { pp with inFlight := false }) h tag

theorem State.NoticesFit.abortSlot {s : State} (h : s.NoticesFit) (p : Phase) : (s.abortSlot p).NoticesFit := by
  obtain he | ⟨tag, -, he⟩ := s.abortSlot_cases p <;> rw [he]
  · exact h
  · exact State.NoticesFit.clearInFlight (s := (s.modLine p Line.abort).modProgress tag p fun pp =>
      pp.goBack ((s.line p).onLine.bind fun ol => ol.before)) h tag p

theorem StandingAct.noticesFit {s t : State} (h : StandingAct s t) (hs : s.NoticesFit) : t.NoticesFit := by
  cases h with
  | post n => exact hs.post n
  | mark | standing => exact hs

theorem CheckAct.noticesFit {s t : State} (h : CheckAct s t) (hs : s.NoticesFit) : t.NoticesFit := by
  cases h with
  | standing h => exact h.noticesFit hs
  | ended tag reason => exact hs.endOrder tag reason
  | queued | pick => exact hs

theorem OrderAct.noticesFit {p : Phase} {tag : Tag} {s t : State} (h : OrderAct p tag s t) (hs : s.NoticesFit) :
    t.NoticesFit := by
  cases h with
  | standing h => exact h.noticesFit hs
  | complete => exact hs.enterFinal tag _
  | _ => exact hs

theorem State.NoticesFit.settledSlot {s : State} (hs : s.NoticesFit) (p : Phase) (ol : OnLine) {reply : Option LineReply}
    (hm : ∀ r ∈ reply, r.margin ≤ 63) : (s.settledSlot p ol reply).NoticesFit := by
  obtain ⟨tag, u, -, h, he⟩ | ⟨g, -, he⟩ := s.settledSlot_cases p ol hm <;> rw [he]
  · exact State.NoticesFit.clearInFlight (acts_keep (P := State.NoticesFit) OrderAct.noticesFit h hs) tag p
  · exact hs

theorem State.NoticesFit.endSlot {s : State} (hs : s.NoticesFit) (p : Phase) {reply : Option LineReply}
    (hm : ∀ r ∈ reply, r.margin ≤ 63) : (s.endSlot p reply).NoticesFit := by
  cases hon : (s.line p).onLine with
  | none =>
    have he : s.endSlot p reply = s := by simp only [State.endSlot, hon]
    rwa [he]
  | some ol =>
    rw [State.endSlot_eq hon]
    exact hs.settledSlot p ol hm

theorem State.beginSlot_rlc (s : State) (p : Phase) (f : Frame) : (s.beginSlot p f).rlc = s.rlc := by
  unfold State.beginSlot
  dsimp only
  split <;> rfl

theorem LineAct.noticesFit {p : Phase} {s t : State} (h : LineAct p s t) (hs : s.NoticesFit) : t.NoticesFit := by
  cases h with
  | settle _ _ h => exact acts_keep (P := State.NoticesFit) OrderAct.noticesFit h hs
  | beginSlot => rwa [State.NoticesFit, State.beginSlot_rlc]
  | endSlot _ hm => exact State.NoticesFit.endSlot (s := s.modLine p _) hs p hm
  | _ => exact hs

theorem OwnerAct.noticesFit {k : Stretch} {s t : State} (h : OwnerAct k s t) (hs : s.NoticesFit) : t.NoticesFit := by
  cases h with
  | check h => exact h.noticesFit hs
  | @enroll _ f q =>
    unfold State.enroll State.supersede
    split
    · exact State.NoticesFit.endOrder (s := s.enlist _) hs _ _
    · exact hs
  | reset => exact show [Notice.started .soft].length ≤ Config.noticeCapacity by decide
  | _ => exact hs

theorem Rlc.choose_notices_le (r : Rlc) : r.choose.notices.length ≤ r.notices.length := by
  obtain ⟨x, -, he⟩ | ⟨rec, reply, -, -, he⟩ | ⟨n, rest, -, -, hn, he⟩ | ⟨-, -, -, he⟩ := r.choose_cases <;> rw [he]
  simp [hn]

theorem State.NoticesFit.losePhase {s : State} (hs : s.NoticesFit) (p : Phase) : (s.losePhase p).NoticesFit := by
  have hmoment : (s.lossMoment p).NoticesFit := by
    obtain ⟨n, hn⟩ := s.lossMoment_eq p
    rw [hn]
    exact hs
  have hlose : (((s.lossMoment p).setMains p (s.mains p).lose).loseLine p).NoticesFit := by
    unfold State.loseLine
    dsimp only
    split
    · exact State.NoticesFit.abortSlot (s := ((s.lossMoment p).setMains p (s.mains p).lose).modLine p _) hmoment p
    · exact hmoment
  rw [State.losePhase_eq]
  exact hlose.post _

theorem State.NoticesFit.completeWrite {s : State} (hs : s.NoticesFit) (equal : Bool) :
    (s.completeWrite equal).NoticesFit := by
  have hend : ∀ code, (endProgramming code equal s).1.NoticesFit := fun code => by
    rw [endProgramming_eq]
    split <;> exact hs
  obtain ⟨-, h⟩ | ⟨code, -, ⟨-, h⟩ | ⟨_, -, h⟩⟩ := s.completeWrite_cases equal <;> rw [h]
  · exact hs
  · exact hend code
  · exact hend code

theorem Act.noticesFit {k : Stretch} {s t : State} (h : Act k s t) (hs : s.NoticesFit) : t.NoticesFit := by
  have hreturn : ∀ {u : State} {p : Phase}, u.NoticesFit → (u.returnIfDue p).NoticesFit := fun {u p} hu => by
    obtain ⟨he, -⟩ | ⟨-, he⟩ := u.returnIfDue_cases p <;> rw [he]
    · exact hu
    · exact State.NoticesFit.post (s := (u.setMains p _).modLine p _) hu _
  cases h with
  | owner h => exact h.noticesFit hs
  | line h => exact h.noticesFit hs
  | closingEnd tag => exact hs.closingEnd tag
  | pump => exact s.rlc.choose_notices_le.trans hs
  | holdRecord rec =>
    unfold State.holdRecord
    split <;> exact hs
  | written equal => exact hs.completeWrite equal
  | returning => exact hreturn (u := s.setMains _ _) hs
  | returned => exact hreturn hs
  | lost => exact hs.losePhase _
  | subcount =>
    unfold State.advanceSubcount
    dsimp only
    split <;> exact hs
  | quietOff =>
    obtain ⟨he, -⟩ | ⟨n, -, he⟩ := s.releaseQuiet_cases <;> rw [he]
    · exact hs
    · exact s.rlc.post_notices_le _ hs
  | quietOn =>
    exact State.quietLines_induct (P := State.NoticesFit) _ (fun _ _ h => h) (fun _ p h => h.abortSlot p) hs
  | _ => exact hs

/-! ### Records, replies and programming -/

/-- The link controller and the programming of the store. -/
def State.LinkSound (s : State) : Prop := s.rlc.Sound ∧ s.HandlingAgrees

/-- A state with the same requests, no record held that was not, and the same programming is as sound. -/
theorem State.LinkSound.of_same {s t : State} (h : s.LinkSound) (hr : SameRequests s t) (hn : t.NoticesFit)
    (hh : s.rlc.holding = none → t.rlc.holding = none) (hp : t.scs.programming = s.scs.programming) : t.LinkSound := by
  obtain ⟨⟨-, hhold, hsent⟩, hagree⟩ := h
  refine ⟨⟨hn, fun hnone => hh (hhold (hr.processing ▸ hnone)), ?_⟩, ?_⟩
  · rw [Rlc.replySent, hr.transmitter, hr.processing]
    exact hsent
  · rw [State.HandlingAgrees, hr.processing, hp]
    exact hagree

theorem OutsideMains.linkSound {s t : State} (h : OutsideMains s t) (hn : t.NoticesFit) (hs : s.LinkSound) : t.LinkSound :=
  hs.of_same h.requests hn (fun hh => h.holding.trans hh) (by rw [h.scs])

theorem State.LinkSound.not_handling {s : State} (h : s.LinkSound) (hp : s.rlc.processing = none) :
    s.scs.programming = none := by
  obtain ⟨-, hagree⟩ := h
  by_contra hne
  simpa [hp] using hagree.mpr hne

/-- With no request in processing, no reply is being sent. -/
theorem State.LinkSound.no_reply_sent {s : State} (h : s.LinkSound) (hp : s.rlc.processing = none) :
    s.rlc.replySent = none := by
  obtain ⟨⟨-, -, hsent⟩, -⟩ := h
  by_contra hne
  obtain ⟨x, hx⟩ := Option.ne_none_iff_exists'.mp hne
  simpa [hp] using hsent x hx

theorem State.LinkSound.owe {s : State} (h : s.LinkSound) (hp : s.rlc.processing = none) (rec : Record) (r : Reply) :
    (s.process rec (.owed r)).LinkSound := by
  have hsent := h.no_reply_sent hp
  have hprog := h.not_handling hp
  obtain ⟨⟨hn, hhold, -⟩, -⟩ := h
  refine ⟨⟨hn, by simp [State.process], fun x hx => ?_⟩, by simp [State.HandlingAgrees, State.process, hprog]⟩
  rw [show (s.process rec (.owed r)).rlc.replySent = s.rlc.replySent from rfl, hsent] at hx
  cases hx

theorem State.LinkSound.program {s : State} (h : s.LinkSound) (hp : s.rlc.processing = none) (rec : Record) (code : Addr) :
    ((s.beginProgramming code).process rec .handling).LinkSound := by
  have hsent := h.no_reply_sent hp
  obtain ⟨⟨hn, -, -⟩, -⟩ := h
  refine ⟨⟨hn, by simp [State.process], fun x hx => ?_⟩, by simp [State.HandlingAgrees, State.process, State.beginProgramming]⟩
  rw [show ((s.beginProgramming code).process rec .handling).rlc.replySent = s.rlc.replySent from rfl, hsent] at hx
  cases hx

theorem State.LinkSound.pump {s : State} (h : s.LinkSound) : s.pump.LinkSound := by
  obtain ⟨⟨hn, hhold, hsent⟩, hagree⟩ := h
  refine ⟨⟨s.rlc.choose_notices_le.trans hn, ?_, ?_⟩, ?_⟩
  · rw [show s.pump.rlc = s.rlc.choose from rfl, Rlc.choose_processing, Rlc.choose_holding]
    exact hhold
  · rw [show s.pump.rlc = s.rlc.choose from rfl, Rlc.choose_processing]
    obtain ⟨x, -, he⟩ | ⟨rec, reply, -, hp, he⟩ | ⟨n, rest, -, -, -, he⟩ | ⟨-, -, -, he⟩ := s.rlc.choose_cases <;> rw [he]
    · exact hsent
    · intro x hx
      simp only [Rlc.replySent, Option.mem_def, Option.some.injEq] at hx
      simp [hp, hx]
    · simp [Rlc.replySent]
    · exact hsent
  · rw [State.HandlingAgrees, show s.pump.rlc = s.rlc.choose from rfl, Rlc.choose_processing]
    exact hagree

theorem State.LinkSound.completeWrite {s : State} (h : s.LinkSound) (equal : Bool) : (s.completeWrite equal).LinkSound := by
  obtain ⟨-, he⟩ | ⟨code, hprog, ⟨hno, -⟩ | ⟨pr, hpr, he⟩⟩ := s.completeWrite_cases equal
  · rwa [he]
  · rw [h.not_handling hno] at hprog
    cases hprog
  · rw [he]
    obtain ⟨⟨hn, hhold, hsent⟩, hagree⟩ := h
    have hstage : pr.stage = .handling := by
      have := hagree.mpr (by simp [hprog])
      simpa [hpr] using this
    have hrlc : (endProgramming code equal s).1.rlc = s.rlc ∧ (endProgramming code equal s).1.scs.programming = none := by
      rw [endProgramming_eq]
      split <;> exact ⟨rfl, rfl⟩
    refine ⟨⟨by simpa [State.process, hrlc.1] using hn, by simp [State.process], fun x hx => ?_⟩, ?_⟩
    · have hx' : x ∈ s.rlc.replySent := by
        rw [Rlc.replySent, ← hrlc.1]
        exact hx
      simpa [hpr, hstage] using hsent x hx'
    · simp [State.HandlingAgrees, State.process, hrlc.2]

/-- No owner's act puts a record into the holding place. -/
theorem OwnerAct.holding_none {k : Stretch} {s t : State} (h : OwnerAct k s t) (hs : s.rlc.holding = none) :
    t.rlc.holding = none := by
  cases h with
  | check h => exact h.outside.holding.trans hs
  | reset => rfl
  | enroll => exact ((s.enlist _).supersede_outside _).holding.trans hs
  | _ => exact hs

theorem OwnerAct.linkSound {k : Stretch} {s t : State} (h : OwnerAct k s t) (hs : s.LinkSound) : t.LinkSound :=
  hs.of_same h.sameRequests (h.noticesFit hs.1.1) h.holding_none (by rw [h.scs])

theorem LineAct.linkSound {p : Phase} {s t : State} (h : LineAct p s t) (hs : s.LinkSound) : t.LinkSound :=
  hs.of_same h.outside.requests (h.noticesFit hs.1.1) (fun hh => h.outside.holding.trans hh) (by rw [h.outside.scs])

theorem State.LinkSound.holdRecord {s : State} (hs : s.LinkSound) (rec : Record) (h : s.rlc.processing ≠ none) :
    (s.holdRecord rec).LinkSound := by
  obtain ⟨⟨hn, -, hsent⟩, hagree⟩ := hs
  unfold State.holdRecord
  split <;> exact ⟨⟨hn, fun hp => absurd hp h, hsent⟩, hagree⟩

theorem Act.linkSound {k : Stretch} {s t : State} (h : Act k s t) (hs : s.LinkSound) : t.LinkSound := by
  have hfit := h.noticesFit hs.1.1
  cases h with
  | owner h => exact h.linkSound hs
  | line h => exact h.linkSound hs
  | closingEnd tag => exact (s.closingEnd_outsideMains tag).linkSound hfit hs
  | pump => exact hs.pump
  | receiver => exact hs
  | holdRecord rec h => exact hs.holdRecord rec h
  | owe rec r h => exact hs.owe h rec r
  | program rec h => exact hs.program h rec _
  | written equal => exact hs.completeWrite equal
  | heldTaken => exact ⟨⟨hfit, fun _ => rfl, hs.1.2.2⟩, hs.2⟩
  | returning => exact (State.returnIfDue_outsideMains _ _).linkSound hfit hs
  | returned => exact (State.returnIfDue_outsideMains _ _).linkSound hfit hs
  | lost => exact (s.losePhase_outsideMains _).linkSound hfit hs
  | subcount => exact s.advanceSubcount_outsideMains.linkSound hfit hs
  | quietOff => exact s.releaseQuiet_outsideMains.linkSound hfit hs
  | quietOn => exact (State.quietLines_outsideMains _).linkSound hfit hs
  | _ => exact hs

theorem LastByte.linkSound {s t : State} (h : LastByte s t) (hs : s.LinkSound) : t.LinkSound := by
  obtain ⟨⟨hn, hhold, hsent⟩, hagree⟩ := hs
  cases h with
  | notice => exact ⟨⟨hn, hhold, by simp [Rlc.replySent]⟩, hagree⟩
  | @reply x hx =>
    have howed := hsent x (by simp [Rlc.replySent, hx])
    refine ⟨⟨hn, fun _ => rfl, by simp [Rlc.replySent]⟩, ?_⟩
    simpa [State.HandlingAgrees, howed] using hagree

/-! ### Parameters (R156) -/

theorem clampTo_inRange {low high : Nat} (h : low ≤ high) (n : Nat) : low ≤ clampTo low high n ∧ clampTo low high n ≤ high := by
  unfold clampTo
  omega

theorem Params.Sound.put {c : Params} (h : c.Sound) (x : Param) (n : Nat) : (c.put x (clampTo x.low x.high n)).Sound := by
  obtain ⟨hguard, hmargin, hrefresh, hlead, htag⟩ := h
  have hx : x.low ≤ x.high := by cases x <;> decide
  have hin := clampTo_inRange hx n
  cases x with
  | guard => exact ⟨hin, hmargin, hrefresh, hlead, htag⟩
  | margin => exact ⟨hguard, hin.2, hrefresh, hlead, htag⟩
  | refreshPeriod => exact ⟨hguard, hmargin, hin, hlead, htag⟩
  | lead => exact ⟨hguard, hmargin, hrefresh, hin, htag⟩
  | tagBase => exact ⟨hguard, hmargin, hrefresh, hlead, hin⟩

theorem OwnerAct.params_sound {k : Stretch} {s t : State} (h : OwnerAct k s t) (hs : s.params.Sound) : t.params.Sound := by
  cases h with
  | check h => rw [h.outside.params]; exact hs
  | enroll => rw [State.enroll_params]; exact hs
  | @config _ _ x n => exact hs.put x n
  | _ => exact hs

theorem Act.params_sound {k : Stretch} {s t : State} (h : Act k s t) (hs : s.params.Sound) : t.params.Sound := by
  have hkept : ∀ {u : State}, u.params = s.params → u.params.Sound := fun he => he ▸ hs
  cases h with
  | owner h => exact h.params_sound hs
  | line h => exact hkept h.outside.params
  | closingEnd tag => exact hkept (s.closingEnd_outside tag).params
  | holdRecord rec =>
    obtain ⟨r, he⟩ := s.holdRecord_blocks rec
    exact hkept (by rw [he])
  | written equal => exact hkept (s.completeWrite_blocks equal).2.2.1
  | returning | returned => exact hkept (State.returnIfDue_outsideMains _ _).params
  | lost => exact hkept (s.losePhase_outsideMains _).params
  | subcount => exact hkept s.advanceSubcount_outsideMains.params
  | quietOff => exact hkept s.releaseQuiet_outsideMains.params
  | quietOn => exact hkept (State.quietLines_outsideMains _).params
  | _ => exact hkept rfl

/-- Settles O59, by the acts of a step: the queue takes no seventeenth notice, records and replies go through processing, and
programming and HANDLING begin and end together. -/
theorem linkAndParametersStaySound : Obligations.LinkAndParametersStaySound := by
  intro s t hr hh hp h
  obtain ⟨hlink, hparams⟩ := step_keeps (P := fun s => s.LinkSound ∧ s.params.Sound)
    (fun s quiet touched => by
      refine ⟨⟨?_, ?_⟩, ?_⟩
      · exact show Rlc.Sound ⟨.hunt, none, none, .free, [.started .power], false, false, .power⟩ by decide
      · have hprog : (s.scs.powerUp touched).programming = none := by
          unfold Scs.powerUp
          split <;> rfl
        simp [State.HandlingAgrees, State.powerOn, State.powerUp, hprog]
      · exact show Params.default.Sound by decide)
    (fun _ _ h => h) (fun ha hs => ⟨ha.linkSound hs.1, ha.params_sound hs.2⟩)
    (fun hl hs => ⟨hl.linkSound hs.1, by cases hl <;> exact hs.2⟩) h ⟨⟨hr, hh⟩, hp⟩
  exact ⟨hlink.1, hlink.2, hparams⟩

end Sys2Proof.Machine
end

section
/-! PROOF. Every step keeps the line controllers and the store sound (R69 to R71, R81 to R87, R160 to R163). -/

namespace Sys2Proof.Machine

open Relation (ReflTransGen)

/-! ### One line controller -/

/-- The causes but for HELD. -/
structure SameCauses (l k : Line) : Prop where
  site : k.causes.site = l.causes.site
  lost : k.causes.lost = l.causes.lost
  quiet : k.causes.quiet = l.causes.quiet

theorem SameCauses.refl (l : Line) : SameCauses l l := ⟨rfl, rfl, rfl⟩

theorem SameCauses.trans {l k m : Line} (h : SameCauses l k) (h' : SameCauses k m) : SameCauses l m :=
  ⟨h'.site.trans h.site, h'.lost.trans h.lost, h'.quiet.trans h.quiet⟩

/-- A line controller with no slot and no pending hold is sound. -/
theorem Line.Sound.of_idle {l : Line} (hseg : l.segment = .none) (htx : l.txEnable = false) (hon : l.onLine = none)
    (hhold : l.holdPending = false) : l.Sound :=
  ⟨by simp [hseg, hon], by simp [hseg, htx], by simp [Line.inCarrier, hseg], by simp [hhold]⟩

theorem Line.takeHold_fields (l : Line) : l.takeHold.segment = l.segment ∧ l.takeHold.txEnable = l.txEnable
    ∧ l.takeHold.onLine = l.onLine ∧ l.takeHold.staged = l.staged ∧ l.takeHold.holdPending = false := by
  unfold Line.takeHold
  split
  · exact ⟨rfl, rfl, rfl, rfl, rfl⟩
  next h => exact ⟨rfl, rfl, rfl, rfl, by simpa using h⟩

theorem Line.takeHold_causes (l : Line) : SameCauses l l.takeHold := by
  unfold Line.takeHold
  split <;> exact ⟨rfl, rfl, rfl⟩

/-- The end of a slot, with a pending hold taking effect, leaves a sound line controller. -/
theorem Line.ended_sound (l : Line) :
    ({ l with segment := .none, txEnable := false, onLine := none } : Line).takeHold.Sound := by
  obtain ⟨hseg, htx, hon, -, hhold⟩ := Line.takeHold_fields { l with segment := .none, txEnable := false, onLine := none }
  exact .of_idle hseg htx hon hhold

theorem Line.abort_sound (l : Line) : l.abort.Sound := by
  obtain ⟨-, -, -, -, hhold⟩ := (l.countStats fun st => { st with slotsAborted := bump st.slotsAborted }).takeHold_fields
  exact .of_idle rfl rfl rfl hhold

theorem Line.abort_causes (l : Line) : SameCauses l l.abort := by
  obtain ⟨hs, hl, hq⟩ := (l.countStats fun st => { st with slotsAborted := bump st.slotsAborted }).takeHold_causes
  exact ⟨hs, hl, hq⟩

theorem Line.Sound.idle {l : Line} (h : l.Sound) (hi : l.Idle) : l.segment = .none ∧ l.onLine = none ∧ l.txEnable = false := by
  obtain ⟨hslot, htx, -, -⟩ := h
  have hseg : l.segment = .none := hi.elim hslot.mpr id
  refine ⟨hseg, hslot.mp hseg, ?_⟩
  by_contra ht
  have := htx.mp (by simpa using ht)
  rw [hseg] at this
  cases this

/-- Soundness is about the slot, the transmit enable, the causes and the pending hold alone. -/
theorem Line.Sound.congr {l k : Line} (h : l.Sound) (hseg : k.segment = l.segment) (htx : k.txEnable = l.txEnable)
    (hon : k.onLine = l.onLine) (hhold : k.holdPending = l.holdPending) (hcauses : k.causes = l.causes) : k.Sound := by
  unfold Line.Sound Line.inCarrier at h ⊢
  rwa [hseg, htx, hon, hhold, hcauses]

theorem Line.Sound.sameButStaged {l k : Line} (h : l.Sound) (hk : l.SameButStaged k) : k.Sound ∧ k.causes = l.causes := by
  obtain rfl | rfl := hk
  · exact ⟨h, rfl⟩
  · exact ⟨h.congr rfl rfl rfl rfl rfl, rfl⟩

theorem Causes.isEmpty_iff (c : Causes) :
    c.isEmpty = true ↔ c.site = false ∧ c.lost = false ∧ c.quiet = false ∧ c.held = false := by
  cases c
  simp [Causes.isEmpty, and_assoc]

/-- A slot begins on a sound line controller without causes and without a pending hold. -/
theorem Line.Sound.begun {l : Line} (h : l.Sound) (hi : l.Idle) (hc : l.causes.isEmpty = true) (hh : l.holdPending = false)
    (ol : OnLine) : ({ l with segment := .guard, onLine := some ol, staged := none } : Line).Sound := by
  obtain ⟨-, -, htx⟩ := h.idle hi
  obtain ⟨hsite, hlost, hquiet, -⟩ := (Causes.isEmpty_iff _).mp hc
  exact ⟨by simp, by simp [htx], fun _ => ⟨hsite, hlost, hquiet⟩, by simp [hh]⟩

/-- An act of a line controller leaves its line controller sound, with the causes that others set. -/
theorem LineAct.line_sound {p : Phase} {s t : State} (h : LineAct p s t) (hs : (s.line p).Sound) :
    (t.line p).Sound ∧ SameCauses (s.line p) (t.line p) := by
  cases h with
  | pick => exact ⟨hs, .refl _⟩
  | settle _ _ h =>
    rw [h.outside.line]
    exact ⟨hs, .refl _⟩
  | serve => exact ⟨hs, .refl _⟩
  | stage | discard | stats | waiting =>
    rw [State.line_modLine_same]
    exact ⟨hs.congr rfl rfl rfl rfl rfl, ⟨rfl, rfl, rfl⟩⟩
  | beginSlot hc hi hh =>
    rw [State.beginSlot_line]
    exact ⟨hs.begun hi hc hh _, ⟨rfl, rfl, rfl⟩⟩
  | @endSlot ol st tx reply hon hm =>
    have hon' : ((s.modLine p fun l => { l with stats := st l.stats, txEnable := tx && l.txEnable }).line p).onLine
        = some ol := by
      rw [State.line_modLine_same]
      exact hon
    rw [State.line_modLine_same, State.endSlot_line hon' hm, State.line_modLine_same]
    obtain ⟨hsite, hlost, hquiet⟩ := Line.takeHold_causes
      { s.line p with stats := st (s.line p).stats, segment := .none, txEnable := false, onLine := none }
    exact ⟨Line.ended_sound _, ⟨hsite, hlost, hquiet⟩⟩
  | hold hi =>
    rw [State.line_modLine_same]
    obtain ⟨hseg, hon, htx⟩ := hs.idle hi
    obtain ⟨hseg', htx', hon', -, hhold'⟩ := (s.line p).takeHold_fields
    exact ⟨.of_idle (hseg'.trans hseg) (htx'.trans htx) (hon'.trans hon) hhold', Line.takeHold_causes _⟩
  | toSend hseg hon =>
    rw [State.line_modLine_same]
    obtain ⟨-, -, hcarrier, hhold⟩ := hs
    exact ⟨⟨by simp [hon], by simp, fun _ => hcarrier (by simp [Line.inCarrier, hseg]), fun hp => ⟨by simp, (hhold hp).2⟩⟩,
      ⟨rfl, rfl, rfl⟩⟩
  | @toQuiet ol seg f st tx hon hseg htx hf =>
    rw [State.line_modLine_same, hf]
    obtain ⟨-, htxSend, -, hhold⟩ := hs
    have htxOff : tx = false := by
      obtain h | ⟨h, hrelay⟩ := htx
      · exact h
      · by_contra hne
        have := htxSend.mp (by simpa [h] using hne)
        rw [hrelay] at this
        cases this
    have hne : seg ≠ .none ∧ seg ≠ .send ∧ seg ≠ .guard := by
      obtain rfl | rfl := hseg <;> simp
    obtain ⟨hnone, hsend, hguard⟩ := hne
    exact ⟨⟨by simp [hnone, hon], by simp [htxOff, hsend], by simp [Line.inCarrier, hsend, hguard],
      fun hp => ⟨hnone, (hhold hp).2⟩⟩, ⟨rfl, rfl, rfl⟩⟩

/-! ### The lines with the blocks that give them their causes -/

theorem State.LinesSound.line {s : State} (h : s.LinesSound) (p : Phase) : (s.line p).Sound ∧ s.CausesAgree p :=
  eachPhase_iff.mp h.2 p

/-- What an act leaves of the lines' soundness: the store keeps its content while it is not BLANK. -/
def KeepsLines (s t : State) : Prop := s.LinesSound → t.LinesSound ∧ (s.scs.state ≠ .blank → t.scs = s.scs)

theorem KeepsLines.trans {s t u : State} (h : KeepsLines s t) (k : KeepsLines t u) : KeepsLines s u := by
  intro hs
  obtain ⟨ht, hst⟩ := h hs
  obtain ⟨hu, htu⟩ := k ht
  refine ⟨hu, fun hb => ?_⟩
  have hsame := hst hb
  rw [← hsame]
  exact htu (by rwa [hsame])

/-- The store, presences and QUIET are as before, and each line is sound with its causes but HELD. -/
theorem KeepsLines.of_lines {s t : State} (hscs : t.scs = s.scs) (hm : ∀ p, (t.mains p).presence = (s.mains p).presence)
    (hq : t.mtb.quiet = s.mtb.quiet)
    (hl : ∀ p, (s.line p).Sound → (t.line p).Sound ∧ SameCauses (s.line p) (t.line p)) : KeepsLines s t := by
  rintro ⟨hstore, hlines⟩
  refine ⟨⟨hscs ▸ hstore, eachPhase_iff.mpr fun p => ?_⟩, fun _ => hscs⟩
  obtain ⟨hsound, hsite, hlost, hquiet⟩ := eachPhase_iff.mp hlines p
  obtain ⟨hsound', hcauses⟩ := hl p hsound
  refine ⟨hsound', ?_⟩
  rw [State.CausesAgree, hcauses.site, hcauses.lost, hcauses.quiet, hscs, hm, hq]
  exact ⟨hsite, hlost, hquiet⟩

theorem KeepsLines.of_same {s t : State} (hscs : t.scs = s.scs) (hm : t.mtb = s.mtb) (hl : t.lines = s.lines) :
    KeepsLines s t :=
  .of_lines hscs (fun p => by rw [State.mains, hm]; rfl) (by rw [hm]) fun p h => by
    rw [show t.line p = s.line p by rw [State.line, hl]; rfl]
    exact ⟨h, .refl _⟩

theorem KeepsLines.refl (s : State) : KeepsLines s s := .of_same rfl rfl rfl

theorem KeepsLines.sameButStaged {s t : State} (hscs : t.scs = s.scs) (hm : t.mtb = s.mtb)
    (hl : ∀ p, (s.line p).SameButStaged (t.line p)) : KeepsLines s t :=
  .of_lines hscs (fun p => by rw [State.mains, hm]; rfl) (by rw [hm]) fun p h => by
    obtain ⟨hsound, hcauses⟩ := h.sameButStaged (hl p)
    exact ⟨hsound, by rw [hcauses], by rw [hcauses], by rw [hcauses]⟩

theorem LineAct.keepsLines {p : Phase} {s t : State} (h : LineAct p s t) : KeepsLines s t :=
  have ho := h.outside
  .of_lines ho.scs (fun q => by rw [State.mains, ho.mtb]; rfl) (by rw [ho.mtb]) fun q hq => by
    by_cases hqp : q = p
    · subst hqp
      exact h.line_sound hq
    · rw [ho.line q hqp]
      exact ⟨hq, .refl _⟩

/-- One line controller changes, to a sound one with the same causes but HELD. -/
theorem KeepsLines.modLine (s : State) {p : Phase} {f : Line → Line}
    (hf : (s.line p).Sound → (f (s.line p)).Sound ∧ SameCauses (s.line p) (f (s.line p))) : KeepsLines s (s.modLine p f) :=
  .of_lines rfl (fun _ => rfl) rfl fun q hq => by
    by_cases hqp : q = p
    · subst hqp
      rw [State.line_modLine_same]
      exact hf hq
    · rw [State.line_modLine_ne _ _ hqp]
      exact ⟨hq, .refl _⟩

theorem Line.reset_sound (l : Line) : l.reset.Sound := .of_idle rfl rfl rfl rfl

theorem OwnerAct.keepsLines {k : Stretch} {s t : State} (h : OwnerAct k s t) : KeepsLines s t := by
  cases h with
  | check h => exact .sameButStaged h.outside.scs h.outside.mtb h.outside.lines
  | reset =>
    refine .of_lines rfl (fun _ => rfl) rfl fun p _ => ?_
    have hline : (handleReset s).1.line p = (s.line p).reset := by simp [handleReset, State.line]
    rw [hline]
    exact ⟨Line.reset_sound _, ⟨rfl, rfl, rfl⟩⟩
  | enroll => exact .sameButStaged (s.enroll_scs _) (s.enroll_mtb _) (s.enroll_line _)
  | pendHold hs hh =>
    refine .modLine s fun h => ?_
    obtain ⟨hslot, htx, hcarrier, -⟩ := h
    exact ⟨⟨hslot, htx, hcarrier, fun _ => ⟨hs, hh⟩⟩, ⟨rfl, rfl, rfl⟩⟩
  | holdNow hs hh =>
    refine .modLine s fun h => ?_
    obtain ⟨hslot, htx, hcarrier, -⟩ := h
    exact ⟨⟨hslot, htx, hcarrier, fun hp => absurd (hp.symm.trans hh) (by decide)⟩, ⟨rfl, rfl, rfl⟩⟩
  | resume =>
    refine .modLine s fun h => ?_
    obtain ⟨hslot, htx, hcarrier, -⟩ := h
    exact ⟨⟨hslot, htx, hcarrier, by simp⟩, ⟨rfl, rfl, rfl⟩⟩
  | zeroStats => exact .modLine s fun h => ⟨h.congr rfl rfl rfl rfl rfl, ⟨rfl, rfl, rfl⟩⟩
  | unstage =>
    refine .of_lines rfl (fun _ => rfl) rfl fun p h => ?_
    rw [State.line_mapLines]
    exact ⟨h.congr rfl rfl rfl rfl rfl, ⟨rfl, rfl, rfl⟩⟩
  | setClock => exact .of_lines rfl (fun _ => rfl) rfl fun p h => ⟨h, .refl _⟩
  | _ => exact .of_same rfl rfl rfl

/-! ### Losses, returns and QUIET -/

theorem Line.lost_sound {l : Line} (h : l.Sound) : l.lost.Sound := by
  unfold Line.lost
  dsimp only
  split
  · exact Line.abort_sound _
  next hslot =>
    have hseg : l.segment = .none := by simpa [Line.inSlot] using hslot
    obtain ⟨hslot, htx, -, hhold⟩ := h
    exact ⟨hslot, htx, by simp [Line.inCarrier, Line.discardStaged, Line.cutReception, hseg], hhold⟩

theorem Line.lost_causes (l : Line) :
    l.lost.causes.site = l.causes.site ∧ l.lost.causes.lost = true ∧ l.lost.causes.quiet = l.causes.quiet := by
  unfold Line.lost
  dsimp only
  split
  · obtain ⟨hs, hl, hq⟩ := Line.abort_causes { l.cutReception with causes := { l.causes with lost := true } }
    exact ⟨hs, hl, hq⟩
  · exact ⟨rfl, rfl, rfl⟩

theorem State.losePhase_line (s : State) (p q : Phase) :
    (s.losePhase p).line q = if q = p then (s.line p).lost else s.line q := by
  have hmoment : ∀ r, ((s.lossMoment p).setMains p (s.mains p).lose).line r = s.line r := fun r => by
    obtain ⟨n, hn⟩ := s.lossMoment_eq p
    rw [hn]
    rfl
  rw [State.losePhase_eq, State.line_post]
  split
  next h => rw [h, State.loseLine_line, hmoment]
  next h => rw [(State.loseLine_outsideLine _ p).line q h, hmoment]

theorem State.losePhase_mains (s : State) (p q : Phase) :
    (s.losePhase p).mains q = if q = p then (s.mains p).lose else s.mains q := by
  rw [State.mains, State.losePhase_mtb]
  obtain ⟨n, hn⟩ := s.lossMoment_eq p
  rw [hn]
  split
  next h =>
    subst h
    exact State.mains_setMains_same _ q _
  next h => exact State.mains_setMains_ne _ _ h

theorem State.losePhase_quiet (s : State) (p : Phase) : (s.losePhase p).mtb.quiet = s.mtb.quiet := by
  rw [State.losePhase_mtb]
  obtain ⟨n, hn⟩ := s.lossMoment_eq p
  rw [hn]
  rfl

theorem State.losePhase_keepsLines (s : State) (p : Phase) : KeepsLines s (s.losePhase p) := by
  rintro ⟨hstore, hlines⟩
  have hscs := (s.losePhase_outsideMains p).scs
  refine ⟨⟨hscs ▸ hstore, eachPhase_iff.mpr fun q => ?_⟩, fun _ => hscs⟩
  obtain ⟨hsound, hsite, hlost, hquiet⟩ := eachPhase_iff.mp hlines q
  rw [State.CausesAgree, State.losePhase_line, State.losePhase_mains, State.losePhase_quiet, hscs]
  by_cases hq : q = p
  · subst hq
    obtain ⟨hsite', hlost', hquiet'⟩ := Line.lost_causes (s.line q)
    rw [if_pos rfl, if_pos rfl]
    exact ⟨Line.lost_sound hsound, hsite'.trans hsite, by rw [hlost']; simp [Mains.lose], hquiet'.trans hquiet⟩
  · rw [if_neg hq, if_neg hq]
    exact ⟨hsound, hsite, hlost, hquiet⟩

/-- The return of a phase takes LOST from its line controller. -/
theorem State.returnPhase_line (s : State) (p q : Phase) :
    (s.returnPhase p).line q
      = if q = p then { s.line p with causes := { (s.line p).causes with lost := false } } else s.line q := by
  unfold State.returnPhase
  rw [State.line_post]
  split
  next h =>
    subst h
    rw [State.line_modLine_same]
    rfl
  next h =>
    rw [State.line_modLine_ne _ _ h]
    rfl

theorem Line.Sound.withoutCause {l : Line} (h : l.Sound) {site lost quiet : Bool} (hs : site = true → l.causes.site = true)
    (hl : lost = true → l.causes.lost = true) (hq : quiet = true → l.causes.quiet = true) :
    ({ l with causes := { l.causes with site := site, lost := lost, quiet := quiet } } : Line).Sound := by
  obtain ⟨hslot, htx, hcarrier, hhold⟩ := h
  refine ⟨hslot, htx, fun hc => ?_, hhold⟩
  obtain ⟨h1, h2, h3⟩ := hcarrier hc
  refine ⟨?_, ?_, ?_⟩ <;> dsimp only
  · by_contra hn
    exact absurd (h1.symm.trans (hs (by simpa using hn))) (by decide)
  · by_contra hn
    exact absurd (h2.symm.trans (hl (by simpa using hn))) (by decide)
  · by_contra hn
    exact absurd (h3.symm.trans (hq (by simpa using hn))) (by decide)

theorem State.returnPhase_keepsLines (s : State) (p : Phase) : KeepsLines s (s.returnPhase p) := by
  rintro ⟨hstore, hlines⟩
  refine ⟨⟨hstore, eachPhase_iff.mpr fun q => ?_⟩, fun _ => rfl⟩
  obtain ⟨hsound, hsite, hlost, hquiet⟩ := eachPhase_iff.mp hlines q
  rw [State.CausesAgree, State.returnPhase_line]
  by_cases hq : q = p
  · subst hq
    rw [if_pos rfl]
    refine ⟨hsound.withoutCause id (by simp) id, hsite, ?_, hquiet⟩
    have : (s.returnPhase q).mains q = { s.mains q with presence := .present, period := periodOf (s.mains q).history } :=
      State.mains_setMains_same s q _
    rw [this]
    rfl
  · rw [if_neg hq]
    refine ⟨hsound, hsite, ?_, hquiet⟩
    have : (s.returnPhase p).mains q = s.mains q := State.mains_setMains_ne s _ hq
    rw [this]
    exact hlost

theorem State.returnIfDue_keepsLines (s : State) (p : Phase) : KeepsLines s (s.returnIfDue p) := by
  obtain ⟨he, -⟩ | ⟨-, he⟩ := s.returnIfDue_cases p <;> rw [he]
  · exact .refl s
  · exact s.returnPhase_keepsLines p

theorem KeepsLines.setMains {s : State} {p : Phase} {m : Mains} (h : m.presence = (s.mains p).presence) :
    KeepsLines s (s.setMains p m) :=
  .of_lines rfl (fun q => by
    by_cases hq : q = p
    · subst hq
      rw [State.mains_setMains_same, h]
    · rw [State.mains_setMains_ne _ _ hq]) rfl fun _ h => ⟨h, .refl _⟩

theorem State.releaseQuiet_keepsLines (s : State) : KeepsLines s s.releaseQuiet := by
  obtain ⟨he, -⟩ | ⟨n, -, he⟩ := s.releaseQuiet_cases
  · rw [he]
    exact .refl s
  · rintro ⟨hstore, hlines⟩
    have hscs := s.releaseQuiet_outsideMains.scs
    refine ⟨⟨hscs ▸ hstore, eachPhase_iff.mpr fun q => ?_⟩, fun _ => hscs⟩
    obtain ⟨hsound, hsite, hlost, -⟩ := eachPhase_iff.mp hlines q
    have hline : s.releaseQuiet.line q = { s.line q with causes := { (s.line q).causes with quiet := false } } := by
      rw [he, State.line_post, State.line_mapLines]
      rfl
    have hmains : s.releaseQuiet.mains q = s.mains q := by rw [he]; rfl
    have hquiet : s.releaseQuiet.mtb.quiet = false := by rw [he]; rfl
    rw [State.CausesAgree, hline, hmains, hquiet, hscs]
    exact ⟨hsound.withoutCause id id (by simp), hsite, hlost, rfl⟩

/-! ### The assertion of QUIET (R81) -/

/-- What is done to the line controller of each phase of a list in a free order is done to theirs once and to no other. -/
theorem State.forEachFree_line {f : State → Phase → State} {g : Line → Line} (hf : ∀ s p, (f s p).line p = g (s.line p))
    (hne : ∀ s p q, q ≠ p → (f s p).line q = s.line q) (s : State) {ps : List Phase} (hnodup : ps.Nodup) (q : Phase) :
    (s.forEachFree ps f).line q = if q ∈ ps then g (s.line q) else s.line q := by
  have key : ∀ (xs : List Phase), xs.Nodup → ∀ t : State,
      (xs.foldl f t).line q = if q ∈ xs then g (t.line q) else t.line q := by
    intro xs
    induction xs with
    | nil => exact fun _ _ => rfl
    | cons x xs ih =>
      intro hx t
      obtain ⟨hnot, hxs⟩ := List.nodup_cons.mp hx
      rw [List.foldl_cons, ih hxs]
      by_cases hq : q = x
      · subst hq
        simp [hnot, hf]
      · simp [hq, hne _ _ _ hq]
  have hperm := freeOrder_perm ps s.picks
  unfold State.forEachFree
  generalize freeOrder ps s.picks = r at hperm ⊢
  obtain ⟨xs, n⟩ := r
  rw [key xs (hperm.nodup_iff.mpr hnodup)]
  simp only [hperm.mem_iff]
  rfl

theorem State.quietLines_mains (s : State) (p : Phase) : s.quietLines.mains p = s.mains p := by
  rw [State.mains, State.quietLines_mtb]
  rfl

theorem State.abortSlot_line_ne (s : State) {p q : Phase} (h : q ≠ p) : (s.abortSlot p).line q = s.line q :=
  (s.abortSlot_outsideLine p).line q h

/-- A line controller that QUIET has entered. -/
def Line.withQuiet (l : Line) : Line := { l with causes := { l.causes with quiet := true } }

/-- The slots in GUARD or SEND are aborted as QUIET enters, and no other (R81). -/
theorem State.quietLines_line (s : State) (p : Phase) :
    s.quietLines.line p = if (s.line p).inCarrier then (s.line p).withQuiet.abort else (s.line p).withQuiet := by
  have hnodup : allPhases.Nodup := by decide
  have hall : p ∈ allPhases := by cases p <;> decide
  unfold State.quietLines
  rw [State.forEachFree_line (g := Line.abort) State.abortSlot_line (fun t _ _ => t.abortSlot_line_ne) _ (hnodup.filter _),
    State.line_mapLines]
  simp only [List.mem_filter, hall, true_and]
  rfl

theorem Line.quieted_sound {l : Line} (h : l.Sound) :
    (if l.inCarrier then l.withQuiet.abort else l.withQuiet).Sound
      ∧ (if l.inCarrier then l.withQuiet.abort else l.withQuiet).causes.site = l.causes.site
      ∧ (if l.inCarrier then l.withQuiet.abort else l.withQuiet).causes.lost = l.causes.lost
      ∧ (if l.inCarrier then l.withQuiet.abort else l.withQuiet).causes.quiet = true := by
  split
  · obtain ⟨hs, hl, hq⟩ := l.withQuiet.abort_causes
    exact ⟨Line.abort_sound _, hs, hl, hq⟩
  next hcarrier =>
    obtain ⟨hslot, htx, -, hhold⟩ := h
    exact ⟨⟨hslot, htx, fun hc => absurd hc hcarrier, hhold⟩, rfl, rfl, rfl⟩

/-- The assertion of QUIET keeps the lines sound. -/
theorem State.quietLines_linesSound {s t : State} (hs : s.LinesSound) (hm : t = { s with mtb := t.mtb })
    (hphases : t.mtb.phases = s.mtb.phases) (hq : t.mtb.quiet = true) : t.quietLines.LinesSound := by
  obtain ⟨hstore, hlines⟩ := hs
  have hscs : t.quietLines.scs = s.scs := t.quietLines_outsideMains.scs.trans (by rw [hm])
  refine ⟨hscs ▸ hstore, eachPhase_iff.mpr fun p => ?_⟩
  obtain ⟨hsound, hsite, hlost, -⟩ := eachPhase_iff.mp hlines p
  have hline : t.line p = s.line p := by rw [hm]; rfl
  have hmains : t.mains p = s.mains p := by rw [State.mains, hphases]; rfl
  obtain ⟨hsound', hsite', hlost', hquiet'⟩ := Line.quieted_sound hsound
  rw [State.CausesAgree, State.quietLines_line, hline, State.quietLines_mains, hmains, State.quietLines_mtb, hq, hscs]
  exact ⟨hsound', hsite'.trans hsite, hlost'.trans hlost, hquiet'⟩

/-! ### The store (R160 to R162) -/

theorem State.LinesSound.program {s : State} (h : s.LinesSound) {code : Addr} (hb : s.scs.state = .blank)
    (hc : addressOk code = true) : (s.beginProgramming code).LinesSound := by
  obtain ⟨⟨hcells, -⟩, hlines⟩ := h
  exact ⟨⟨hcells, by simp [State.beginProgramming, hb, hc]⟩, hlines⟩

/-- The store of a sound state programs only while BLANK, and only a code in range. -/
theorem Scs.Sound.programming {x : Scs} (h : x.Sound) {code : Addr} (hp : x.programming = some code) :
    x.state = .blank ∧ addressOk code = true := by
  obtain ⟨-, hall⟩ := h
  simpa [hp] using hall

theorem endProgramming_linesSound {s : State} (h : s.LinesSound) {code : Addr} (hp : s.scs.programming = some code)
    (equal : Bool) : (endProgramming code equal s).1.LinesSound := by
  obtain ⟨hstore, hlines⟩ := h
  obtain ⟨hblank, hok⟩ := hstore.programming hp
  rw [endProgramming_eq]
  split
  · refine ⟨⟨by simp [State.mapLines, readCells, hok], rfl⟩, eachPhase_iff.mpr fun p => ?_⟩
    obtain ⟨hsound, -, hlost, hquiet⟩ := eachPhase_iff.mp hlines p
    rw [State.CausesAgree, State.line_mapLines]
    exact ⟨hsound.withoutCause (by simp) id id, rfl, hlost, hquiet⟩
  · refine ⟨⟨rfl, rfl⟩, eachPhase_iff.mpr fun p => ?_⟩
    obtain ⟨hsound, hsite, hlost, hquiet⟩ := eachPhase_iff.mp hlines p
    rw [hblank] at hsite
    exact ⟨hsound, hsite, hlost, hquiet⟩

theorem State.completeWrite_keepsLines (s : State) (equal : Bool) : KeepsLines s (s.completeWrite equal) := by
  intro hs
  obtain ⟨-, he⟩ | ⟨code, hp, he⟩ := s.completeWrite_cases equal
  · rw [he]
    exact ⟨hs, fun _ => rfl⟩
  · have hend := endProgramming_linesSound hs hp equal
    refine ⟨?_, fun hne => absurd (hs.1.programming hp).1 hne⟩
    obtain ⟨-, he⟩ | ⟨_, -, he⟩ := he <;> rw [he] <;> exact hend

/-! ### Every act -/

theorem Act.keepsLines {k : Stretch} {s t : State} (h : Act k s t) : KeepsLines s t := by
  cases h with
  | owner h => exact h.keepsLines
  | line h => exact h.keepsLines
  | closingEnd tag =>
    exact .of_same (s.closingEnd_outside tag).scs (s.closingEnd_outside tag).mtb (s.closingEnd_lines tag)
  | holdRecord rec =>
    obtain ⟨r, he⟩ := s.holdRecord_blocks rec
    rw [he]
    exact .of_same rfl rfl rfl
  | program rec h hb hc => exact fun hs => ⟨hs.program hb hc, fun hne => absurd hb hne⟩
  | written equal => exact s.completeWrite_keepsLines equal
  | crossed n h => exact .setMains (by unfold Mains.count; dsimp only; split <;> [split; skip] <;> rfl)
  | returning n h =>
    exact (KeepsLines.setMains (by unfold Mains.countReturn; dsimp only; split <;> [split; skip] <;> rfl)).trans
      (State.returnIfDue_keepsLines _ _)
  | returned p => exact s.returnIfDue_keepsLines p
  | lost => exact s.losePhase_keepsLines _
  | subcount =>
    unfold State.advanceSubcount
    dsimp only
    split
    · exact .of_lines rfl (fun _ => rfl) rfl fun _ h => ⟨h, .refl _⟩
    · exact .refl s
  | quietOff => exact s.releaseQuiet_keepsLines
  | quietOn h =>
    exact fun hs => ⟨State.quietLines_linesSound hs rfl rfl rfl, fun _ => (State.quietLines_outsideMains _).scs⟩
  | quietStays h => exact .of_lines rfl (fun _ => rfl) h.symm fun _ h => ⟨h, .refl _⟩
  | advance | tick | quietInput => exact .of_lines rfl (fun _ => rfl) rfl fun _ h => ⟨h, .refl _⟩
  | _ => exact .of_same rfl rfl rfl

theorem Line.powerUp_sound (site quiet : Bool) : (Line.powerUp site quiet).Sound := .of_idle rfl rfl rfl rfl

theorem Scs.powerUp_sound (x : Scs) (touched : Bool) : (x.powerUp touched).Sound := ⟨rfl, rfl⟩

theorem State.powerOn_line (s : State) (quiet touched : Bool) (p : Phase) :
    (s.powerOn quiet touched).line p = Line.powerUp (decide ((s.scs.powerUp touched).state ≠ .written)) quiet := by
  cases p <;> rfl

theorem State.powerOn_mains (s : State) (quiet touched : Bool) (p : Phase) :
    (s.powerOn quiet touched).mains p = Mains.powerUp := by
  cases p <;> rfl

theorem State.powerOn_linesSound (s : State) (quiet touched : Bool) : (s.powerOn quiet touched).LinesSound := by
  refine ⟨Scs.powerUp_sound s.scs touched, eachPhase_iff.mpr fun p => ?_⟩
  rw [State.CausesAgree, State.powerOn_line, State.powerOn_mains]
  exact ⟨Line.powerUp_sound _ _, rfl, rfl, rfl⟩

/-- Settles O51, by the acts of a step: slots begin only where no cause stands, each cause enters and leaves with its condition,
and only a BLANK store programs. -/
theorem linesStaySound : Obligations.LinesStaySound := by
  intro s t hs h
  obtain ⟨quiet, touched, rest, hp, rfl⟩ | hkeep := step_cases (R := KeepsLines) .refl .trans
    (fun _ _ => .of_same rfl rfl rfl) Act.keepsLines (fun hl => by cases hl <;> exact .of_same rfl rfl rfl) h
  · exact ⟨State.powerOn_linesSound _ quiet touched, fun _ hno => absurd (by rw [hp]; rfl) (hno quiet touched)⟩
  · obtain ⟨ht, hstore⟩ := hkeep hs
    exact ⟨ht, fun hne _ => hstore hne⟩

end Sys2Proof.Machine
end

section
/-! PROOF. The House Directory: what edits and removals leave of its entries, and every step keeps it and the freeze table sound
(R31 to R45). -/

namespace Sys2Proof.Machine

open Relation (ReflTransGen)

/-! ### Entries, addresses and references by index -/

/-- The indices of the entries rise. -/
abbrev Dir.Rising (d : Dir) : Prop := (d.houses.map (·.1)).Pairwise (· < ·)

theorem Dir.Rising.get_iff {d : Dir} (hd : d.Rising) {i : Nat} {h : House} : d.get i = some h ↔ (i, h) ∈ d.houses := by
  have hnodup : (d.houses.map (·.1)).Nodup := hd.imp Nat.ne_of_lt
  unfold Dir.get
  constructor
  · intro hg
    obtain ⟨⟨j, k⟩, hf, rfl⟩ := Option.map_eq_some_iff.mp hg
    have hj : j = i := by simpa using List.find?_some hf
    exact hj ▸ List.mem_of_find?_eq_some hf
  · intro hm
    obtain ⟨e, hf⟩ := Option.isSome_iff_exists.mp (List.find?_isSome (p := fun e : Nat × House => e.1 == i) |>.mpr ⟨_, hm, by simp⟩)
    have he : e.1 = i := by simpa using List.find?_some hf
    rw [hf, List.inj_on_of_nodup_map hnodup (List.mem_of_find?_eq_some hf) hm he]
    rfl

/-- No two entries hold one address. -/
def Dir.AddressesDistinct (d : Dir) : Prop :=
  ∀ i j h k, d.get i = some h → d.get j = some k → h.address = k.address → i = j

/-- Soundness read by index. -/
theorem Dir.sound_iff {d : Dir} :
    d.Sound ↔ d.Rising ∧ d.AddressesDistinct ∧ ∀ i h, d.get i = some h → d.EntrySound i h ∧ d.RouteSound i h := by
  constructor
  · rintro ⟨hrising, haddr, hentries⟩
    refine ⟨hrising, fun i j h k hi hj he => ?_, fun i h hi => hentries (i, h) (Dir.Rising.get_iff hrising |>.mp hi)⟩
    have hmi := Dir.Rising.get_iff hrising |>.mp hi
    have hmj := Dir.Rising.get_iff hrising |>.mp hj
    exact congrArg Prod.fst (List.inj_on_of_nodup_map haddr hmi hmj he)
  · rintro ⟨hrising, haddr, hentries⟩
    refine ⟨hrising, ?_, fun e he => hentries e.1 e.2 (Dir.Rising.get_iff hrising |>.mpr he)⟩
    have hnodup : d.houses.Nodup := List.Nodup.of_map _ (hrising.imp Nat.ne_of_lt)
    refine (List.nodup_map_iff_inj_on hnodup).mpr fun x hx y hy he => ?_
    have hgx : d.get x.1 = some x.2 := Dir.Rising.get_iff hrising |>.mpr hx
    have hgy : d.get y.1 = some y.2 := Dir.Rising.get_iff hrising |>.mpr hy
    have hxy := haddr _ _ _ _ hgx hgy he
    exact Prod.ext hxy (Option.some.inj (hgx.symm.trans (hxy ▸ hgy)))

/-- The route a sound directory holds at an index: its entries are distinct, occupied on the phase, and have no routes. -/
theorem Dir.Sound.route {d : Dir} (hd : d.Sound) {i : Nat} {h : House} (hg : d.get i = some h) :
    h.route.length ≤ 2 ∧ h.route.Nodup
      ∧ ∀ j ∈ h.route, j ≠ i ∧ ∃ k, d.get j = some k ∧ k.phase = h.phase ∧ k.route = [] := by
  obtain ⟨-, hlen, hok⟩ := (Dir.sound_iff.mp hd).2.2 i h hg
  simp only [Dir.routeOk, Bool.and_eq_true, List.all_eq_true, decide_eq_true_eq, Dir.hopOk_iff] at hok
  exact ⟨hlen, hok.2, hok.1⟩

theorem Dir.Sound.entry {d : Dir} (hd : d.Sound) {i : Nat} {h : House} (hg : d.get i = some h) : d.EntrySound i h :=
  ((Dir.sound_iff.mp hd).2.2 i h hg).1

theorem Dir.named_pos_iff {d : Dir} (hd : d.Rising) (i : Nat) : 0 < d.named i ↔ ∃ j k, d.get j = some k ∧ i ∈ k.route := by
  simp only [Dir.named, List.countP_pos_iff, List.contains_iff_mem]
  constructor
  · rintro ⟨⟨j, k⟩, hm, hi⟩
    exact ⟨j, k, hd.get_iff.mpr hm, hi⟩
  · rintro ⟨j, k, hg, hi⟩
    exact ⟨(j, k), hd.get_iff.mp hg, hi⟩

/-- No route of a sound directory names a vacant entry. -/
theorem Dir.Sound.named_vacant {d : Dir} (hd : d.Sound) {i : Nat} (hg : d.get i = none) : d.named i = 0 := by
  by_contra hne
  obtain ⟨j, k, hj, hi⟩ := (Dir.named_pos_iff hd.1 i).mp (Nat.pos_of_ne_zero hne)
  obtain ⟨-, -, hall⟩ := hd.route hj
  obtain ⟨-, x, hx, -⟩ := hall i hi
  rw [hg] at hx
  cases hx

/-! ### Changes of entries in place -/

theorem Dir.modify_indices (d : Dir) (i : Nat) (f : House → House) :
    (d.modify i f).houses.map (·.1) = d.houses.map (·.1) := by
  simp only [Dir.modify, List.map_map, Function.comp_def]
  exact List.map_congr_left fun e _ => by split <;> rfl

theorem Dir.named_modify (d : Dir) (i j : Nat) {f : House → House} (hf : ∀ h, (f h).route = h.route) :
    (d.modify i f).named j = d.named j := by
  simp only [Dir.named, Dir.modify, List.countP_map]
  refine List.countP_congr fun e _ => ?_
  dsimp only [Function.comp]
  split <;> simp [hf]

/-- Changes of several entries in a row. -/
theorem Dir.get_foldl_modify (f : House → House) (js : List Nat) (hnodup : js.Nodup) (d : Dir) (j : Nat) :
    (js.foldl (fun d i => d.modify i f) d).get j = if j ∈ js then (d.get j).map f else d.get j := by
  induction js generalizing d with
  | nil => rfl
  | cons i js ih =>
    obtain ⟨hi, hjs⟩ := List.nodup_cons.mp hnodup
    rw [List.foldl_cons, ih hjs, Dir.get_modify]
    by_cases hj : j = i
    · subst hj
      simp [hi]
    · simp [hj]

theorem Dir.foldl_modify_indices (f : House → House) (js : List Nat) (d : Dir) :
    (js.foldl (fun d i => d.modify i f) d).houses.map (·.1) = d.houses.map (·.1) :=
  foldl_keeps (f := fun d i => Dir.modify d i f) (fun d => d.houses.map (·.1)) (fun d i => d.modify_indices i f) js d

theorem Dir.foldl_modify_named {f : House → House} (hf : ∀ h, (f h).route = h.route) (js : List Nat) (d : Dir) (j : Nat) :
    (js.foldl (fun d i => d.modify i f) d).named j = d.named j :=
  foldl_keeps (f := fun d i => Dir.modify d i f) (fun d => d.named j) (fun d i => d.named_modify i j hf) js d

theorem Dir.moveReferences_indices (d : Dir) (old new : List Nat) :
    (d.moveReferences old new).houses.map (·.1) = d.houses.map (·.1) := by
  unfold Dir.moveReferences
  rw [Dir.foldl_modify_indices, Dir.foldl_modify_indices]

theorem Dir.moveReferences_named (d : Dir) (old new : List Nat) (j : Nat) :
    (d.moveReferences old new).named j = d.named j :=
  (Dir.foldl_modify_named (f := fun h => { h with refCount := h.refCount + 1 }) (fun _ => rfl) _ _ j).trans
    (Dir.foldl_modify_named (f := fun h => { h with refCount := h.refCount - 1 }) (fun _ => rfl) _ _ j)

/-- The references that move are those of the entries in one of the routes alone (R32, R38). -/
theorem Dir.get_moveReferences (d : Dir) {old new : List Nat} (hold : old.Nodup) (hnew : new.Nodup) (j : Nat) :
    (d.moveReferences old new).get j = (d.get j).map fun k => { k with refCount := countAfter old new j k.refCount } := by
  unfold Dir.moveReferences
  rw [Dir.get_foldl_modify _ _ (hnew.filter _), Dir.get_foldl_modify _ _ (hold.filter _)]
  unfold countAfter
  by_cases ho : j ∈ old <;> by_cases hn : j ∈ new <;> simp [ho, hn]

/-! ### Counting entries through an edit -/

/-- What an entry counts for at its index: 1 if it is occupied and passes a test. -/
def countAt (q : House → Bool) : Option House → Nat
  | some h => (q h).toNat
  | none => 0

theorem countP_cons_toNat (q : Nat × House → Bool) (e : Nat × House) (l : List (Nat × House)) :
    (e :: l).countP q = l.countP q + (q e).toNat := by
  rw [List.countP_cons]
  cases q e <;> rfl

theorem countP_insertHouse (q : House → Bool) (i : Nat) (h : House) (l : List (Nat × House))
    (hl : (l.map (·.1)).Pairwise (· < ·)) :
    (insertHouse i h l).countP (fun e => q e.2) + countAt q ((l.find? fun e => e.1 == i).map (·.2))
      = l.countP (fun e => q e.2) + (q h).toNat := by
  induction l with
  | nil => cases hq : q h <;> simp [insertHouse, countAt, hq]
  | cons e l ih =>
    obtain ⟨k, x⟩ := e
    obtain ⟨hk, hrest⟩ := List.pairwise_cons.mp hl
    unfold insertHouse
    split_ifs with hlt heq
    · have hnone : ((k, x) :: l).find? (fun e => e.1 == i) = none := by
        refine List.find?_eq_none.mpr fun e he => ?_
        obtain rfl | he := List.mem_cons.mp he
        · simpa using Nat.ne_of_gt hlt
        · have hke : k < e.1 := hk e.1 (List.mem_map_of_mem he)
          simp only [beq_iff_eq]
          omega
      rw [hnone, countP_cons_toNat]
      rfl
    · subst heq
      simp only [countP_cons_toNat, List.find?_cons_of_pos (p := fun e : Nat × House => e.1 == i) (a := (i, x)) (by simp), Option.map_some, countAt]
      omega
    · have hne : ¬k = i := fun he => heq he.symm
      have := ih hrest
      simp only [countP_cons_toNat, List.find?_cons_of_neg (p := fun e : Nat × House => e.1 == i) (a := (k, x)) (by simpa using hne)]
      omega

theorem countP_remove (q : House → Bool) (i : Nat) (l : List (Nat × House)) (hl : (l.map (·.1)).Pairwise (· < ·)) :
    (l.filter fun e => e.1 != i).countP (fun e => q e.2) + countAt q ((l.find? fun e => e.1 == i).map (·.2))
      = l.countP (fun e => q e.2) := by
  induction l with
  | nil => rfl
  | cons e l ih =>
    obtain ⟨k, x⟩ := e
    obtain ⟨hk, hrest⟩ := List.pairwise_cons.mp hl
    have := ih hrest
    by_cases hki : k = i
    · subst hki
      have hall : l.filter (fun e => e.1 != k) = l := List.filter_eq_self.mpr fun e he => by
        have hke : k < e.1 := hk e.1 (List.mem_map_of_mem he)
        simp only [bne_iff_ne]
        omega
      rw [List.filter_cons_of_neg (by simp), hall, countP_cons_toNat, List.find?_cons_of_pos (by simp)]
      rfl
    · rw [List.filter_cons_of_pos (by simpa using hki), countP_cons_toNat, countP_cons_toNat,
        List.find?_cons_of_neg (by simpa using hki)]
      omega

theorem insertHouse_rising (i : Nat) (h : House) (l : List (Nat × House)) (hl : (l.map (·.1)).Pairwise (· < ·)) :
    ((insertHouse i h l).map (·.1)).Pairwise (· < ·) := by
  have hmem : ∀ (l : List (Nat × House)) x, x ∈ (insertHouse i h l).map (·.1) → x = i ∨ x ∈ l.map (·.1) := by
    intro l
    induction l with
    | nil => simp [insertHouse]
    | cons e l ih =>
      obtain ⟨k, y⟩ := e
      intro x hx
      unfold insertHouse at hx
      split_ifs at hx with hlt heq
      · simpa using hx
      · subst heq
        simp only [List.map_cons, List.mem_cons] at hx ⊢
        tauto
      · simp only [List.map_cons, List.mem_cons] at hx ⊢
        obtain rfl | hx := hx
        · exact .inr (.inl rfl)
        · obtain rfl | hx := ih x hx
          · exact .inl rfl
          · exact .inr (.inr hx)
  induction l with
  | nil => simp [insertHouse]
  | cons e l ih =>
    obtain ⟨k, y⟩ := e
    obtain ⟨hk, hrest⟩ := List.pairwise_cons.mp hl
    unfold insertHouse
    split_ifs with hlt heq
    · refine List.pairwise_cons.mpr ⟨fun x hx => ?_, hl⟩
      obtain rfl | hx := List.mem_cons.mp hx
      · exact hlt
      · exact hlt.trans (hk x hx)
    · subst heq
      exact List.pairwise_cons.mpr ⟨hk, hrest⟩
    · refine List.pairwise_cons.mpr ⟨fun x hx => ?_, ih hrest⟩
      obtain rfl | hx := hmem l x hx
      · exact Nat.lt_of_le_of_ne (Nat.le_of_not_lt hlt) fun he => heq he.symm
      · exact hk x hx

/-! ### The edit of HOUSE_PUT (R38) -/

/-- Edits are read by index: the entry put, the moved references of the others (R38). -/
theorem Dir.Sound.get_edit {d : Dir} (hd : d.Sound) {i : Nat} {a : Addr} {p : Phase} {groups : BitVec 16} {route : List Nat}
    (hroute : route.Nodup) (j : Nat) :
    (d.edit i a p groups route).get j
      = if i = j then some (d.editedHouse i a p groups route)
        else (d.get j).map fun k => { k with refCount := countAfter (d.routeOf i) route j k.refCount } := by
  have hold : (d.routeOf i).Nodup := by
    unfold Dir.routeOf
    split
    next h hg => exact (hd.route hg).2.1
    · exact List.nodup_nil
  have hrising : (d.moveReferences (d.routeOf i) route).Rising := by
    rw [Dir.Rising, Dir.moveReferences_indices]
    exact hd.1
  rw [Dir.edit, Dir.get_put _ _ _ _ hrising, Dir.get_moveReferences d hold hroute]

theorem Dir.edit_rising {d : Dir} (hd : d.Rising) (i : Nat) (a : Addr) (p : Phase) (groups : BitVec 16) (route : List Nat) :
    (d.edit i a p groups route).Rising :=
  insertHouse_rising i _ _ (by rw [Dir.moveReferences_indices]; exact hd)

theorem Dir.named_put {d : Dir} (hd : d.Rising) (i j : Nat) (h : House) :
    (d.put i h).named j + countAt (fun k => k.route.contains j) (d.get i) = d.named j + (h.route.contains j).toNat :=
  countP_insertHouse (fun k => k.route.contains j) i h d.houses hd

theorem countAt_contains (d : Dir) (i j : Nat) :
    countAt (fun k => k.route.contains j) (d.get i) = ((d.routeOf i).contains j).toNat := by
  unfold Dir.routeOf
  cases d.get i <;> rfl

/-- The references after an edit: those of the old route are gone, those of the new one are there. -/
theorem Dir.Sound.named_edit {d : Dir} (hd : d.Sound) {i : Nat} {a : Addr} {p : Phase} {groups : BitVec 16} {route : List Nat}
    (hroute : route.Nodup) (hedit : (d.editedHouse i a p groups route).route = route) (j : Nat) :
    (d.edit i a p groups route).named j = countAfter (d.routeOf i) route j (d.named j) := by
  have hold : (d.routeOf i).Nodup := by
    unfold Dir.routeOf
    split
    next h hg => exact (hd.route hg).2.1
    · exact List.nodup_nil
  have hrising : (d.moveReferences (d.routeOf i) route).Rising := by
    rw [Dir.Rising, Dir.moveReferences_indices]
    exact hd.1
  have hput := Dir.named_put hrising i j (d.editedHouse i a p groups route)
  have hkept : countAt (fun k => k.route.contains j) ((d.moveReferences (d.routeOf i) route).get i)
      = ((d.routeOf i).contains j).toNat := by
    rw [← countAt_contains, Dir.get_moveReferences d hold hroute]
    cases d.get i <;> rfl
  rw [hkept, Dir.moveReferences_named, hedit] at hput
  have hin : j ∈ d.routeOf i → 0 < d.named j := by
    unfold Dir.routeOf
    split
    next h hg => exact fun hj => (Dir.named_pos_iff hd.1 j).mpr ⟨i, h, hg, hj⟩
    · exact fun hj => absurd hj List.not_mem_nil
  unfold Dir.edit countAfter
  by_cases ho : j ∈ d.routeOf i <;> by_cases hn : j ∈ route <;>
    simp only [ho, hn, not_true, not_false_iff, and_true, and_false, if_true, if_false, decide_true,
      decide_false, Bool.toNat_true, Bool.toNat_false, List.contains_eq_mem] at hput ⊢
  · omega
  · have := hin ho
    omega
  · omega
  · omega

/-- The items of the edited entry (R38 steps 2 to 4). -/
theorem Dir.editedHouse_fields (d : Dir) (i : Nat) (a : Addr) (p : Phase) (groups : BitVec 16) (route : List Nat) :
    (d.editedHouse i a p groups route).address = a ∧ (d.editedHouse i a p groups route).phase = p
      ∧ (d.editedHouse i a p groups route).groups = groups ∧ (d.editedHouse i a p groups route).route = route
      ∧ (d.editedHouse i a p groups route).refCount = ((d.get i).map (·.refCount)).getD 0
      ∧ (∀ k, d.get i = some k → k.address = a → (d.editedHouse i a p groups route).missCount = k.missCount
          ∧ (d.editedHouse i a p groups route).health = k.health ∧ (d.editedHouse i a p groups route).margin = k.margin)
      ∧ ((∀ k, d.get i = some k → k.address ≠ a) → (d.editedHouse i a p groups route).missCount = 0
          ∧ (d.editedHouse i a p groups route).health = .good ∧ (d.editedHouse i a p groups route).margin = none) := by
  unfold Dir.editedHouse
  cases hg : d.get i with
  | none => simp
  | some h => by_cases ha : h.address = a <;> simp [ha]

theorem Dir.addressElsewhere_eq_false {d : Dir} (hd : d.Rising) {i : Nat} {a : Addr} (h : d.addressElsewhere i a = false)
    {j : Nat} {k : House} (hk : d.get j = some k) (hj : j ≠ i) : k.address ≠ a := by
  simp only [Dir.addressElsewhere, List.any_eq_false, Bool.and_eq_true, not_and, bne_iff_ne, beq_iff_eq] at h
  exact h (j, k) (hd.get_iff.mp hk) hj

theorem Dir.routeOk_hops {d : Dir} {i : Nat} {p : Phase} {route : List Nat} (h : d.routeOk i p route = true) :
    route.Nodup ∧ ∀ j ∈ route, j ≠ i ∧ ∃ k, d.get j = some k ∧ k.phase = p ∧ k.route = [] := by
  simp only [Dir.routeOk, Bool.and_eq_true, List.all_eq_true, decide_eq_true_eq, Dir.hopOk_iff] at h
  exact ⟨h.2, h.1⟩

theorem Dir.routeOk_of_hops {d : Dir} {i : Nat} {p : Phase} {route : List Nat} (hn : route.Nodup)
    (h : ∀ j ∈ route, j ≠ i ∧ ∃ k, d.get j = some k ∧ k.phase = p ∧ k.route = []) : d.routeOk i p route = true := by
  simp only [Dir.routeOk, Bool.and_eq_true, List.all_eq_true, decide_eq_true_eq, Dir.hopOk_iff]
  exact ⟨h, hn⟩

/-- The entry that is put takes no route that names itself, before or after. -/
theorem Dir.Sound.not_own_hop {d : Dir} (hd : d.Sound) (i : Nat) : i ∉ d.routeOf i := by
  unfold Dir.routeOf
  split
  next h hg => exact fun hi => ((hd.route hg).2.2 i hi).1 rfl
  · exact List.not_mem_nil

/-- What the checks of R37 leave for the edit of a directory. -/
structure Dir.EditOk (d : Dir) (i : Nat) (a : Addr) (p : Phase) (route : List Nat) : Prop where
  index : i < Config.houseCapacity
  address : Machine.addressOk a = true
  elsewhere : d.addressElsewhere i a = false
  length : route.length ≤ 2
  hops : d.routeOk i p route = true
  reference : d.referenceOk i p route = true

section
variable {d : Dir} {i : Nat} {a : Addr} {p : Phase} {groups : BitVec 16} {route : List Nat}

theorem Dir.Sound.get_edit_self (hd : d.Sound) (h : d.EditOk i a p route) :
    (d.edit i a p groups route).get i = some (d.editedHouse i a p groups route) := by
  rw [hd.get_edit (Dir.routeOk_hops h.hops).1, if_pos rfl]

theorem Dir.Sound.get_edit_other (hd : d.Sound) (h : d.EditOk i a p route) {j : Nat} (hj : j ≠ i) :
    (d.edit i a p groups route).get j
      = (d.get j).map fun k => { k with refCount := countAfter (d.routeOf i) route j k.refCount } := by
  rw [hd.get_edit (Dir.routeOk_hops h.hops).1, if_neg (Ne.symm hj)]

theorem Dir.Sound.edit_addresses (hd : d.Sound) (h : d.EditOk i a p route) : (d.edit i a p groups route).AddressesDistinct := by
  obtain ⟨haddr, -⟩ := d.editedHouse_fields i a p groups route
  have haway : ∀ {j : Nat} {k : House}, j ≠ i → (d.edit i a p groups route).get j = some k →
      k.address ≠ a ∧ ∃ k0, d.get j = some k0 ∧ k0.address = k.address := fun hj hk => by
    rw [hd.get_edit_other h hj] at hk
    obtain ⟨k0, hk0, rfl⟩ := Option.map_eq_some_iff.mp hk
    have hne := Dir.addressElsewhere_eq_false hd.1 h.elsewhere hk0 hj
    exact ⟨hne, k0, hk0, rfl⟩
  have hown : ∀ {k : House}, (d.edit i a p groups route).get i = some k → k.address = a := fun hk => by
    rw [hd.get_edit_self h] at hk
    cases hk
    exact haddr
  intro j k hj hk hgj hgk hjk
  by_cases hji : j = i <;> by_cases hki : k = i
  · rw [hji, hki]
  · subst hji
    exact absurd (hjk.symm.trans (hown hgj)) (haway hki hgk).1
  · subst hki
    exact absurd (hjk.trans (hown hgk)) (haway hji hgj).1
  · obtain ⟨-, j0, hj0, hja⟩ := haway hji hgj
    obtain ⟨-, k0, hk0, hka⟩ := haway hki hgk
    exact (Dir.sound_iff.mp hd).2.1 j k j0 k0 hj0 hk0 (hja.trans (hjk.trans hka.symm))

/-- An entry that stands keeps its phase and its empty route through an edit that checks 5 and 6 let pass. -/
theorem Dir.Sound.edit_hop (hd : d.Sound) (h : d.EditOk i a p route) {x : Nat} {k : House} (hx : d.get x = some k)
    (hroute : k.route = []) (hnamed : x = i → 0 < d.named x) :
    ∃ k', (d.edit i a p groups route).get x = some k' ∧ k'.phase = k.phase ∧ k'.route = [] := by
  by_cases hxi : x = i
  · subst hxi
    obtain ⟨-, hphase, -, hedited, -⟩ := d.editedHouse_fields x a p groups route
    obtain ⟨-, -, -, -, -, hcount⟩ := hd.entry hx
    have href := h.reference
    simp only [Dir.referenceOk, hx, decide_eq_true_eq] at href
    obtain hzero | ⟨hp, hr⟩ := href
    · exact absurd (hnamed rfl) (by rw [← hcount, hzero]; exact Nat.lt_irrefl 0)
    · exact ⟨_, hd.get_edit_self h, by rw [hphase, hp], by rw [hedited, hr]⟩
  · refine ⟨{ k with refCount := countAfter (d.routeOf i) route x k.refCount }, ?_, rfl, hroute⟩
    rw [hd.get_edit_other h hxi, hx]
    rfl

theorem Dir.Sound.edit_own_entry (hd : d.Sound) (h : d.EditOk i a p route) :
    (d.edit i a p groups route).EntrySound i (d.editedHouse i a p groups route)
      ∧ (d.edit i a p groups route).RouteSound i (d.editedHouse i a p groups route) := by
  obtain ⟨haddr, hphase, -, hroute, hcount, hsame, hnew⟩ := d.editedHouse_fields i a p groups route
  obtain ⟨hnodup, hhops⟩ := Dir.routeOk_hops h.hops
  have hnamed : (d.edit i a p groups route).named i = d.named i := by
    have hnot : i ∉ route := fun hi => (hhops i hi).1 rfl
    simp [hd.named_edit hnodup hroute, countAfter, hd.not_own_hop i, hnot]
  have hrefs : (d.editedHouse i a p groups route).refCount = d.named i := by
    rw [hcount]
    cases hg : d.get i with
    | none => simp [hd.named_vacant hg]
    | some k =>
      obtain ⟨-, -, -, -, -, hk⟩ := hd.entry hg
      simp [hk]
  refine ⟨⟨h.index, by rw [haddr]; exact h.address, ?_⟩, by rw [hroute]; exact h.length, ?_⟩
  · rw [hnamed, hrefs]
    by_cases hk : ∃ k, d.get i = some k ∧ k.address = a
    · obtain ⟨k, hk, hka⟩ := hk
      obtain ⟨hmiss, hhealth, hmargin⟩ := hsame k hk hka
      obtain ⟨-, -, hle, hof, hmle, -⟩ := hd.entry hk
      rw [hmiss, hhealth, hmargin]
      exact ⟨hle, hof, hmle, rfl⟩
    · obtain ⟨hmiss, hhealth, hmargin⟩ := hnew fun k hg hka => hk ⟨k, hg, hka⟩
      rw [hmiss, hhealth, hmargin]
      exact ⟨by omega, by decide, by simp, rfl⟩
  · rw [hphase, hroute]
    refine Dir.routeOk_of_hops hnodup fun x hx => ?_
    obtain ⟨hne, k, hk, hkp, hkr⟩ := hhops x hx
    obtain ⟨k', hk', hp', hr'⟩ := hd.edit_hop (groups := groups) h hk hkr fun he => absurd he hne
    exact ⟨hne, k', hk', hp'.trans hkp, hr'⟩

theorem Dir.Sound.edit_other_entry (hd : d.Sound) (h : d.EditOk i a p route) {j : Nat} {k : House} (hj : j ≠ i)
    (hk : (d.edit i a p groups route).get j = some k) :
    (d.edit i a p groups route).EntrySound j k ∧ (d.edit i a p groups route).RouteSound j k := by
  rw [hd.get_edit_other h hj] at hk
  obtain ⟨k0, hk0, rfl⟩ := Option.map_eq_some_iff.mp hk
  obtain ⟨-, -, -, hroute, -⟩ := d.editedHouse_fields i a p groups route
  obtain ⟨hcap, hok, hmiss, hhealth, hmargin, hrefs⟩ := hd.entry hk0
  obtain ⟨hlen, hnodup, hhops⟩ := hd.route hk0
  refine ⟨⟨hcap, hok, hmiss, hhealth, hmargin, ?_⟩, hlen, Dir.routeOk_of_hops hnodup fun x hx => ?_⟩
  · rw [hd.named_edit (Dir.routeOk_hops h.hops).1 hroute, ← hrefs]
  · obtain ⟨hne, x0, hx0, hp0, hr0⟩ := hhops x hx
    obtain ⟨x', hx', hp', hr'⟩ := hd.edit_hop (groups := groups) h hx0 hr0 fun _ =>
      (Dir.named_pos_iff hd.1 x).mpr ⟨j, k0, hk0, hx⟩
    exact ⟨hne, x', hx', hp'.trans hp0, hr'⟩

/-- An edit that passes the checks keeps the directory sound. -/
theorem Dir.Sound.edit (hd : d.Sound) (h : d.EditOk i a p route) : (d.edit i a p groups route).Sound := by
  refine Dir.sound_iff.mpr ⟨Dir.edit_rising hd.1 i a p groups route, hd.edit_addresses h, fun j k hg => ?_⟩
  by_cases hj : j = i
  · subst hj
    rw [hd.get_edit_self h] at hg
    cases hg
    exact hd.edit_own_entry h
  · exact hd.edit_other_entry h hj hg

end

/-! ### The removal (R39) -/

theorem Dir.Sound.get_removal {d : Dir} (hd : d.Sound) {i : Nat} {h : House} (hg : d.get i = some h) (j : Nat) :
    ((d.moveReferences h.route []).remove i).get j
      = if j = i then none
        else (d.get j).map fun k => { k with refCount := if j ∈ h.route then k.refCount - 1 else k.refCount } := by
  rw [Dir.get_remove, Dir.get_moveReferences d (hd.route hg).2.1 List.nodup_nil]
  simp [countAfter]

theorem Dir.Sound.named_removal {d : Dir} (hd : d.Sound) {i : Nat} {h : House} (hg : d.get i = some h) (j : Nat) :
    ((d.moveReferences h.route []).remove i).named j = if j ∈ h.route then d.named j - 1 else d.named j := by
  have hrising : (d.moveReferences h.route []).Rising := by
    rw [Dir.Rising, Dir.moveReferences_indices]
    exact hd.1
  have hcount : ((d.moveReferences h.route []).remove i).named j + countAt (fun k => k.route.contains j)
      ((d.moveReferences h.route []).get i) = (d.moveReferences h.route []).named j :=
    countP_remove (fun k => k.route.contains j) i _ hrising
  rw [Dir.get_moveReferences d (hd.route hg).2.1 List.nodup_nil, hg, Dir.moveReferences_named] at hcount
  have hcount' : ((d.moveReferences h.route []).remove i).named j + (h.route.contains j).toNat = d.named j := hcount
  by_cases hj : j ∈ h.route
  · simp only [hj, List.contains_eq_mem, decide_true, Bool.toNat_true] at hcount'
    rw [if_pos hj]
    omega
  · simp only [hj, List.contains_eq_mem, decide_false, Bool.toNat_false] at hcount'
    rw [if_neg hj]
    omega

theorem Dir.removal_rising {d : Dir} (hd : d.Rising) (i : Nat) (route : List Nat) :
    ((d.moveReferences route []).remove i).Rising := by
  have hrising : (d.moveReferences route []).Rising := by
    rw [Dir.Rising, Dir.moveReferences_indices]
    exact hd
  exact List.Pairwise.sublist (List.filter_sublist.map _) hrising

/-- The removal of an entry that no route names keeps the directory sound. -/
theorem Dir.Sound.removal {d : Dir} (hd : d.Sound) {i : Nat} {h : House} (hg : d.get i = some h) (href : h.refCount = 0) :
    ((d.moveReferences h.route []).remove i).Sound := by
  have hget := hd.get_removal hg
  have hstood : ∀ {j : Nat} {k : House}, ((d.moveReferences h.route []).remove i).get j = some k → j ≠ i ∧ ∃ k0,
      d.get j = some k0 ∧ k = { k0 with refCount := if j ∈ h.route then k0.refCount - 1 else k0.refCount } := fun {j k} hk => by
    rw [hget] at hk
    split at hk
    · cases hk
    next hj =>
      obtain ⟨k0, hk0, rfl⟩ := Option.map_eq_some_iff.mp hk
      exact ⟨hj, k0, hk0, rfl⟩
  refine Dir.sound_iff.mpr ⟨Dir.removal_rising hd.1 i h.route, fun j k hj hk hgj hgk hjk => ?_, fun j k hk => ?_⟩
  · obtain ⟨-, j0, hj0, rfl⟩ := hstood hgj
    obtain ⟨-, k0, hk0, rfl⟩ := hstood hgk
    exact (Dir.sound_iff.mp hd).2.1 j k j0 k0 hj0 hk0 hjk
  · obtain ⟨hj, k0, hk0, rfl⟩ := hstood hk
    obtain ⟨hcap, hok, hmiss, hhealth, hmargin, hrefs⟩ := hd.entry hk0
    obtain ⟨hlen, hnodup, hhops⟩ := hd.route hk0
    refine ⟨⟨hcap, hok, hmiss, hhealth, hmargin, ?_⟩, hlen, Dir.routeOk_of_hops hnodup fun x hx => ?_⟩
    · rw [hd.named_removal hg, ← hrefs]
    · obtain ⟨hne, x0, hx0, hp0, hr0⟩ := hhops x hx
      have hxi : x ≠ i := by
        rintro rfl
        have hpos := (Dir.named_pos_iff hd.1 x).mpr ⟨j, k0, hk0, hx⟩
        obtain ⟨-, -, -, -, -, hcount⟩ := hd.entry hg
        rw [← hcount, href] at hpos
        exact absurd hpos (Nat.lt_irrefl 0)
      refine ⟨hne, { x0 with refCount := if x ∈ h.route then x0.refCount - 1 else x0.refCount }, ?_, hp0, hr0⟩
      rw [hget, if_neg hxi, hx0]
      rfl

/-! ### Health (R34, R35) -/

theorem House.HealthOnly.route {f : House → House} (hf : House.HealthOnly f) (h : House) : (f h).route = h.route := by
  obtain ⟨m, margin, -, -, he⟩ := hf h
  rw [he]

theorem Dir.get_modify_eq (d : Dir) (i j : Nat) (f : House → House) :
    (d.modify i f).get j = (d.get j).map fun k => if j = i then f k else k := by
  rw [Dir.get_modify]
  split
  · rfl
  · simp

/-- A change of miss count, health and margin keeps the directory sound. -/
theorem Dir.Sound.healthOnly {d : Dir} (hd : d.Sound) (i : Nat) {f : House → House} (hf : House.HealthOnly f) :
    (d.modify i f).Sound := by
  have hkept : ∀ {j : Nat} {k : House}, (d.modify i f).get j = some k → ∃ k0, d.get j = some k0 ∧ k.address = k0.address
      ∧ k.phase = k0.phase ∧ k.route = k0.route ∧ k.refCount = k0.refCount ∧ (k.missCount ≤ 15 ∧ k.health = healthOf k.missCount
        ∧ ∀ m ∈ k.margin, m ≤ 63) := fun {j k} hk => by
    rw [Dir.get_modify_eq] at hk
    obtain ⟨k0, hk0, rfl⟩ := Option.map_eq_some_iff.mp hk
    obtain ⟨-, -, hmiss, hhealth, hmargin, -⟩ := hd.entry hk0
    refine ⟨k0, hk0, ?_⟩
    split
    · obtain ⟨m, margin, hm, hmargin', he⟩ := hf k0
      rw [he]
      refine ⟨rfl, rfl, rfl, rfl, hm, rfl, ?_⟩
      obtain rfl | ⟨n, hn, rfl⟩ := hmargin'
      · exact hmargin
      · rintro x ⟨⟩
        exact hn
    · exact ⟨rfl, rfl, rfl, rfl, hmiss, hhealth, hmargin⟩
  have hrising : (d.modify i f).Rising := by
    rw [Dir.Rising, Dir.modify_indices]
    exact hd.1
  refine Dir.sound_iff.mpr ⟨hrising, fun j k hj hk hgj hgk hjk => ?_, fun j k hk => ?_⟩
  · obtain ⟨j0, hj0, hja, -⟩ := hkept hgj
    obtain ⟨k0, hk0, hka, -⟩ := hkept hgk
    exact (Dir.sound_iff.mp hd).2.1 j k j0 k0 hj0 hk0 (hja.symm.trans (hjk.trans hka))
  · obtain ⟨k0, hk0, haddr, hphase, hroute, hcount, hmiss, hhealth, hmargin⟩ := hkept hk
    obtain ⟨hcap, hok, -, -, -, hrefs⟩ := hd.entry hk0
    obtain ⟨hlen, hnodup, hhops⟩ := hd.route hk0
    refine ⟨⟨hcap, haddr ▸ hok, hmiss, hhealth, hmargin, ?_⟩, hroute ▸ hlen, ?_⟩
    · rw [hcount, hrefs, Dir.named_modify d i j hf.route]
    · refine Dir.routeOk_of_hops (hroute ▸ hnodup) fun x hx => ?_
      obtain ⟨hne, x0, hx0, hp0, hr0⟩ := hhops x (hroute ▸ hx)
      have hgx : (d.modify i f).get x = some (if x = i then f x0 else x0) := by rw [Dir.get_modify_eq, hx0]; rfl
      obtain ⟨y, hy, -, hyp, hyr, -⟩ := hkept hgx
      cases hx0.symm.trans hy
      exact ⟨hne, _, hgx, hyp.trans (hp0.trans hphase.symm), hyr.trans hr0⟩

end Sys2Proof.Machine
end

section
/-! PROOF. Every step keeps the directory and the freeze table sound; HOUSE_PUT and HOUSE_REMOVE (R38, R39, R43). -/

namespace Sys2Proof.Machine

open Relation (ReflTransGen)

/-! ### Every step -/

/-- What an act keeps of the directory and the freeze table: their soundness, and every HARD range. -/
structure KeepsDir (d e : Dir) : Prop where
  sound : d.Sound → e.Sound
  freezes : d.FreezesSound → e.FreezesSound
  hard : (hardRanges d.freezes).Sublist (hardRanges e.freezes)

theorem KeepsDir.refl (d : Dir) : KeepsDir d d := ⟨id, id, .refl _⟩

theorem KeepsDir.trans {d e f : Dir} (h : KeepsDir d e) (k : KeepsDir e f) : KeepsDir d f :=
  ⟨fun hd => k.sound (h.sound hd), fun hd => k.freezes (h.freezes hd), h.hard.trans k.hard⟩

theorem KeepsDir.of_eq {d e : Dir} (h : e = d) : KeepsDir d e := h ▸ .refl d

/-- The entries change and stay sound; the freeze table stands. -/
theorem KeepsDir.of_entries {d e : Dir} (hf : e.freezes = d.freezes) (hs : d.Sound → e.Sound) : KeepsDir d e :=
  ⟨hs, fun h => by rw [Dir.FreezesSound, hf]; exact h, by rw [hf]⟩

/-- The freeze table is thinned out, but for the HARD ranges. -/
theorem KeepsDir.thinned (d : Dir) {keep : Freeze → Bool} (hk : ∀ f, f.mode = .hard → keep f = true) :
    KeepsDir d { d with freezes := d.freezes.filter keep } := by
  refine ⟨id, fun ⟨hlen, hall⟩ => ⟨(List.length_filter_le _ _).trans hlen, fun f hf => hall f (List.mem_of_mem_filter hf)⟩, ?_⟩
  have hsub := (hardRanges_sublist_filter d.freezes hk).filter fun f => decide (f.mode = .hard)
  simpa only [hardRanges, List.filter_filter, Bool.and_self] using hsub

theorem StandingAct.keepsDir {s t : State} (h : StandingAct s t) : KeepsDir s.dir t.dir := .of_eq h.dir

theorem OrderAct.keepsDir {p : Phase} {tag : Tag} {s t : State} (h : OrderAct p tag s t) : KeepsDir s.dir t.dir := by
  cases h with
  | standing h => exact h.keepsDir
  | house i hf => exact .of_entries rfl fun hd => hd.healthOnly i hf
  | complete => exact .of_eq (OutsideEnd.enterFinal s tag _).dir
  | _ => exact .refl _

theorem OrderActs.keepsDir {p : Phase} {tag : Tag} {s t : State} (h : OrderActs p tag s t) : KeepsDir s.dir t.dir :=
  acts_induct (R := fun s t : State => KeepsDir s.dir t.dir) (fun s => .refl s.dir) (fun h k => h.trans k)
    (fun h => h.keepsDir) h

theorem State.endSlot_keepsDir (s : State) (p : Phase) {reply : Option LineReply} (hm : ∀ r ∈ reply, r.margin ≤ 63) :
    KeepsDir s.dir (s.endSlot p reply).dir := by
  cases hon : (s.line p).onLine with
  | none =>
    have he : s.endSlot p reply = s := by simp only [State.endSlot, hon]
    rw [he]
    exact .refl _
  | some ol =>
    rw [State.endSlot_eq hon, State.modLine_dir]
    obtain ⟨tag, u, -, h, he⟩ | ⟨g, -, he⟩ := s.settledSlot_cases p ol hm <;> rw [he]
    · rw [(u.clearInFlight_outside tag p).dir]
      exact h.keepsDir
    · exact .refl _

theorem State.beginSlot_dir (s : State) (p : Phase) (f : Frame) : (s.beginSlot p f).dir = s.dir := by
  unfold State.beginSlot
  dsimp only
  split <;> rfl

theorem LineAct.keepsDir {p : Phase} {s t : State} (h : LineAct p s t) : KeepsDir s.dir t.dir := by
  cases h with
  | settle _ _ h => exact h.keepsDir
  | beginSlot => exact .of_eq (s.beginSlot_dir p _)
  | endSlot _ hm => exact State.endSlot_keepsDir (s.modLine p _) p hm
  | _ => exact .refl _

theorem Dir.FreezesSound.append {d : Dir} (h : d.FreezesSound) {f : Freeze} (hf : f.first ≤ f.last ∧ f.last < Config.houseCapacity)
    (hcap : d.freezes.length < Config.freezeCapacity) : ({ d with freezes := d.freezes ++ [f] } : Dir).FreezesSound := by
  obtain ⟨-, hall⟩ := h
  refine ⟨by simpa using hcap, fun x hx => ?_⟩
  obtain hx | hx := List.mem_append.mp hx
  · exact hall x hx
  · rw [List.mem_singleton.mp hx]
    exact hf

theorem OwnerAct.keepsDir {k : Stretch} {s t : State} (h : OwnerAct k s t) : KeepsDir s.dir t.dir := by
  cases h with
  | check h => exact .of_eq h.outside.dir
  | reset => exact .thinned s.dir fun f hf => by simp [hf]
  | enroll => exact .of_eq (s.enroll_dir _)
  | put groups hi ha hb he hlen hr href =>
    exact .of_entries (Dir.edit_freezes ..) fun hd => hd.edit ⟨hi, ha, he, hlen, hr, href⟩
  | remove hg hb href =>
    exact .of_entries (by rw [Dir.remove_freezes, Dir.moveReferences_freezes]) fun hd => hd.removal hg href
  | freeze hf hcap =>
    exact ⟨id, fun h => h.append hf hcap, by
      rw [hardRanges, hardRanges, List.filter_append]
      exact List.sublist_append_left _ _⟩
  | thaw _ hk => exact .thinned s.dir hk
  | _ => exact .refl _

theorem Act.keepsDir {k : Stretch} {s t : State} (h : Act k s t) : KeepsDir s.dir t.dir := by
  cases h with
  | owner h => exact h.keepsDir
  | line h => exact h.keepsDir
  | closingEnd tag => exact .of_eq (s.closingEnd_outside tag).dir
  | holdRecord rec =>
    obtain ⟨r, he⟩ := s.holdRecord_blocks rec
    exact .of_eq (by rw [he])
  | written equal => exact .of_eq (s.completeWrite_blocks equal).1
  | returning | returned => exact .of_eq (State.returnIfDue_outsideMains _ _).dir
  | lost => exact .of_eq (s.losePhase_outsideMains _).dir
  | subcount => exact .of_eq s.advanceSubcount_outsideMains.dir
  | quietOff => exact .of_eq s.releaseQuiet_outsideMains.dir
  | quietOn => exact .of_eq (State.quietLines_outsideMains _).dir
  | _ => exact .refl _

theorem State.powerOn_dir (s : State) (quiet touched : Bool) : (s.powerOn quiet touched).dir = ⟨[], []⟩ := rfl

theorem Dir.empty_sound : (⟨[], []⟩ : Dir).Sound ∧ (⟨[], []⟩ : Dir).FreezesSound := by decide

/-- Settles O56, by the acts of a step: an edit that passes the checks and a removal keep the entries sound, THAW and RESET keep the
HARD ranges. -/
theorem directoryStaysSound : Obligations.DirectoryStaysSound := by
  intro s t hs h
  obtain ⟨quiet, touched, rest, hp, rfl⟩ | hkeep := step_cases (R := fun s t : State => KeepsDir s.dir t.dir)
    (fun s => .refl s.dir) (fun h k => h.trans k) (fun _ _ => .refl _) (fun h => h.keepsDir)
    (fun hl => by cases hl <;> exact .refl _) h
  · rw [State.powerOn_dir]
    exact ⟨Dir.empty_sound.1, fun _ => Dir.empty_sound.2, fun hno => absurd (by rw [hp]; rfl) (hno quiet touched)⟩
  · exact ⟨hkeep.sound hs, hkeep.freezes, fun _ => hkeep.hard.trans (hardRanges_sublist _)⟩

/-! ### HOUSE_PUT (R38) -/

theorem num16_toNat (x : BitVec 16) : num16 x.toNat = bytes16 x := by simp [num16]

/-- The checks of R37 as the model makes them. -/
theorem PutPasses.editOk {s : State} {f : PutFields} (h : PutPasses s f) {p : Phase} (hc : phaseCode p = f.phase) :
    s.dir.EditOk f.index.toNat f.address p (putHops f) := by
  obtain ⟨hrange, -, -, htaken, hroute, href⟩ := h
  obtain ⟨hindex, haddr, -⟩ := id hrange
  refine ⟨Nat.lt_succ_of_le hindex, (addressOk_iff _).mpr haddr, ?_, putRoute_eq f ▸ putRoute_length f,
    (Dir.routeOk_iff hc).mpr hroute, (Dir.referenceOk_iff hc).mpr href⟩
  rw [← Bool.not_eq_true, Dir.addressElsewhere_iff]
  exact htaken

theorem handleHousePut_of_passes {s : State} {f : PutFields} (h : PutPasses s f) {p : Phase} (hc : phaseCode p = f.phase) :
    handleHousePut f s = putResult s f p := by
  obtain ⟨hrange, hfrozen, hbusy, htaken, hroute, href⟩ := h
  simp [handleHousePut_of_inRange hrange hc s, hfrozen, hbusy, htaken, hroute, href]

/-- Settles O20: the edit is read at the entry that is put and at every other one. -/
theorem housePutEdits : Obligations.HousePutEdits := by
  intro s f old hp hd hpass hold
  obtain ⟨⟨p, hc⟩, -⟩ := (putInRange_iff f).mp hpass.1
  have hok := hpass.editOk hc
  obtain ⟨haddr, hphase, hgroups, hroute, hcount, hsame, hnew⟩ :=
    s.dir.editedHouse_fields f.index.toNat f.address p f.groups (putHops f)
  have hroutes : s.dir.routeOf f.index.toNat = old := by
    rw [← hold, State.house, Dir.routeOf]
    cases s.dir.get f.index.toNat <;> rfl
  refine ⟨s.dir.edit f.index.toNat f.address p f.groups (putHops f),
    s.dir.editedHouse f.index.toNat f.address p f.groups (putHops f), ?_, Dir.edit_freezes .., Dir.edit_rising hd.1 ..,
    hd.get_edit_self hok, haddr, by rw [hphase, hc], hgroups, hroute, hcount, hsame, hnew, fun j hj => ?_⟩
  · rw [exec_housePut hp (handleHousePut_of_passes hpass hc), num16_toNat]
  · rw [hd.get_edit_other hok hj, hroutes]
    rfl

/-! ### HOUSE_REMOVE (R39) -/

theorem exec_houseRemove {s t : State} {i : BitVec 16} {ans : Answer} (hp : s.rlc.processing = none)
    (h : handleHouseRemove i s = (t, ans)) :
    exec (.houseRemove i) s = .next (t.replied (.houseRemove i) ans.code ans.rest) :=
  exec_of_answered (r := .houseRemove i) hp (by rw [handle, h])

open Classical in
/-- The checks of R39 in order, in the words of the rules. -/
theorem handleHouseRemove_eq (i : BitVec 16) (s : State) :
    handleHouseRemove i s
      = if ¬i.toNat ≤ 479 then (s, ⟨.badField, []⟩)
        else if FrozenAt s i.toNat then (s, ⟨.frozen, []⟩)
        else if BusyAt s i.toNat then (s, ⟨.busyEntry, []⟩)
        else match s.house i.toNat with
          | none => (s, ⟨.vacant, []⟩)
          | some h => if h.refCount ≠ 0 then (s, ⟨.inUse, []⟩)
            else ({ s with dir := (s.dir.moveReferences h.route []).remove i.toNat }, ⟨.ok, []⟩) := by
  simp only [handleHouseRemove, ← State.frozen_iff, ← State.busy_iff, ← indexOk_iff, Bool.not_eq_true', Bool.not_eq_true]
  rfl

/-- Settles O21: the checks are made in order, and the removal is read at the entry that goes and at every other one. -/
theorem houseRemoveDecides : Obligations.HouseRemoveDecides := by
  intro s i hp hd
  have hchecks := handleHouseRemove_eq i s
  refine ⟨fun hr => ?range, fun hr hf => ?frozen, fun hr hf hb => ?busy, fun h hr hf hb hg href => ?inUse,
    fun hr hf hb hg => ?vacant, fun h hr hf hb hg href => ?removed⟩
  case range => exact exec_houseRemove (ans := ⟨.badField, []⟩) hp (by simp [hchecks, hr])
  case frozen => exact exec_houseRemove (ans := ⟨.frozen, []⟩) hp (by simp [hchecks, hr, hf])
  case busy => exact exec_houseRemove (ans := ⟨.busyEntry, []⟩) hp (by simp [hchecks, hr, hf, hb])
  case inUse => exact exec_houseRemove (ans := ⟨.inUse, []⟩) hp (by simp [hchecks, hr, hf, hb, hg, href])
  case vacant => exact exec_houseRemove (ans := ⟨.vacant, []⟩) hp (by simp [hchecks, hr, hf, hb, hg])
  case removed =>
    refine ⟨(s.dir.moveReferences h.route []).remove i.toNat,
      exec_houseRemove (ans := ⟨.ok, []⟩) hp (by simp [hchecks, hr, hf, hb, hg, href]), ?_, Dir.removal_rising hd.1 _ _,
      by rw [hd.get_removal hg, if_pos rfl], fun j hj => by rw [hd.get_removal hg, if_neg hj]; rfl⟩
    rw [Dir.remove_freezes, Dir.moveReferences_freezes]

end Sys2Proof.Machine
end

section
/-! PROOF. Tags of new orders (R7, R12), and every step keeps the composed frames in agreement with the directory and in their
lengths (R28, R30, R36, R45 to R54). -/

namespace Sys2Proof.Machine

open Relation (ReflTransGen)

/-! ### The tag of a new order (R7) -/

/-- The counter's values run up to 65535 and on from 1. -/
theorem nextTag_iterate_toNat (t : Tag) (k : Nat) (hk : k ≤ 65535) :
    (nextTag^[k] t).toNat = if t.toNat + k ≤ 65535 then t.toNat + k else t.toNat + k - 65535 := by
  induction k with
  | zero =>
    have := t.isLt
    simp only [Function.iterate_zero, id]
    split <;> omega
  | succ k ih =>
    have hlast := ih (by omega)
    have ht := t.isLt
    rw [Function.iterate_succ_apply']
    generalize nextTag^[k] t = u at hlast ⊢
    unfold nextTag
    split
    next hu =>
      have hu' : u.toNat = 65535 := by rw [hu]; rfl
      rw [hu'] at hlast
      have hone : (1 : Tag).toNat = 1 := rfl
      rw [hone]
      split at hlast <;> split <;> omega
    next hu =>
      have hu' : u.toNat ≠ 65535 := fun h => hu (BitVec.eq_of_toNat_eq h)
      have hlt := u.isLt
      have hadd : (u + 1).toNat = u.toNat + 1 := by
        rw [BitVec.toNat_add]
        exact Nat.mod_eq_of_lt (by simp; omega)
      rw [hadd]
      split at hlast <;> split <;> omega

theorem nextTag_iterate_ne (t : Tag) {i j : Nat} (hij : i < j) (hj : j < 65535) : nextTag^[i] t ≠ nextTag^[j] t := by
  intro h
  have hi := nextTag_iterate_toNat t i (by omega)
  have hj' := nextTag_iterate_toNat t j (by omega)
  rw [h] at hi
  have ht := t.isLt
  split at hi <;> split at hj' <;> omega

/-- The search stops at the first value that no record holds, or has passed as many as it may. -/
theorem freeTagFrom_spec (fuel : Nat) (used : List Tag) (t : Tag) :
    ∃ k ≤ fuel, freeTagFrom fuel used t = nextTag^[k] t ∧ (∀ i < k, nextTag^[i] t ∈ used)
      ∧ (k < fuel → nextTag^[k] t ∉ used) := by
  induction fuel generalizing t with
  | zero => exact ⟨0, le_rfl, rfl, by simp, by simp⟩
  | succ fuel ih =>
    unfold freeTagFrom
    by_cases ht : t ∈ used
    · obtain ⟨k, hk, he, hall, hfree⟩ := ih (nextTag t)
      refine ⟨k + 1, by omega, ?_, fun i hi => ?_, fun h => hfree (by omega)⟩
      · rw [if_pos (by simpa using ht), he]
        rfl
      · cases i with
        | zero => exact ht
        | succ i => exact hall i (by omega)
    · exact ⟨0, by omega, by rw [if_neg (by simpa using ht)]; rfl, by simp, fun _ => ht⟩

/-- The tag of a new order is the first from the counter on that no record holds. -/
theorem Orm.freeTag_spec {m : Orm} (h : m.table.length < 65535) :
    ∃ k, m.freeTag = nextTag^[k] m.tagCounter ∧ (∀ i < k, nextTag^[i] m.tagCounter ∈ m.table.map (·.tag))
      ∧ m.freeTag ∉ m.table.map (·.tag) := by
  obtain ⟨k, hk, he, hall, hfree⟩ := freeTagFrom_spec m.table.length (m.table.map (·.tag)) m.tagCounter
  refine ⟨k, he, hall, ?_⟩
  rw [Orm.freeTag, he]
  by_cases hlt : k < m.table.length
  · exact hfree hlt
  · obtain rfl : k = m.table.length := Nat.le_antisymm hk (Nat.le_of_not_lt hlt)
    intro hin
    have hsub : ∀ i ∈ Finset.range (m.table.length + 1),
        nextTag^[i] m.tagCounter ∈ (m.table.map (·.tag)).toFinset := fun i hi => by
      rw [List.mem_toFinset]
      obtain hi | rfl := Nat.lt_or_eq_of_le (Nat.le_of_lt_succ (Finset.mem_range.mp hi))
      · exact hall i hi
      · exact hin
    have hinj : Set.InjOn (fun i => nextTag^[i] m.tagCounter) (Finset.range (m.table.length + 1)) := fun i hi j hj hij => by
      simp only [Finset.coe_range, Set.mem_Iio] at hi hj
      obtain hlt | heq | hgt := Nat.lt_trichotomy i j
      · exact absurd hij (nextTag_iterate_ne _ hlt (by omega))
      · exact heq
      · exact absurd hij.symm (nextTag_iterate_ne _ hgt (by omega))
    have hcard := Finset.card_le_card_of_injOn (fun i => nextTag^[i] m.tagCounter) hsub hinj
    have hlist := (m.table.map (·.tag)).toFinset_card_le
    simp only [Finset.card_range, List.length_map] at hcard hlist
    omega

/-- A new order's tag is in no record. -/
theorem State.freeTag_fresh {s : State} (h : s.orm.table.length < Config.orderCapacity) :
    s.orm.freeTag ∉ s.orm.table.map (·.tag) := by
  obtain ⟨-, -, -, hfresh⟩ := Orm.freeTag_spec (m := s.orm) (h.trans (by decide))
  exact hfresh

theorem State.enroll_tags (s : State) (o : Order) :
    (s.enroll o).orm.table.map (·.tag) = s.orm.table.map (·.tag) ++ [o.tag] := by
  rw [State.enroll, ((s.enlist o).supersede_outside o).tags, State.enlist, List.map_append]
  rfl

theorem State.noteTimes_tags (s : State) : s.noteTimes.orm.table.map (·.tag) = s.orm.table.map (·.tag) := by
  simp only [State.noteTimes, List.map_map]
  rfl

theorem Orm.TagsDistinct.of_tags {m n : Orm} (h : m.TagsDistinct) (he : n.table.map (·.tag) = m.table.map (·.tag)) :
    n.TagsDistinct := by
  rwa [Orm.TagsDistinct, he]

theorem OwnerAct.tagsDistinct {k : Stretch} {s t : State} (h : OwnerAct k s t) (hs : s.orm.TagsDistinct) : t.orm.TagsDistinct := by
  cases h with
  | check h => exact hs.of_tags h.outside.tags
  | reset => exact List.nodup_nil
  | @enroll _ f q hq hcap =>
    rw [Orm.TagsDistinct, State.enroll_tags]
    refine List.nodup_append.mpr ⟨hs, by simp, fun a ha b hb hab => ?_⟩
    obtain rfl : b = s.orm.freeTag := by simpa [admittedOrder] using hb
    exact State.freeTag_fresh hcap (hab ▸ ha)
  | release => exact hs.sublist (List.filter_sublist.map _)
  | setClock _ v => exact hs.of_tags (State.noteTimes_tags _)
  | _ => exact hs

theorem Act.tagsDistinct {k : Stretch} {s t : State} (h : Act k s t) (hs : s.orm.TagsDistinct) : t.orm.TagsDistinct := by
  cases h with
  | owner h => exact h.tagsDistinct hs
  | line h => exact hs.of_tags h.outside.tags
  | closingEnd tag => exact hs.of_tags (s.closingEnd_outside tag).tags
  | holdRecord rec =>
    obtain ⟨r, he⟩ := s.holdRecord_blocks rec
    rw [he]
    exact hs
  | written equal =>
    obtain ⟨-, -, -, horm, -⟩ := s.completeWrite_blocks equal
    rw [horm]
    exact hs
  | returning => exact hs.of_tags (State.returnIfDue_outsideMains (s.setMains _ _) _).tags
  | returned => exact hs.of_tags (s.returnIfDue_outsideMains _).tags
  | lost => exact hs.of_tags (s.losePhase_outsideMains _).tags
  | subcount => exact hs.of_tags s.advanceSubcount_outsideMains.tags
  | tick => exact hs.of_tags (State.noteTimes_tags _)
  | quietOff => exact hs.of_tags s.releaseQuiet_outsideMains.tags
  | quietOn => exact hs.of_tags (State.quietLines_outsideMains _).tags
  | _ => exact hs

/-! ### What the directory gives composed frames -/

/-- The entries have the addresses and the routes they had. -/
def SameAddressing (s t : State) : Prop :=
  ∀ j, (t.house j).map (·.address) = (s.house j).map (·.address) ∧ (t.house j).map (·.route) = (s.house j).map (·.route)

theorem SameAddressing.of_dir {s t : State} (h : t.dir = s.dir) : SameAddressing s t := fun j => by
  simp only [State.house, h, and_self]

theorem SameAddressing.trans {s t u : State} (h : SameAddressing s t) (k : SameAddressing t u) : SameAddressing s u :=
  fun j => ⟨(k j).1.trans (h j).1, (k j).2.trans (h j).2⟩

theorem State.addressAt_eq (s : State) (i : Nat) : s.addressAt i = ((s.house i).map (·.address)).getD 0 := by
  unfold State.addressAt
  cases s.house i <;> rfl

/-- Agreement looks at the addresses and routes of the entries the frame names alone. -/
theorem State.FrameAgrees.congr {s t : State} {f : Frame} (h : s.FrameAgrees f)
    (hsame : ∀ j, f.names j = true → (t.house j).map (·.address) = (s.house j).map (·.address)
      ∧ (t.house j).map (·.route) = (s.house j).map (·.route)) : t.FrameAgrees f := by
  intro i hi
  obtain ⟨haddr, hroute, hhops⟩ := h i hi
  obtain ⟨haddr', hroute'⟩ := hsame i ((f.names_iff i).mpr (.inl hi))
  refine ⟨haddr'.trans haddr, hroute'.trans hroute, ?_⟩
  rw [← hhops]
  refine List.map_congr_left fun j hj => ?_
  rw [State.addressAt_eq, State.addressAt_eq, (hsame j ((f.names_iff j).mpr (.inr hj))).1]

theorem SameAddressing.frameAgrees {s t : State} (h : SameAddressing s t) {f : Frame} (hf : s.FrameAgrees f) :
    t.FrameAgrees f :=
  hf.congr fun j _ => h j

theorem OrderAct.sameAddressing {p : Phase} {tag : Tag} {s t : State} (h : OrderAct p tag s t) : SameAddressing s t := by
  cases h with
  | standing h => exact .of_dir h.dir
  | @house i f hf =>
    intro j
    have hkeep : ∀ k : House, (f k).address = k.address ∧ (f k).route = k.route := fun k => by
      obtain ⟨m, margin, -, -, he⟩ := hf k
      rw [he]
      exact ⟨rfl, rfl⟩
    simp only [State.house, Dir.get_modify_eq, Option.map_map, Function.comp_def]
    constructor
    · congr 1
      funext k
      split
      · exact (hkeep k).1
      · rfl
    · congr 1
      funext k
      split
      · exact (hkeep k).2
      · rfl
  | complete => exact .of_dir (OutsideEnd.enterFinal s tag _).dir
  | _ => exact .of_dir rfl

theorem OrderActs.sameAddressing {p : Phase} {tag : Tag} {s t : State} (h : OrderActs p tag s t) : SameAddressing s t :=
  acts_induct (fun s => SameAddressing.of_dir (s := s) rfl) SameAddressing.trans OrderAct.sameAddressing h

theorem State.endSlot_sameAddressing (s : State) (p : Phase) {reply : Option LineReply} (hm : ∀ r ∈ reply, r.margin ≤ 63) :
    SameAddressing s (s.endSlot p reply) := by
  cases hon : (s.line p).onLine with
  | none =>
    have he : s.endSlot p reply = s := by simp only [State.endSlot, hon]
    rw [he]
    exact .of_dir rfl
  | some ol =>
    rw [State.endSlot_eq hon]
    refine SameAddressing.trans (t := s.settledSlot p ol reply) ?_ (.of_dir rfl)
    obtain ⟨tag, u, -, h, he⟩ | ⟨g, -, he⟩ := s.settledSlot_cases p ol hm <;> rw [he]
    · exact h.sameAddressing.trans (.of_dir (u.clearInFlight_outside tag p).dir)
    · exact .of_dir rfl

theorem LineAct.sameAddressing {p : Phase} {s t : State} (h : LineAct p s t) : SameAddressing s t := by
  cases h with
  | settle _ _ h => exact h.sameAddressing
  | beginSlot => exact .of_dir (s.beginSlot_dir p _)
  | endSlot _ hm => exact State.endSlot_sameAddressing (s.modLine p _) p hm
  | _ => exact .of_dir rfl

/-! ### Composed frames -/

theorem State.addressedContent_fields (s : State) (p : Phase) (k : Nat) (o : Order) (i n : Nat) :
    (s.addressedContent p k o i n).address = some (s.addressAt i) ∧ (s.addressedContent p k o i n).hops = s.hopsAt i := by
  unfold State.addressedContent
  cases o.body <;> exact ⟨rfl, rfl⟩

/-- A frame that is composed for an occupied entry agrees with the directory. -/
theorem State.buildFrame_agrees {s : State} {i : Nat} {h : House} (hg : s.dir.get i = some h) (p : Phase) (k : Nat) (w : Work)
    (step : Step) (o : Order) (n : Nat) (v : Option (BitVec 16)) :
    s.FrameAgrees (s.buildFrame p k w step (s.addressedContent p k o i n) (some i) (s.dir.routeOf i) v) := by
  obtain ⟨haddr, hhops⟩ := s.addressedContent_fields p k o i n
  intro j hj
  obtain rfl : i = j := by simpa [State.buildFrame] using hj
  have hroute : s.dir.routeOf i = h.route := by simp [Dir.routeOf, hg]
  refine ⟨?_, ?_, ?_⟩
  · show (s.house i).map (·.address) = (s.addressedContent p k o i n).address
    rw [haddr, State.addressAt_eq, State.house, hg]
    rfl
  · show (s.house i).map (·.route) = some (s.dir.routeOf i)
    rw [hroute, State.house, hg]
    rfl
  · exact hhops.symm

theorem State.FrameAgrees.of_no_target {s : State} {f : Frame} (h : f.target = none) : s.FrameAgrees f := fun i hi => by
  rw [h] at hi
  cases hi

theorem Composed.frameAgrees {s : State} {f : Frame} (h : Composed s f) (hd : s.orm.TagsDistinct) : s.FrameAgrees f := by
  obtain ⟨p, k, g, rfl⟩ | ⟨p, k, o, -, step, rfl, hfits⟩ := h
  · exact .of_no_target rfl
  · have hfit := hfits hd
    cases step with
    | repeatNo n => exact .of_no_target rfl
    | attempt i n =>
      obtain ⟨-, x, hx⟩ := hfit
      exact State.buildFrame_agrees hx p k (.order o.tag) (.attempt i n) o n none
    | query i n =>
      obtain ⟨-, x, hx⟩ := hfit
      exact State.buildFrame_agrees hx p k (.order o.tag) (.query i n) o n none
    | refresh => exact hfit.elim

/-- The frames in the buffers after an act were there before it, or are composed. -/
def FramesFrom (s t : State) : Prop := ∀ p, ∀ f ∈ (t.line p).frames, f ∈ (s.line p).frames ∨ Composed s f

theorem FramesFrom.of_lines {s t : State} (h : ∀ p, ∀ f ∈ (t.line p).frames, f ∈ (s.line p).frames) : FramesFrom s t :=
  fun p f hf => .inl (h p f hf)

theorem FramesFrom.of_same {s t : State} (h : t.lines = s.lines) : FramesFrom s t :=
  .of_lines fun p f hf => by rwa [State.line, h] at hf

theorem Line.mem_frames {l : Line} {f : Frame} : f ∈ l.frames ↔ (∃ ol, l.onLine = some ol ∧ ol.frame = f) ∨ l.staged = some f := by
  simp [Line.frames]

/-- A line controller whose frame on line and staged frame are each the one before or gone. -/
theorem Line.frames_subset {l k : Line} (hon : k.onLine = l.onLine ∨ k.onLine = none)
    (hst : k.staged = l.staged ∨ k.staged = none) : ∀ f ∈ k.frames, f ∈ l.frames := by
  intro f hf
  rw [Line.mem_frames] at hf ⊢
  obtain ⟨ol, ho, rfl⟩ | hs := hf
  · obtain he | he := hon
    · exact .inl ⟨ol, he ▸ ho, rfl⟩
    · rw [he] at ho
      cases ho
  · obtain he | he := hst
    · exact .inr (he ▸ hs)
    · rw [he] at hs
      cases hs

theorem Line.SameButStaged.frames_subset {l k : Line} (h : l.SameButStaged k) : ∀ f ∈ k.frames, f ∈ l.frames := by
  obtain rfl | rfl := h
  · exact fun f hf => hf
  · exact Line.frames_subset (.inl rfl) (.inr rfl)

theorem FramesFrom.modLine {s : State} {p : Phase} {g : Line → Line}
    (h : ∀ f ∈ (g (s.line p)).frames, f ∈ (s.line p).frames ∨ Composed s f) : FramesFrom s (s.modLine p g) := by
  intro q f hf
  by_cases hq : q = p
  · subst hq
    rw [State.line_modLine_same] at hf
    exact h f hf
  · rw [State.line_modLine_ne _ _ hq] at hf
    exact .inl hf

theorem Line.takeHold_frames (l : Line) : ∀ f ∈ l.takeHold.frames, f ∈ l.frames := by
  obtain ⟨-, -, hon, hst, -⟩ := l.takeHold_fields
  exact Line.frames_subset (.inl hon) (.inl hst)

theorem LineAct.framesFrom {p : Phase} {s t : State} (h : LineAct p s t) : FramesFrom s t := by
  have ho := h.outside
  intro q f hf
  by_cases hq : q = p
  · subst hq
    have hkept : ∀ {k : Line}, t.line q = k → (∀ f ∈ k.frames, f ∈ (s.line q).frames) → f ∈ (s.line q).frames ∨ Composed s f :=
      fun hk hsub => .inl (hsub f (hk ▸ hf))
    cases h with
    | pick | serve => exact .inl hf
    | settle _ _ h => exact hkept (h.outside.line q) fun _ h => h
    | @stage g hg =>
      rw [State.line_modLine_same, Line.mem_frames] at hf
      obtain hon | hst := hf
      · exact .inl (Line.mem_frames.mpr (.inl hon))
      · cases hst
        exact .inr hg
    | @beginSlot g hc hi hh hg hs =>
      rw [State.beginSlot_line, Line.mem_frames] at hf
      obtain ⟨ol, hol, rfl⟩ | hst := hf
      · cases hol
        exact hg.imp (fun h => Line.mem_frames.mpr (.inr h)) id
      · cases hst
    | @endSlot ol st tx reply hon hm =>
      have hon' : ((s.modLine q fun l => { l with stats := st l.stats, txEnable := tx && l.txEnable }).line q).onLine
          = some ol := by
        rw [State.line_modLine_same]
        exact hon
      refine hkept (State.line_modLine_same ..) fun f hf => ?_
      have := Line.takeHold_frames _ f hf
      rw [State.endSlot_line hon' hm, State.line_modLine_same] at this
      refine Line.frames_subset (l := s.line q) ?_ ?_ f this
      · exact .inr rfl
      · exact .inl rfl
    | hold => exact hkept (State.line_modLine_same ..) (Line.takeHold_frames _)
    | toQuiet _ _ _ hg => exact hkept ((State.line_modLine_same ..).trans hg) (Line.frames_subset (.inl rfl) (.inl rfl))
    | discard => exact hkept (State.line_modLine_same ..) (Line.frames_subset (.inl rfl) (.inr rfl))
    | toSend | stats | waiting => exact hkept (State.line_modLine_same ..) (Line.frames_subset (.inl rfl) (.inl rfl))
  · rw [ho.line q hq] at hf
    exact .inl hf

/-- What an act leaves of the frames in the buffers: no frame comes but composed ones, and agreement stands. -/
structure KeepsFrames (s t : State) : Prop where
  frames : FramesFrom s t
  agrees : s.dir.Sound → ∀ p, ∀ f ∈ (t.line p).frames, s.FrameAgrees f → t.FrameAgrees f

theorem KeepsFrames.of_addressing {s t : State} (hf : FramesFrom s t) (ha : SameAddressing s t) : KeepsFrames s t :=
  ⟨hf, fun _ _ _ _ h => ha.frameAgrees h⟩

theorem KeepsFrames.of_subset {s t : State} (h : ∀ p, ∀ f ∈ (t.line p).frames, f ∈ (s.line p).frames) (hd : t.dir = s.dir) :
    KeepsFrames s t :=
  .of_addressing (.of_lines h) (.of_dir hd)

/-- An edit of an entry that is not busy is not seen by the frames in the buffers (R36). -/
theorem KeepsFrames.of_not_busy {s : State} {d : Dir} {i : Nat} (hb : s.busy i = false)
    (hother : s.dir.Sound → ∀ j, j ≠ i → (d.get j).map (·.address) = (s.dir.get j).map (·.address)
      ∧ (d.get j).map (·.route) = (s.dir.get j).map (·.route)) : KeepsFrames s { s with dir := d } := by
  refine ⟨.of_same rfl, fun hd p f hf ha => ha.congr fun j hj => hother hd j ?_⟩
  rintro rfl
  have hbusy : BusyAt s j := ⟨p, f, hf, (f.names_iff j).mp hj⟩
  rw [← State.busy_iff, hb] at hbusy
  cases hbusy

theorem OwnerAct.keepsFrames {k : Stretch} {s t : State} (h : OwnerAct k s t) : KeepsFrames s t := by
  cases h with
  | check h => exact .of_subset (fun p => (h.outside.lines p).frames_subset) h.outside.dir
  | reset =>
    refine .of_addressing (.of_lines fun p f hf => ?_) fun j => ⟨rfl, rfl⟩
    have hline : (handleReset s).1.line p = (s.line p).reset := by simp [handleReset, State.line]
    rw [hline] at hf
    exact absurd hf (by simp [Line.frames, Line.reset])
  | enroll => exact .of_subset (fun p => (s.enroll_line _ p).frames_subset) (s.enroll_dir _)
  | put groups hi ha hb he hlen hr href =>
    refine .of_not_busy hb fun hd j hj => ?_
    rw [hd.get_edit_other ⟨hi, ha, he, hlen, hr, href⟩ hj, Option.map_map, Option.map_map]
    exact ⟨rfl, rfl⟩
  | remove hg hb href =>
    refine .of_not_busy hb fun hd j hj => ?_
    rw [hd.get_removal hg, if_neg hj, Option.map_map, Option.map_map]
    exact ⟨rfl, rfl⟩
  | freeze | thaw => exact .of_addressing (.of_same rfl) fun j => ⟨rfl, rfl⟩
  | pendHold | holdNow | resume | zeroStats =>
    exact .of_addressing (.modLine fun f hf => .inl (Line.frames_subset (.inl rfl) (.inl rfl) f hf)) (.of_dir rfl)
  | unstage =>
    refine .of_subset (fun p f hf => ?_) rfl
    rw [State.line_mapLines] at hf
    exact Line.frames_subset (l := s.line p) (k := (s.line p).discardStaged) (.inl rfl) (.inr rfl) f hf
  | _ => exact .of_addressing (.of_same rfl) (.of_dir rfl)

theorem Line.abort_frames (l : Line) : l.abort.frames = [] := rfl

theorem State.abortSlot_frames (s : State) (p q : Phase) : ∀ f ∈ ((s.abortSlot p).line q).frames, f ∈ (s.line q).frames := by
  intro f hf
  by_cases hq : q = p
  · subst hq
    rw [State.abortSlot_line, Line.abort_frames] at hf
    cases hf
  · rwa [State.abortSlot_line_ne s hq] at hf

theorem Line.lost_frames (l : Line) : ∀ f ∈ l.lost.frames, f ∈ l.frames := by
  unfold Line.lost
  dsimp only
  split
  · rw [Line.abort_frames]
    simp
  · exact Line.frames_subset (.inl rfl) (.inr rfl)

theorem Act.keepsFrames {k : Stretch} {s t : State} (h : Act k s t) : KeepsFrames s t := by
  have hreturn : ∀ (u : State) (p : Phase), u.lines = s.lines → u.dir = s.dir → KeepsFrames s (u.returnIfDue p) := by
    intro u p hu hd
    refine .of_subset (fun q f hf => ?_) ((u.returnIfDue_outsideMains p).dir.trans hd)
    have hline : ∀ r, u.line r = s.line r := fun r => by rw [State.line, hu]; rfl
    obtain ⟨he, -⟩ | ⟨-, he⟩ := u.returnIfDue_cases p <;> rw [he] at hf
    · rwa [hline] at hf
    · rw [State.returnPhase_line, hline, hline] at hf
      split at hf
      next hq => exact hq ▸ hf
      · exact hf
  cases h with
  | owner h => exact h.keepsFrames
  | line h => exact .of_addressing h.framesFrom h.sameAddressing
  | closingEnd tag => exact .of_addressing (.of_same (s.closingEnd_lines tag)) (.of_dir (s.closingEnd_outside tag).dir)
  | holdRecord rec =>
    obtain ⟨r, he⟩ := s.holdRecord_blocks rec
    rw [he]
    exact .of_addressing (.of_same rfl) (.of_dir rfl)
  | written equal =>
    refine .of_subset (fun p f hf => ?_) (s.completeWrite_blocks equal).1
    have hend : ∀ code, f ∈ ((endProgramming code equal s).1.line p).frames → f ∈ (s.line p).frames := fun code hf => by
      rw [endProgramming_eq] at hf
      split at hf
      · rwa [State.line_mapLines] at hf
      · exact hf
    obtain ⟨-, he⟩ | ⟨code, -, ⟨-, he⟩ | ⟨_, -, he⟩⟩ := s.completeWrite_cases equal <;> rw [he] at hf
    · exact hf
    · exact hend code hf
    · exact hend code hf
  | returning => exact hreturn _ _ rfl rfl
  | returned => exact hreturn _ _ rfl rfl
  | @lost p =>
    refine .of_subset (fun q f hf => ?_) (s.losePhase_outsideMains p).dir
    rw [State.losePhase_line] at hf
    split at hf
    next hq => exact hq ▸ Line.lost_frames _ f hf
    · exact hf
  | subcount =>
    refine .of_addressing (.of_same ?_) (.of_dir s.advanceSubcount_outsideMains.dir)
    unfold State.advanceSubcount
    dsimp only
    split <;> rfl
  | quietOff =>
    refine .of_subset (fun p f hf => ?_) s.releaseQuiet_outsideMains.dir
    obtain ⟨he, -⟩ | ⟨n, -, he⟩ := s.releaseQuiet_cases <;> rw [he] at hf
    · exact hf
    · rwa [State.line_post, State.line_mapLines] at hf
  | quietOn =>
    refine .of_subset (fun p f hf => ?_) (State.quietLines_outsideMains _).dir
    rw [State.quietLines_line] at hf
    split at hf
    · rw [Line.abort_frames] at hf
      cases hf
    · exact hf
  | _ => exact .of_addressing (.of_same rfl) (.of_dir rfl)

/-! ### Agreement and lengths over every step -/

/-- The directory, the tags and the agreement of the frames together. -/
def State.FramesTrue (s : State) : Prop := s.dir.Sound ∧ s.orm.TagsDistinct ∧ s.FramesAgree

theorem Act.framesTrue {k : Stretch} {s t : State} (h : Act k s t) (hs : s.FramesTrue) : t.FramesTrue := by
  obtain ⟨hd, htags, hagree⟩ := hs
  refine ⟨h.keepsDir.sound hd, h.tagsDistinct htags, eachPhase_iff.mpr fun p f hf => h.keepsFrames.agrees hd p f hf ?_⟩
  obtain hold | hnew := h.keepsFrames.frames p f hf
  · exact eachPhase_iff.mp hagree p f hold
  · exact hnew.frameAgrees htags

theorem State.powerOn_frames (s : State) (quiet touched : Bool) (p : Phase) : ((s.powerOn quiet touched).line p).frames = [] := by
  rw [State.powerOn_line]
  rfl

theorem State.powerOn_framesTrue (s : State) (quiet touched : Bool) : (s.powerOn quiet touched).FramesTrue := by
  refine ⟨Dir.empty_sound.1, List.nodup_nil, eachPhase_iff.mpr fun p f hf => ?_⟩
  rw [State.powerOn_frames] at hf
  cases hf

theorem State.step_framesTrue {s t : State} (h : step s = .next t) (hs : s.FramesTrue) : t.FramesTrue :=
  step_keeps (P := State.FramesTrue) State.powerOn_framesTrue (fun _ _ h => h) Act.framesTrue
    (fun hl hs => by cases hl <;> exact hs) h hs

/-- A broadcast frame built with the parameters in range has its lengths (Tables 3-1, 3-2). -/
theorem State.buildFrame_broadcast_sized {s : State} (hp : s.params.Sound) {c : Content} (hc : c.replyCarrier = none)
    (hhops : c.hops = [] ∧ c.hopCount = 0) (hsize : 12 ≤ c.size ∧ c.size ≤ 15) (p : Phase) (k : Nat) (w : Work) (step : Step)
    (v : Option (BitVec 16)) : (s.buildFrame p k w step c none [] v).Sized := by
  obtain ⟨hguard, -⟩ := hp
  obtain ⟨hnil, hzero⟩ := hhops
  refine ⟨hguard, ?_, ?_, ?_, rfl, rfl, ?_, ?_, ?_, ?_, ?_⟩
  · simp [State.buildFrame, hzero]
  · simp [State.buildFrame, hzero]
  · simp [State.buildFrame, hzero, hnil]
  · simp [State.buildFrame, hc]
  · simp [State.buildFrame, hc]
  · simp [State.buildFrame, hc, plannedLength]
  · simp only [State.buildFrame, hc, plannedLength, carrierOf]
    omega
  · simp only [State.buildFrame, hc, plannedLength, carrierOf]
    omega

theorem Content.hopCount_eq (c : Content) : c.hopCount = c.hops.length := by cases c <;> rfl

/-- The sizes and replies of the addressed frames (Tables 3-1, 3-3). -/
theorem State.addressedContent_sizes (s : State) (p : Phase) (k : Nat) (o : Order) (i n : Nat) :
    ∃ rr, (s.addressedContent p k o i n).replyCarrier = some rr
      ∧ ((rr = 5 ∧ 16 + 3 * (s.hopsAt i).length ≤ (s.addressedContent p k o i n).size
          ∧ (s.addressedContent p k o i n).size ≤ 18 + 3 * (s.hopsAt i).length)
        ∨ (rr = 7 ∧ (s.addressedContent p k o i n).size = 10 + 3 * (s.hopsAt i).length)) := by
  unfold State.addressedContent
  dsimp only
  cases o.body with
  | band => exact ⟨5, rfl, .inl ⟨rfl, le_rfl, by simp only [Content.size, Content.hopCount]; omega⟩⟩
  | relay => exact ⟨5, rfl, .inl ⟨rfl, by simp only [Content.size, Content.hopCount]; omega, le_rfl⟩⟩
  | query => exact ⟨7, rfl, .inr ⟨rfl, rfl⟩⟩

/-- An addressed frame built with the parameters in range has its lengths (Tables 3-1 to 3-3). -/
theorem State.buildFrame_addressed_sized {s : State} (hp : s.params.Sound) {i : Nat} (hroute : (s.dir.routeOf i).length ≤ 2)
    (p : Phase) (k : Nat) (w : Work) (step : Step) (o : Order) (n : Nat) (v : Option (BitVec 16)) :
    (s.buildFrame p k w step (s.addressedContent p k o i n) (some i) (s.dir.routeOf i) v).Sized := by
  obtain ⟨hguard, hmargin, -⟩ := hp
  obtain ⟨-, hhops⟩ := s.addressedContent_fields p k o i n
  obtain ⟨rr, hrr, hsizes⟩ := s.addressedContent_sizes p k o i n
  have hlen : (s.hopsAt i).length = (s.dir.routeOf i).length := by simp [State.hopsAt]
  have hcount : (s.addressedContent p k o i n).hopCount = (s.dir.routeOf i).length := by
    rw [Content.hopCount_eq, hhops, hlen]
  have hcases : (s.dir.routeOf i).length = 0 ∨ (s.dir.routeOf i).length = 1 ∨ (s.dir.routeOf i).length = 2 := by omega
  rw [hlen] at hsizes
  refine ⟨hguard, ?_, ?_, ?_, rfl, rfl, ?_, ?_, ?_, ?_, ?_⟩
  · simp only [State.buildFrame, hcount]
    exact hroute
  · simp only [State.buildFrame, hcount]
  · simp only [State.buildFrame, Content.hopCount_eq]
  · simp [State.buildFrame]
  · simp [State.buildFrame, hrr, hmargin]
  · simp only [State.buildFrame, hrr, hcount, plannedLength, Option.map_some, Option.getD_some]
    obtain h | h | h := hcases <;> rw [h] <;> omega
  · simp only [State.buildFrame, hrr, plannedLength, carrierOf]
    omega
  · simp only [State.buildFrame, hrr, hcount, plannedLength, carrierOf]
    obtain h | h | h := hcases <;> rw [h] at hsizes ⊢ <;> omega

theorem Dir.Sound.routeOf_length {d : Dir} (hd : d.Sound) (i : Nat) : (d.routeOf i).length ≤ 2 := by
  unfold Dir.routeOf
  split
  next h hg => exact (hd.route hg).1
  · exact Nat.zero_le _

theorem Composed.sized {s : State} {f : Frame} (h : Composed s f) (htags : s.orm.TagsDistinct) (hd : s.dir.Sound)
    (hp : s.params.Sound) : f.Sized := by
  obtain ⟨p, k, g, rfl⟩ | ⟨p, k, o, -, step, rfl, hfits⟩ := h
  · exact s.buildFrame_broadcast_sized hp (c := s.refreshContent g) rfl ⟨rfl, rfl⟩ ⟨show 12 ≤ 15 by decide, show 15 ≤ 15 by decide⟩ ..
  · have hfit := hfits htags
    cases step with
    | repeatNo n =>
      have hcontent : (s.repeatContent p k o).replyCarrier = none ∧ ((s.repeatContent p k o).hops = []
          ∧ (s.repeatContent p k o).hopCount = 0) ∧ (12 ≤ (s.repeatContent p k o).size ∧ (s.repeatContent p k o).size ≤ 15) := by
        unfold State.repeatContent
        cases hb : o.body with
        | band => exact ⟨rfl, ⟨rfl, rfl⟩, show 12 ≤ 12 by decide, show 12 ≤ 15 by decide⟩
        | relay => exact ⟨rfl, ⟨rfl, rfl⟩, show 12 ≤ 14 by decide, show 14 ≤ 15 by decide⟩
        | query => exact absurd (show o.body.group = none by rw [hb]; rfl) hfit
      obtain ⟨hreply, hhops, hsize⟩ := hcontent
      exact s.buildFrame_broadcast_sized hp hreply hhops hsize ..
    | attempt i n => exact s.buildFrame_addressed_sized hp (hd.routeOf_length i) ..
    | query i n => exact s.buildFrame_addressed_sized hp (hd.routeOf_length i) ..
    | refresh => exact hfit.elim

/-- With the parameters in range, the frames in the buffers have their lengths. -/
def State.LengthsTrue (s : State) : Prop := s.FramesTrue ∧ s.params.Sound ∧ s.FramesSized

theorem Act.lengthsTrue {k : Stretch} {s t : State} (h : Act k s t) (hs : s.LengthsTrue) : t.LengthsTrue := by
  obtain ⟨htrue, hp, hsized⟩ := hs
  obtain ⟨hd, htags, -⟩ := id htrue
  refine ⟨h.framesTrue htrue, h.params_sound hp, eachPhase_iff.mpr fun p f hf => ?_⟩
  obtain hold | hnew := h.keepsFrames.frames p f hf
  · exact eachPhase_iff.mp hsized p f hold
  · exact hnew.sized htags hd hp

theorem State.powerOn_lengthsTrue (s : State) (quiet touched : Bool) : (s.powerOn quiet touched).LengthsTrue := by
  refine ⟨s.powerOn_framesTrue quiet touched, show Params.default.Sound by decide, eachPhase_iff.mpr fun p f hf => ?_⟩
  rw [State.powerOn_frames] at hf
  cases hf

/-- Settles O57, by the acts of a step: a new frame is composed from the directory as it stands, and no edit touches an entry
that a frame in a buffer names. -/
theorem framesAgreeWithDirectory : Obligations.FramesAgreeWithDirectory := by
  intro s t hd ho ha h
  have htrue : s.FramesTrue := ⟨hd, ho.tags, ha⟩
  refine ⟨(State.step_framesTrue h htrue).2.2, fun hp hsized => ?_⟩
  obtain ⟨-, -, hsized'⟩ := step_keeps (P := State.LengthsTrue) State.powerOn_lengthsTrue (fun _ _ h => h) Act.lengthsTrue
    (fun hl hs => by cases hl <;> exact hs) h ⟨htrue, hp, hsized⟩
  exact hsized'

end Sys2Proof.Machine
end

section
/-! PROOF. What becomes of an order record: each change the machine makes to a record keeps it sound and its identity
(R1 to R6, R13 to R17, R76, R117). -/

namespace Sys2Proof.Machine

open Relation (ReflTransGen)

/-! ### What becomes of a record -/

/-- A record and what has become of it: the same order, that lives on at most, keeps its note, and stays sound. -/
structure Order.Follows (o x : Order) : Prop where
  tag : x.tag = o.tag
  body : x.body = o.body
  effective : x.effective = o.effective
  live : x.state.live = true → o.state.live = true
  reached : o.reached = true → x.reached = true
  sound : o.Sound → x.Sound

theorem Order.Follows.refl (o : Order) : o.Follows o := ⟨rfl, rfl, rfl, id, id, id⟩

theorem Order.Follows.trans {o x y : Order} (h : o.Follows x) (k : x.Follows y) : o.Follows y :=
  ⟨k.tag.trans h.tag, k.body.trans h.body, k.effective.trans h.effective, fun hl => h.live (k.live hl),
    fun hr => k.reached (h.reached hr), fun hs => k.sound (h.sound hs)⟩

/-- The record has taken service of no phase. -/
def Order.Quieter (o x : Order) : Prop := ∀ p, x.servesOn p = true → o.servesOn p = true

/-- Records against one another stand apart when what has become of them takes no service. -/
theorem Order.Apart.follows {x y x' y' : Order} (h : x.Apart y) (hx : x.Follows x' ∧ x.Quieter x')
    (hy : y.Follows y' ∧ y.Quieter y') : x'.Apart y' := by
  obtain ⟨htag, hkind, hserves⟩ := h
  obtain ⟨hx, hqx⟩ := hx
  obtain ⟨hy, hqy⟩ := hy
  refine ⟨by rw [hx.tag, hy.tag]; exact htag, fun ⟨hlx, hly, hk, hg, he⟩ => ?_, eachPhase_iff.mpr fun p ⟨hsx, hsy⟩ => ?_⟩
  · rw [hx.body, hy.body] at hk he
    rw [hx.body] at hg
    exact hkind ⟨hx.live hlx, hy.live hly, hk, hg, he⟩
  · exact eachPhase_iff.mp hserves p ⟨hqx p hsx, hqy p hsy⟩

/-! ### Soundness of a changed record -/

theorem Order.missTally_modProgress (o : Order) (p : Phase) (f : Progress → Progress) :
    (o.modProgress p f).missTally + (o.progress.get p).missTally = o.missTally + (f (o.progress.get p)).missTally := by
  cases p <;> simp only [Order.missTally, Order.modProgress, Tri.set, Tri.get] <;> omega

/-- A record with another progress is sound if its misses still add up and its stages fit its state. -/
theorem Order.Sound.withProgress {o : Order} (h : o.Sound) {pr : Tri Progress}
    (hm : ({ o with progress := pr } : Order).missTally = o.missTally)
    (hst : ∀ p, ({ o with progress := pr } : Order).StageSound p) : ({ o with progress := pr } : Order).Sound := by
  obtain ⟨htag, hprio, hrep, hretry, hretry', hclosing, hfin, hmiss, htally, hmark, hres, hreach, hnp, -⟩ := h
  exact ⟨htag, hprio, hrep, hretry, hretry', hclosing, hfin, hmiss, hm ▸ htally, hmark, hres, hreach, hnp,
    eachPhase_iff.mpr hst⟩

theorem Order.Sound.stage {o : Order} (h : o.Sound) (p : Phase) : o.StageSound p := by
  obtain ⟨-, -, -, -, -, -, -, -, -, -, -, -, -, hstages⟩ := h
  exact eachPhase_iff.mp hstages p

theorem Order.StageSound.congr {o x : Order} {p : Phase} (h : o.StageSound p) (hstate : x.state = o.state)
    (hstage : (x.progress.get p).stage = (o.progress.get p).stage) : x.StageSound p := by
  rwa [Order.StageSound, hstage, hstate]

/-- A change of one phase progress that keeps its stage and its misses. -/
theorem Order.Follows.modProgress {o : Order} {p : Phase} {f : Progress → Progress}
    (hst : (f (o.progress.get p)).stage = (o.progress.get p).stage)
    (hm : (f (o.progress.get p)).missTally = (o.progress.get p).missTally) :
    o.Follows (o.modProgress p f) ∧ o.Quieter (o.modProgress p f) := by
  have hstage : ∀ q, ((o.modProgress p f).progress.get q).stage = (o.progress.get q).stage := fun q => by
    by_cases hq : q = p
    · subst hq
      simp [Order.modProgress, hst]
    · simp [Order.modProgress, hq]
  refine ⟨⟨rfl, rfl, rfl, id, id, fun h => h.withProgress ?_ fun q => ?_⟩, fun q hq => ?_⟩
  · have := o.missTally_modProgress p f
    exact Nat.add_right_cancel (this.trans (by rw [hm]))
  · exact (h.stage q).congr rfl (hstage q)
  · simpa only [Order.servesOn, hstage] using hq

/-- A phase whose work is finished is DONE. -/
theorem Order.Follows.phaseDone {o : Order} {p : Phase}
    (h : (o.progress.get p).stage = .serving ∨ (o.progress.get p).stage = .paused) :
    o.Follows (o.modProgress p fun pp => { pp with stage := .done })
      ∧ o.Quieter (o.modProgress p fun pp => { pp with stage := .done }) := by
  refine ⟨⟨rfl, rfl, rfl, id, id, fun hs => hs.withProgress ?_ fun q => ?_⟩, fun q hq => ?_⟩
  · exact Nat.add_right_cancel (o.missTally_modProgress p fun pp => { pp with stage := .done })
  · by_cases hqp : q = p
    · subst hqp
      simp [Order.StageSound, Stage.active]
    · have := hs.stage q
      simpa [Order.StageSound, hqp] using this
  · by_cases hqp : q = p
    · subst hqp
      simp [Order.servesOn, Order.modProgress] at hq
    · simpa [Order.servesOn, Order.modProgress, hqp] using hq

theorem Progress.tally_miss (pp : Progress) (reason : MissReason) :
    (pp.tally (.miss reason)).missTally = pp.missTally + 1 ∧ (pp.tally (.miss reason)).stage = pp.stage
      ∧ (pp.tally (.miss reason)).inFlight = pp.inFlight := by
  cases reason <;> refine ⟨?_, rfl, rfl⟩ <;> simp only [Progress.tally, Progress.missTally] <;> omega

theorem Order.recordMiss_cases (o : Order) (m : Miss) :
    (o.misses.length < Config.missCapacity ∧ o.recordMiss m = { o with misses := o.misses ++ [m] })
      ∨ (Config.missCapacity ≤ o.misses.length ∧ o.recordMiss m = { o with unlisted := o.unlisted + 1 }) := by
  unfold Order.recordMiss
  by_cases h : o.misses.length < Config.missCapacity
  · exact .inl ⟨h, if_pos h⟩
  · exact .inr ⟨Nat.le_of_not_lt h, if_neg h⟩

/-- A miss is tallied, and listed or counted (R5). -/
theorem Order.Follows.missOn (o : Order) (p : Phase) (reason : MissReason) (m : Miss) :
    o.Follows (o.missOn p reason m) ∧ o.Quieter (o.missOn p reason m) := by
  obtain ⟨hone, hst, -⟩ := (o.progress.get p).tally_miss reason
  have hcount := o.missTally_modProgress p fun pp => pp.tally (.miss reason)
  have hstage : ∀ q, ((o.modProgress p fun pp => pp.tally (.miss reason)).progress.get q).stage
      = (o.progress.get q).stage := fun q => by
    by_cases hq : q = p
    · subst hq
      simp [Order.modProgress, hst]
    · simp [Order.modProgress, hq]
  have hmore : (o.modProgress p fun pp => pp.tally (.miss reason)).missTally = o.missTally + 1 := by omega
  have hquiet : ∀ q, (o.modProgress p fun pp => pp.tally (.miss reason)).servesOn q = true → o.servesOn q = true :=
    fun q hq => by simpa only [Order.servesOn, hstage] using hq
  obtain ⟨hroom, he⟩ | ⟨hfull, he⟩ := (o.modProgress p fun pp => pp.tally (.miss reason)).recordMiss_cases m <;>
    rw [Order.missOn, he]
  · refine ⟨⟨rfl, rfl, rfl, id, id, fun h => ?_⟩, hquiet⟩
    have hstages : ∀ q, (o.modProgress p fun pp => pp.tally (.miss reason)).StageSound q := fun q =>
      (h.stage q).congr rfl (hstage q)
    obtain ⟨htag, hprio, hrep, hretry, hretry', hclosing, hfin, -, htally, hmark, hres, hreach, hnp, -⟩ := h
    refine ⟨htag, hprio, hrep, hretry, hretry', hclosing, hfin, ?_, ?_, hmark, hres, hreach, hnp, eachPhase_iff.mpr hstages⟩
    · simpa using hroom
    · show ((o.misses ++ [m]).length + o.unlisted) = (o.modProgress p fun pp => pp.tally (.miss reason)).missTally
      rw [hmore, List.length_append, List.length_singleton]
      omega
  · refine ⟨⟨rfl, rfl, rfl, id, id, fun h => ?_⟩, hquiet⟩
    have hstages : ∀ q, (o.modProgress p fun pp => pp.tally (.miss reason)).StageSound q := fun q =>
      (h.stage q).congr rfl (hstage q)
    obtain ⟨htag, hprio, hrep, hretry, hretry', hclosing, hfin, hmiss, htally, hmark, hres, hreach, hnp, -⟩ := h
    refine ⟨htag, hprio, hrep, hretry, hretry', hclosing, hfin, hmiss, ?_, hmark, hres, hreach, hnp, eachPhase_iff.mpr hstages⟩
    show o.misses.length + (o.unlisted + 1) = (o.modProgress p fun pp => pp.tally (.miss reason)).missTally
    rw [hmore]
    omega

/-- A query's result is filled (R6). -/
theorem Order.Follows.fillResult {o : Order} (h : o.body.group = none) (r : LineReply) :
    o.Follows (o.fillResult r) ∧ o.Quieter (o.fillResult r) := by
  unfold Order.fillResult
  split
  · exact ⟨.refl o, fun _ h => h⟩
  · refine ⟨⟨rfl, rfl, rfl, id, id, fun hs => ?_⟩, fun _ h => h⟩
    obtain ⟨htag, hprio, hrep, hretry, hretry', hclosing, hfin, hmiss, htally, hmark, -, hreach, hnp, hst⟩ := hs
    exact ⟨htag, hprio, hrep, hretry, hretry', hclosing, hfin, hmiss, htally, hmark, fun _ => h, hreach, hnp, hst⟩

/-- A group record's mark is set (R117). -/
theorem Order.Follows.mark {o : Order} (h : o.body.group ≠ none) {m : Mark} (hm : m ≠ .pending) :
    o.Follows { o with mark := some m } ∧ o.Quieter { o with mark := some m } := by
  refine ⟨⟨rfl, rfl, rfl, id, id, fun hs => ?_⟩, fun _ h => h⟩
  obtain ⟨htag, hprio, hrep, hretry, hretry', hclosing, hfin, hmiss, htally, -, hres, hreach, -, hst⟩ := hs
  exact ⟨htag, hprio, hrep, hretry, hretry', hclosing, hfin, hmiss, htally, by simp [h], hres, hreach, fun _ => by simp [hm], hst⟩

/-- The record notes a time that the clock reads (R67). -/
theorem Order.Follows.noteTime (o : Order) (now : Nat) : o.Follows (o.noteTime now) ∧ o.Quieter (o.noteTime now) := by
  refine ⟨⟨rfl, rfl, rfl, id, fun h => o.noteTime_reached h now, fun hs => ?_⟩, fun _ h => h⟩
  obtain ⟨htag, hprio, hrep, hretry, hretry', hclosing, hfin, hmiss, htally, hmark, hres, hreach, hnp, hst⟩ := hs
  refine ⟨htag, hprio, hrep, hretry, hretry', hclosing, hfin, hmiss, htally, hmark, hres, fun hr => ?_, hnp, hst⟩
  simp only [Order.noteTime, Bool.or_eq_true, Bool.and_eq_true] at hr
  obtain hr | ⟨-, ht⟩ := hr
  · exact hreach hr
  · intro he
    have hnone : o.effective = none := he
    simp [timeReached, hnone] at ht

theorem Order.notActive_of_not_live {o : Order} (h : o.Sound) (hl : o.state.live = false) (p : Phase) :
    (o.progress.get p).stage.active = false := by
  by_contra ha
  exact absurd ((h.stage p).1 (by simpa using ha)) (by simp [hl])

theorem Stage.not_serving {st : Stage} (h : st.active = false) : st ≠ .serving ∧ st ≠ .paused ∧ st ≠ .queued := by
  cases st <;> simp_all [Stage.active]

/-- A record with no active stage enters a final state (R15 to R18). -/
theorem Order.Follows.entersFinal {o : Order} {st : OrderState} (hst : st.final = true)
    (hna : o.Sound → ∀ p, (o.progress.get p).stage.active = false)
    (hmark : o.Sound → st = .superseded ∨ st = .cancelled → o.mark ≠ some .pending) (now : Nat) :
    o.Follows { o with state := st, closing := none, finishedAt := some now }
      ∧ o.Quieter { o with state := st, closing := none, finishedAt := some now } := by
  obtain ⟨hw, hr, hc⟩ := (OrderState.final_iff st).mp hst
  have hnotLive : st.live = false := by
    rw [← Bool.not_eq_true, OrderState.live_iff]
    exact fun h => h.elim hw hr
  refine ⟨⟨rfl, rfl, rfl, fun h => absurd h (by simp [hnotLive]), id, fun hs => ?_⟩, fun _ h => h⟩
  have hactive := hna hs
  have hpending := hmark hs
  obtain ⟨htag, hprio, hrep, hretry, hretry', -, -, hmiss, htally, hmk, hres, hreach, -, -⟩ := hs
  refine ⟨htag, hprio, hrep, hretry, hretry', by simp [hc], by simp [hst], hmiss, htally, hmk, hres, hreach, ?_,
    eachPhase_iff.mpr fun p => ⟨fun h => ?_, fun h => ?_⟩⟩
  · rintro (h | h | h | h)
    · exact hpending (.inl h)
    · exact hpending (.inr h)
    · cases h
    · cases h
  · exact absurd h (by simp [hactive p])
  · obtain ⟨h1, h2, -⟩ := Stage.not_serving (hactive p)
    exact (h.elim h1 h2).elim

theorem Order.allDone_not_active {o : Order} (h : o.allDone = true) (p : Phase) : (o.progress.get p).stage.active = false := by
  have hall : ∀ q, (o.progress.get q).stage = .notInvolved ∨ (o.progress.get q).stage = .done := by
    simp only [Order.allDone, Tri.toList, List.all_cons, List.all_nil, Bool.and_true, Bool.and_eq_true, decide_eq_true_eq] at h
    obtain ⟨ha, hb, hc⟩ := h
    intro q
    cases q <;> assumption
  obtain h | h := hall p <;> rw [h] <;> rfl

/-- A RUNNING order whose involved phases are all DONE is COMPLETE or PARTIAL (R17). -/
theorem Order.Follows.completes {o : Order} {st : OrderState} (hd : o.allDone = true) (hst : st = .complete ∨ st = .partly)
    (now : Nat) :
    o.Follows { o with state := st, closing := none, finishedAt := some now }
      ∧ o.Quieter { o with state := st, closing := none, finishedAt := some now } := by
  refine Order.Follows.entersFinal ?_ (fun _ => Order.allDone_not_active hd) (fun _ h => ?_) now
  · obtain rfl | rfl := hst <;> rfl
  · obtain rfl | rfl := hst <;> simp at h

/-- A CLOSING order enters the state its closing reason names (R16). -/
theorem Order.Follows.closes {o : Order} {reason : Reason} (hs : o.state = .closing) (hc : o.closing = some reason) (now : Nat) :
    o.Follows { o with state := reason.final, closing := none, finishedAt := some now }
      ∧ o.Quieter { o with state := reason.final, closing := none, finishedAt := some now } := by
  refine Order.Follows.entersFinal (by cases reason <;> rfl) (fun h => Order.notActive_of_not_live h (by rw [hs]; rfl)) (fun h hf => ?_) now
  obtain ⟨-, -, -, -, -, -, -, -, -, -, -, -, hnp, -⟩ := h
  refine hnp ?_
  cases reason <;> simp [Reason.final] at hf <;> simp [hc]

theorem Progress.stop_fields (pp : Progress) :
    pp.stop.stage.active = false ∧ pp.stop.missTally = pp.missTally ∧ pp.stop.inFlight = pp.inFlight
      ∧ (pp.stop.stage = .serving → pp.stage = .serving) := by
  unfold Progress.stop
  split
  · exact ⟨rfl, rfl, rfl, nofun⟩
  next h => exact ⟨by simpa using h, rfl, rfl, id⟩

theorem endedMark_none (reason : Reason) (m : Option Mark) :
    (endedMark reason m = none ↔ m = none) ∧ (reason ≠ .expired → endedMark reason m ≠ some .pending) := by
  rw [endedMark_eq]
  split
  next h => exact ⟨by simp [h.2], by simp⟩
  next h => exact ⟨Iff.rfl, fun hr hm => h ⟨hr, hm⟩⟩

theorem Order.stopped_missTally (o : Order) (reason : Reason) : (o.stopped reason).missTally = o.missTally := by
  simp only [Order.missTally, Order.stopped, Tri.map, (Progress.stop_fields _).2.1]

theorem Order.stopped_stage (o : Order) (reason : Reason) (p : Phase) :
    (((o.stopped reason).progress.get p).stage).active = false
      ∧ ((o.stopped reason).servesOn p = true → o.servesOn p = true) := by
  obtain ⟨hactive, -, -, hserving⟩ := (o.progress.get p).stop_fields
  simp only [Order.stopped, Order.servesOn, Tri.get_map, decide_eq_true_eq]
  exact ⟨hactive, hserving⟩

/-- The end of a live order (R15). -/
theorem Order.Follows.ended {o : Order} (hl : o.state.live = true) (reason : Reason) (now : Nat) :
    o.Follows (endedOrder o reason now) ∧ o.Quieter (endedOrder o reason now) := by
  have hstage := o.stopped_stage reason
  obtain ⟨hmarkNone, hmarkPending⟩ := endedMark_none reason o.mark
  rw [endedOrder_eq]
  split
  · refine ⟨⟨rfl, rfl, rfl, fun _ => hl, id, fun hs => ?_⟩, fun p => (hstage p).2⟩
    have hnotFinal : o.state.final = false := (OrderState.final_eq_false_iff _).mpr
      (((OrderState.live_iff _).mp hl).imp id .inl)
    obtain ⟨htag, hprio, hrep, hretry, hretry', -, hfin, hmiss, htally, hmark, hres, hreach, -, -⟩ := hs
    refine ⟨htag, hprio, hrep, hretry, hretry', by simp, ?_, hmiss, htally.trans (o.stopped_missTally reason).symm,
      hmarkNone.trans hmark, hres, hreach, ?_, eachPhase_iff.mpr fun p => ⟨fun h => ?_, fun h => ?_⟩⟩
    · have hnone : o.finishedAt = none := by
        by_contra hne
        rw [hfin.mp hne] at hnotFinal
        cases hnotFinal
      show o.finishedAt ≠ none ↔ OrderState.final .closing = true
      simp [hnone, OrderState.final]
    · rintro (h | h | h | h)
      · cases h
      · cases h
      · exact hmarkPending (by cases h; simp)
      · exact hmarkPending (by cases h; simp)
    · exact absurd h (by simp [(hstage p).1])
    · obtain ⟨h1, h2, -⟩ := Stage.not_serving (hstage p).1
      exact (h.elim h1 h2).elim
  · refine ⟨⟨rfl, rfl, rfl, fun _ => hl, id, fun hs => ?_⟩, fun p => (hstage p).2⟩
    obtain ⟨htag, hprio, hrep, hretry, hretry', -, -, hmiss, htally, hmark, hres, hreach, -, -⟩ := hs
    refine ⟨htag, hprio, hrep, hretry, hretry', ?_, ?_, hmiss, htally.trans (o.stopped_missTally reason).symm,
      hmarkNone.trans hmark, hres, hreach, ?_, eachPhase_iff.mpr fun p => ⟨fun h => ?_, fun h => ?_⟩⟩
    · cases reason <;> simp [Reason.final]
    · cases reason <;> simp [Reason.final, OrderState.final]
    · intro h
      refine hmarkPending ?_
      rintro rfl
      simp [Reason.final] at h
    · exact absurd h (by simp [(hstage p).1])
    · obtain ⟨h1, h2, -⟩ := Stage.not_serving (hstage p).1
      exact (h.elim h1 h2).elim

/-! ### Service (R76) -/

theorem Order.serve_cases (o : Order) (d : Dir) (p : Phase) :
    ((o.progress.get p).stage = .queued
        ∧ o.serve d p = { o.modProgress p fun pp => { o.firstSelected d p pp with stage := .serving } with
            state := if o.state = .waiting then .running else o.state })
      ∨ ((o.progress.get p).stage = .paused ∧ o.serve d p = o.modProgress p fun pp => { pp with stage := .serving })
      ∨ o.serve d p = o := by
  unfold Order.serve
  split
  next h => exact .inl ⟨h, rfl⟩
  next h => exact .inr (.inl ⟨h, rfl⟩)
  · exact .inr (.inr rfl)

/-- The stages of a record that takes service of a phase. -/
theorem Order.serve_stage_ne (o : Order) (d : Dir) {p q : Phase} (hq : q ≠ p) :
    (o.serve d p).progress.get q = o.progress.get q := by
  obtain ⟨-, he⟩ | ⟨-, he⟩ | he := o.serve_cases d p <;> rw [he]
  · simp [Order.modProgress, hq]
  · simp [Order.modProgress, hq]

theorem Order.modProgress_missTally_eq {o : Order} {p : Phase} {f : Progress → Progress}
    (h : (f (o.progress.get p)).missTally = (o.progress.get p).missTally) : (o.modProgress p f).missTally = o.missTally :=
  Nat.add_right_cancel ((o.missTally_modProgress p f).trans (by rw [h]))

/-- A live order takes service of a phase (R14, R76). -/
theorem Order.Follows.serve {o : Order} (hl : o.state.live = true) (d : Dir) (p : Phase) : o.Follows (o.serve d p) := by
  obtain ⟨hq, he⟩ | ⟨hp, he⟩ | he := o.serve_cases d p <;> rw [he]
  · have hrunning : (if o.state = .waiting then .running else o.state) = OrderState.running := by
      obtain h | h := (OrderState.live_iff _).mp hl <;> simp [h]
    refine ⟨rfl, rfl, rfl, fun _ => hl, id, fun hs => ?_⟩
    have hstages := hs.stage
    have htallies : (o.modProgress p fun pp => { o.firstSelected d p pp with stage := .serving }).missTally = o.missTally :=
      Order.modProgress_missTally_eq (o.firstSelected_stage d p _).2
    obtain ⟨htag, hprio, hrep, hretry, hretry', hclosing, hfin, hmiss, htally, hmark, hres, hreach, hnp, -⟩ := hs
    have hc : o.closing = none := by
      by_contra hne
      rw [hclosing.mp hne] at hl
      cases hl
    have hf : o.finishedAt = none := by
      by_contra hne
      have := hfin.mp hne
      obtain h | h := (OrderState.live_iff _).mp hl <;> rw [h] at this <;> cases this
    simp only [hrunning]
    refine ⟨htag, hprio, hrep, hretry, hretry', by simp [Order.modProgress, hc],
      by simp [Order.modProgress, hf, OrderState.final], hmiss, htally.trans htallies.symm,
      hmark, hres, hreach, ?_, eachPhase_iff.mpr fun q => ⟨fun _ => rfl, fun _ => rfl⟩⟩
    simp [Order.modProgress, hc]
  · refine ⟨rfl, rfl, rfl, id, id, fun hs => hs.withProgress ?_ fun q => ?_⟩
    · exact Order.modProgress_missTally_eq (f := fun pp => { pp with stage := .serving }) rfl
    · have hrunning : o.state = .running := (hs.stage p).2 (.inr hp)
      exact ⟨fun _ => by rw [hrunning]; rfl, fun _ => hrunning⟩
  · exact .refl o

theorem Order.pauseOn_cases (o : Order) (p : Phase) :
    (o.servesOn p = true ∧ o.pauseOn p = o.modProgress p fun pp => { pp with stage := .paused })
      ∨ (o.servesOn p = false ∧ o.pauseOn p = o) := by
  unfold Order.pauseOn
  split
  next h => exact .inl ⟨h, rfl⟩
  next h => exact .inr ⟨by simpa using h, rfl⟩

/-- The order that served becomes PAUSED. -/
theorem Order.Follows.pauseOn (o : Order) (p : Phase) : o.Follows (o.pauseOn p) ∧ o.Quieter (o.pauseOn p) := by
  obtain ⟨hserves, he⟩ | ⟨-, he⟩ := o.pauseOn_cases p <;> rw [he]
  · have hserving : (o.progress.get p).stage = .serving := by simpa [Order.servesOn] using hserves
    refine ⟨⟨rfl, rfl, rfl, id, id, fun hs => hs.withProgress ?_ fun q => ?_⟩, fun q hq => ?_⟩
    · exact Order.modProgress_missTally_eq (f := fun pp => { pp with stage := .paused }) rfl
    · have hrunning : o.state = .running := (hs.stage p).2 (.inl hserving)
      exact ⟨fun _ => by rw [hrunning]; rfl, fun _ => hrunning⟩
    · by_cases hqp : q = p
      · subst hqp
        exact hserves
      · simpa [Order.servesOn, Order.modProgress, hqp] using hq
  · exact ⟨.refl o, fun _ h => h⟩

theorem Order.not_servesOn_pauseOn (o : Order) (p : Phase) : (o.pauseOn p).servesOn p = false := by
  obtain ⟨-, he⟩ | ⟨h, he⟩ := o.pauseOn_cases p <;> rw [he]
  · simp [Order.servesOn, Order.modProgress]
  · exact h

theorem Order.serve_servesOn_ne (o : Order) (d : Dir) {p q : Phase} (hq : q ≠ p) :
    (o.serve d p).servesOn q = o.servesOn q := by
  rw [Order.servesOn, Order.serve_stage_ne o d hq]
  rfl

end Sys2Proof.Machine
end

section
/-! PROOF. What becomes of the order table: the work on one order, the end of an order, and every act (O53; R1, R2, R5, R13,
R15 to R18, R67, R76). -/

namespace Sys2Proof.Machine

open Relation (ReflTransGen)

/-! ### Tables, record by record -/

/-- The table of `n` is that of `m` with what has become of each record, one for one. -/
def Orm.Becomes (G : Order → Order → Prop) (m n : Orm) : Prop :=
  ∃ f : Order → Order, n.table = m.table.map f ∧ ∀ o ∈ m.table, G o (f o)

theorem Orm.Becomes.trans {G H K : Order → Order → Prop} {m n u : Orm} (h : m.Becomes G n) (k : n.Becomes H u)
    (hk : ∀ {o x y}, G o x → H x y → K o y) : m.Becomes K u := by
  obtain ⟨f, hf, hG⟩ := h
  obtain ⟨g, hg, hH⟩ := k
  refine ⟨g ∘ f, by rw [hg, hf, List.map_map], fun o ho => hk (hG o ho) (hH (f o) ?_)⟩
  rw [hf]
  exact List.mem_map_of_mem ho

theorem Orm.Becomes.imp {G H : Order → Order → Prop} {m n : Orm} (h : m.Becomes G n)
    (k : ∀ {o x}, o ∈ m.table → G o x → H o x) : m.Becomes H n := by
  obtain ⟨f, hf, hG⟩ := h
  exact ⟨f, hf, fun o ho => k ho (hG o ho)⟩

theorem Orm.Becomes.same {G : Order → Order → Prop} {m n : Orm} (h : n.table = m.table) (hG : ∀ o ∈ m.table, G o o) :
    m.Becomes G n :=
  ⟨id, by rw [h, List.map_id], hG⟩

theorem Orm.Becomes.exists_new {G : Order → Order → Prop} {m n : Orm} (h : m.Becomes G n) {o : Order} (ho : o ∈ m.table) :
    ∃ x ∈ n.table, G o x := by
  obtain ⟨f, hf, hG⟩ := h
  exact ⟨f o, hf ▸ List.mem_map_of_mem ho, hG o ho⟩

theorem Orm.Becomes.exists_old {G : Order → Order → Prop} {m n : Orm} (h : m.Becomes G n) {x : Order} (hx : x ∈ n.table) :
    ∃ o ∈ m.table, G o x := by
  obtain ⟨f, hf, hG⟩ := h
  rw [hf] at hx
  obtain ⟨o, ho, rfl⟩ := List.mem_map.mp hx
  exact ⟨o, ho, hG o ho⟩

/-- The records are sound, each and against one another. -/
structure Orm.WellKept (m : Orm) : Prop where
  sound : m.Sound
  distinct : m.Distinct

/-- The table stays well kept where each record follows and takes no service. -/
theorem Orm.WellKept.becomes {m n : Orm} (h : m.WellKept) (hb : m.Becomes (fun o x => o.Follows x ∧ o.Quieter x) n)
    (htags : n.tagCounter = m.tagCounter) (hfloor : n.floor = m.floor) : n.WellKept := by
  obtain ⟨f, hf, hG⟩ := hb
  obtain ⟨⟨hlen, hcounter, hfl, hall⟩, hd⟩ := h
  refine ⟨⟨by rw [hf, List.length_map]; exact hlen, htags ▸ hcounter, hfloor ▸ hfl, fun x hx => ?_⟩, ?_⟩
  · rw [hf] at hx
    obtain ⟨o, ho, rfl⟩ := List.mem_map.mp hx
    exact (hG o ho).1.sound (hall o ho)
  · rw [Orm.Distinct, hf]
    exact List.pairwise_map.mpr (hd.imp_of_mem fun hx hy hxy => hxy.follows (hG _ hx) (hG _ hy))

theorem State.modOrder_becomes {G : Order → Order → Prop} {s : State} {tag : Tag} {g : Order → Order}
    (hg : ∀ o ∈ s.orm.table, o.tag = tag → G o (g o)) (hother : ∀ o ∈ s.orm.table, o.tag ≠ tag → G o o) :
    s.orm.Becomes G (s.modOrder tag g).orm :=
  ⟨_, rfl, fun o ho => by
    split
    next h => exact hg o ho h
    next h => exact hother o ho h⟩

theorem Order.Quieter.refl (o : Order) : o.Quieter o := fun _ h => h

/-- A change of the records of one tag keeps the table well kept if each follows and takes no service. -/
theorem State.modOrder_wellKept {s : State} {tag : Tag} {g : Order → Order} (hs : s.orm.WellKept)
    (hg : ∀ o ∈ s.orm.table, o.tag = tag → o.Follows (g o) ∧ o.Quieter (g o)) : (s.modOrder tag g).orm.WellKept :=
  hs.becomes (State.modOrder_becomes hg fun o _ _ => ⟨.refl o, .refl o⟩) rfl rfl

/-! ### The work on one order -/

/-- The order has no work on the phase, or none left. -/
def Order.RestsOn (o : Order) (p : Phase) : Prop :=
  (o.progress.get p).stage = .done ∨ (o.progress.get p).stage = .notInvolved

/-- What work on the order `tag` on phase `p` makes of a record: it follows; elsewhere its progress stands, and its slots in
flight do; it ends only as the order worked on with no work left elsewhere; and a final record of another tag keeps all but its
mark. -/
structure Order.Worked (p : Phase) (tag : Tag) (o x : Order) : Prop where
  follows : o.Follows x
  elsewhere : ∀ q, q ≠ p → x.progress.get q = o.progress.get q
  inFlight : (x.progress.get p).inFlight = (o.progress.get p).inFlight
  rests : o.tag ≠ tag → (x.RestsOn p ↔ o.RestsOn p)
  ends : x.state.final = true → o.state.final = true ∨ (o.tag = tag ∧ ∀ q, q ≠ p → o.RestsOn q)
  stands : o.Sound → o.tag ≠ tag → o.state.final = true → unmarked x = unmarked o

theorem Order.Worked.refl (p : Phase) (tag : Tag) (o : Order) : o.Worked p tag o :=
  ⟨.refl o, fun _ _ => rfl, rfl, fun _ => Iff.rfl, .inl, fun _ _ _ => rfl⟩

theorem final_of_unmarked {o x : Order} (h : unmarked x = unmarked o) : x.state.final = o.state.final :=
  congrArg (fun u : Order => u.state.final) (a₁ := unmarked x) (a₂ := unmarked o) h

theorem Order.Worked.trans {p : Phase} {tag : Tag} {o x y : Order} (h : o.Worked p tag x) (k : x.Worked p tag y) :
    o.Worked p tag y where
  follows := h.follows.trans k.follows
  elsewhere q hq := (k.elsewhere q hq).trans (h.elsewhere q hq)
  inFlight := k.inFlight.trans h.inFlight
  rests ht := (k.rests (by rwa [h.follows.tag])).trans (h.rests ht)
  ends hy := by
    obtain hx | ⟨ht, hrest⟩ := k.ends hy
    · exact h.ends hx
    · refine .inr ⟨h.follows.tag ▸ ht, fun q hq => ?_⟩
      rw [Order.RestsOn, ← h.elsewhere q hq]
      exact hrest q hq
  stands hs ht hf := by
    have hx := h.stands hs ht hf
    rw [k.stands (h.follows.sound hs) (by rwa [h.follows.tag]) (by rwa [final_of_unmarked hx]), hx]

/-- The order that is worked on. -/
theorem Order.Worked.mine {p : Phase} {tag : Tag} {o x : Order} (ht : o.tag = tag) (hf : o.Follows x)
    (helse : ∀ q, q ≠ p → x.progress.get q = o.progress.get q)
    (hin : (x.progress.get p).inFlight = (o.progress.get p).inFlight)
    (hends : x.state.final = true → o.state.final = true ∨ ∀ q, q ≠ p → o.RestsOn q) : o.Worked p tag x :=
  ⟨hf, helse, hin, fun h => absurd ht h, fun hx => (hends hx).imp_right fun h => ⟨ht, h⟩, fun _ h => absurd ht h⟩

/-- A record of which the mark alone changes. -/
theorem Order.Worked.of_mark {o x : Order} (hf : o.Follows x) (hx : unmarked x = unmarked o) (p : Phase) (tag : Tag) :
    o.Worked p tag x := by
  have hpr : x.progress = o.progress := congrArg (fun u : Order => u.progress) (a₁ := unmarked x) (a₂ := unmarked o) hx
  refine ⟨hf, fun q _ => by rw [hpr], by rw [hpr], fun _ => by rw [Order.RestsOn, hpr]; rfl, fun h => .inl ?_, fun _ _ _ => hx⟩
  rwa [← final_of_unmarked hx]

/-- The order that served becomes PAUSED, and a final one does not serve. -/
theorem Order.Worked.pauseOn (o : Order) (p : Phase) (tag : Tag) : o.Worked p tag (o.pauseOn p) := by
  obtain ⟨hfollows, -⟩ := Order.Follows.pauseOn o p
  obtain ⟨hserves, he⟩ | ⟨-, he⟩ := o.pauseOn_cases p
  · rw [he] at hfollows ⊢
    have hserving : (o.progress.get p).stage = .serving := by simpa [Order.servesOn] using hserves
    refine ⟨hfollows, fun q hq => by simp [Order.modProgress, hq], by simp [Order.modProgress], fun _ => ?_, .inl,
      fun hs _ hf => ?_⟩
    · simp [Order.RestsOn, Order.modProgress, hserving]
    · rw [(hs.stage p).2 (.inl hserving)] at hf
      cases hf
  · rw [he]
    exact .refl p tag o

theorem Order.serve_inFlight (o : Order) (d : Dir) (p : Phase) :
    ((o.serve d p).progress.get p).inFlight = (o.progress.get p).inFlight := by
  obtain ⟨-, he⟩ | ⟨-, he⟩ | he := o.serve_cases d p <;> rw [he]
  · simp [Order.modProgress]
  · simp [Order.modProgress]

theorem Order.Worked.serve {o : Order} (hl : o.state.live = true) (d : Dir) (p : Phase) :
    o.Worked p o.tag (o.serve d p) :=
  .mine rfl (.serve hl d p) (fun _ hq => o.serve_stage_ne d hq) (o.serve_inFlight d p) fun hf => by
    obtain ⟨-, he⟩ | ⟨-, he⟩ | he := o.serve_cases d p <;> rw [he] at hf
    · obtain h | h := (OrderState.live_iff _).mp hl <;> simp [h, OrderState.final] at hf
    · exact .inl hf
    · exact .inl hf

/-- A RUNNING or WAITING order takes service: no other serves the phase from then on (R76). -/
theorem State.takeService_worked {s : State} {o : Order} (hs : s.orm.WellKept) (ho : o ∈ s.orm.table)
    (hl : o.state.live = true) (p : Phase) :
    (s.takeService p o.tag).orm.WellKept ∧ s.orm.Becomes (Order.Worked p o.tag) (s.takeService p o.tag).orm := by
  have hworked : ∀ x ∈ s.orm.table, x.Worked p o.tag (x.passService s.dir p o.tag) := fun x hx => by
    unfold Order.passService
    split
    next ht =>
      obtain rfl := hs.distinct.eq_of_tag hx ho ht
      exact .serve hl s.dir p
    · exact .pauseOn x p o.tag
  have hserves : ∀ (x : Order) (q : Phase), (x.passService s.dir p o.tag).servesOn q = true →
      (q = p ∧ x.tag = o.tag) ∨ (q ≠ p ∧ x.servesOn q = true) := fun x q hq => by
    by_cases hqp : q = p
    · subst hqp
      refine .inl ⟨rfl, Classical.byContradiction fun ht => ?_⟩
      rw [Order.passService, if_neg ht, Order.not_servesOn_pauseOn] at hq
      cases hq
    · refine .inr ⟨hqp, ?_⟩
      unfold Order.passService at hq
      split at hq
      · rwa [Order.serve_servesOn_ne _ _ hqp] at hq
      · exact (Order.Follows.pauseOn x p).2 q hq
  obtain ⟨⟨hlen, hcounter, hfl, hall⟩, hd⟩ := hs
  refine ⟨⟨⟨?_, hcounter, hfl, fun x hx => ?_⟩, ?_⟩, _, s.takeService_table p o.tag, hworked⟩
  · rw [s.takeService_table, List.length_map]
    exact hlen
  · rw [s.takeService_table] at hx
    obtain ⟨y, hy, rfl⟩ := List.mem_map.mp hx
    exact (hworked y hy).follows.sound (hall y hy)
  · rw [Orm.Distinct, s.takeService_table]
    refine List.pairwise_map.mpr (hd.imp_of_mem fun {x y} hx hy hxy => ?_)
    have hfx := (hworked x hx).follows
    have hfy := (hworked y hy).follows
    obtain ⟨htag, hkind, hboth⟩ := hxy
    refine ⟨by rw [hfx.tag, hfy.tag]; exact htag, fun ⟨hlx, hly, hk, hg, he⟩ => ?_, eachPhase_iff.mpr fun q ⟨hsx, hsy⟩ => ?_⟩
    · rw [hfx.body, hfy.body] at hk he
      rw [hfx.body] at hg
      exact hkind ⟨hfx.live hlx, hfy.live hly, hk, hg, he⟩
    · obtain ⟨hq, htx⟩ | ⟨hq, hsx⟩ := hserves x q hsx
      · obtain ⟨-, hty⟩ | ⟨hq', -⟩ := hserves y q hsy
        · exact htag (htx.trans hty.symm)
        · exact hq' hq
      · obtain ⟨hq', -⟩ | ⟨-, hsy⟩ := hserves y q hsy
        · exact hq hq'
        · exact eachPhase_iff.mp hboth q ⟨hsx, hsy⟩

/-- A change of the records of one tag, each worked on. -/
theorem State.modOrder_worked {s : State} {tag : Tag} {p : Phase} {g : Order → Order} (hs : s.orm.WellKept)
    (hg : ∀ o ∈ s.orm.table, o.tag = tag → (o.Follows (g o) ∧ o.Quieter (g o)) ∧ o.Worked p tag (g o)) :
    (s.modOrder tag g).orm.WellKept ∧ s.orm.Becomes (Order.Worked p tag) (s.modOrder tag g).orm :=
  ⟨State.modOrder_wellKept hs fun o ho ht => (hg o ho ht).1,
    State.modOrder_becomes (fun o ho ht => (hg o ho ht).2) fun o _ _ => .refl p tag o⟩

theorem Order.missOn_progress (o : Order) (p q : Phase) (reason : MissReason) (m : Miss) :
    (o.missOn p reason m).progress.get q
      = if q = p then (o.progress.get p).tally (.miss reason) else o.progress.get q := by
  have hsame : (o.missOn p reason m).progress = (o.modProgress p fun pp => pp.tally (.miss reason)).progress := by
    obtain ⟨-, he⟩ | ⟨-, he⟩ := (o.modProgress p fun pp => pp.tally (.miss reason)).recordMiss_cases m <;>
      rw [Order.missOn, he]
  rw [hsame]
  split
  next h => subst h; simp [Order.modProgress]
  next h => simp [Order.modProgress, h]

theorem Order.missOn_state (o : Order) (p : Phase) (reason : MissReason) (m : Miss) :
    (o.missOn p reason m).state = o.state := by
  obtain ⟨-, he⟩ | ⟨-, he⟩ := (o.modProgress p fun pp => pp.tally (.miss reason)).recordMiss_cases m <;>
    rw [Order.missOn, he] <;> rfl

theorem Order.allDone_rests {o : Order} (h : o.allDone = true) (p : Phase) : o.RestsOn p := by
  simp only [Order.allDone, Tri.toList, List.all_cons, List.all_nil, Bool.and_true, Bool.and_eq_true, decide_eq_true_eq] at h
  obtain ⟨ha, hb, hc⟩ := h
  cases p
  · exact ha.symm
  · exact hb.symm
  · exact hc.symm

theorem StandingAct.worked {s t : State} (h : StandingAct s t) (hs : s.orm.WellKept) (p : Phase) (tag : Tag) :
    t.orm.WellKept ∧ s.orm.Becomes (Order.Worked p tag) t.orm := by
  have hsame : s.orm.Becomes (Order.Worked p tag) s.orm := .same rfl fun o _ => .refl p tag o
  cases h with
  | post | standing => exact ⟨hs, hsame⟩
  | @mark tag' o m ho hb hm =>
    have hmark : ∀ x ∈ s.orm.table, x.tag = tag' → x.Follows { x with mark := some m } ∧ x.Quieter { x with mark := some m } :=
      fun x hx hxt => by
        rw [State.findOrder_unique ho hs.distinct hx hxt]
        exact Order.Follows.mark hb hm
    exact ⟨State.modOrder_wellKept hs hmark,
      State.modOrder_becomes (fun x hx hxt => .of_mark (hmark x hx hxt).1 rfl p tag) fun x _ _ => .refl p tag x⟩

theorem OrderAct.worked {p : Phase} {tag : Tag} {s t : State} (h : OrderAct p tag s t) (hs : s.orm.WellKept) :
    t.orm.WellKept ∧ s.orm.Becomes (Order.Worked p tag) t.orm := by
  cases h with
  | standing h => exact h.worked hs p tag
  | serve ho ht hl => exact ht ▸ State.takeService_worked hs ho hl p
  | @progress f hf =>
    refine State.modOrder_worked hs fun o ho ht => ?_
    obtain ⟨hstage, hin, hmiss⟩ := hf hs.distinct o ho ht
    have hfollows := Order.Follows.modProgress (o := o) hstage hmiss
    refine ⟨hfollows, .mine ht hfollows.1 (fun q hq => ?_) ?_ .inl⟩
    · simp [Order.modProgress, hq]
    · simpa [Order.modProgress] using hin
  | miss reason m =>
    refine State.modOrder_worked hs fun o _ ht => ?_
    have hfollows := Order.Follows.missOn o p reason m
    refine ⟨hfollows, .mine ht hfollows.1 (fun q hq => ?_) ?_ fun hf => .inl ?_⟩
    · rw [Order.missOn_progress, if_neg hq]
    · rw [Order.missOn_progress, if_pos rfl, (Progress.tally_miss _ _).2.2]
    · rwa [Order.missOn_state] at hf
  | filled r hq =>
    refine State.modOrder_worked hs fun o ho ht => ?_
    have hfollows := Order.Follows.fillResult (hq hs.distinct o ho ht) r
    have hfill : (o.fillResult r).progress = o.progress ∧ (o.fillResult r).state = o.state := by
      unfold Order.fillResult
      split <;> exact ⟨rfl, rfl⟩
    obtain ⟨hpr, hst⟩ := hfill
    exact ⟨hfollows, .mine ht hfollows.1 (fun q _ => by rw [hpr]) (by rw [hpr]) fun hf => .inl (by rwa [hst] at hf)⟩
  | done hst =>
    refine State.modOrder_worked hs fun o ho ht => ?_
    have hfollows := Order.Follows.phaseDone (hst hs.distinct o ho ht)
    refine ⟨hfollows, .mine ht hfollows.1 (fun q hq => ?_) ?_ .inl⟩
    · simp [Order.modProgress, hq]
    · simp [Order.modProgress]
  | @complete o st ho hr hd hst =>
    refine State.modOrder_worked hs fun x hx ht => ?_
    obtain rfl := State.findOrder_unique ho hs.distinct hx ht
    have hfollows := Order.Follows.completes hd hst s.now
    exact ⟨hfollows, .mine ht hfollows.1 (fun _ _ => rfl) rfl fun _ => .inr fun q _ => Order.allDone_rests hd q⟩
  | house => exact ⟨hs, .same rfl fun o _ => .refl p tag o⟩

theorem OrderActs.worked {p : Phase} {tag : Tag} {s t : State} (h : OrderActs p tag s t) (hs : s.orm.WellKept) :
    t.orm.WellKept ∧ s.orm.Becomes (Order.Worked p tag) t.orm :=
  acts_induct (R := fun s t => s.orm.WellKept → t.orm.WellKept ∧ s.orm.Becomes (Order.Worked p tag) t.orm)
    (fun _ hs => ⟨hs, .same rfl fun o _ => .refl p tag o⟩)
    (fun h k hs => by
      obtain ⟨ht, hst⟩ := h hs
      obtain ⟨hu, htu⟩ := k ht
      exact ⟨hu, hst.trans htu Order.Worked.trans⟩)
    (fun h hs => h.worked hs) h hs

end Sys2Proof.Machine
end

section
/-! PROOF. The order table stays well kept over every act (O53; R7, R11 to R18, R67, R84). -/

namespace Sys2Proof.Machine

open Relation (ReflTransGen)

/-! ### Changes of a record beside its work -/

/-- What the checks, the end of an order and the end of CLOSING make of a record: it follows, its slots in flight and the
phases with work left stand, it ends only with no slot in flight, and a final record keeps all but its mark. -/
structure Order.Kept (o x : Order) : Prop where
  follows : o.Follows x
  quieter : o.Quieter x
  inFlight : ∀ q, (x.progress.get q).inFlight = (o.progress.get q).inFlight
  rests : ∀ q, x.RestsOn q ↔ o.RestsOn q
  ends : x.state.final = true → o.state.final = true ∨ ∀ q, (o.progress.get q).inFlight = false
  stands : o.Sound → o.state.final = true → unmarked x = unmarked o

theorem Order.Kept.refl (o : Order) : o.Kept o := ⟨.refl o, .refl o, fun _ => rfl, fun _ => Iff.rfl, .inl, fun _ _ => rfl⟩

theorem Order.Kept.trans {o x y : Order} (h : o.Kept x) (k : x.Kept y) : o.Kept y where
  follows := h.follows.trans k.follows
  quieter q hq := h.quieter q (k.quieter q hq)
  inFlight q := (k.inFlight q).trans (h.inFlight q)
  rests q := (k.rests q).trans (h.rests q)
  ends hy := by
    obtain hx | hno := k.ends hy
    · exact h.ends hx
    · exact .inr fun q => (h.inFlight q).symm.trans (hno q)
  stands hs hf := by
    have hx := h.stands hs hf
    rw [k.stands (h.follows.sound hs) (by rwa [final_of_unmarked hx]), hx]

/-- A record that the changes leave but for its mark. -/
theorem Order.Kept.of_mark {o x : Order} (hf : o.Follows x) (hq : o.Quieter x) (hx : unmarked x = unmarked o) : o.Kept x := by
  have hpr : x.progress = o.progress := congrArg (fun u : Order => u.progress) (a₁ := unmarked x) (a₂ := unmarked o) hx
  refine ⟨hf, hq, fun q => by rw [hpr], fun q => by rw [Order.RestsOn, hpr]; rfl, fun h => .inl ?_, fun _ _ => hx⟩
  rwa [← final_of_unmarked hx]

theorem Order.anyInFlight_eq_false (o : Order) : o.anyInFlight = false ↔ ∀ q, (o.progress.get q).inFlight = false := by
  rw [Order.anyInFlight_eq]
  simp only [Bool.or_eq_false_iff]
  exact ⟨fun ⟨⟨ha, hb⟩, hc⟩ q => by cases q <;> assumption, fun h => ⟨⟨h .a, h .b⟩, h .c⟩⟩

theorem Progress.stop_rests (pp : Progress) :
    (pp.stop.stage = .done ∨ pp.stop.stage = .notInvolved) ↔ (pp.stage = .done ∨ pp.stage = .notInvolved) := by
  unfold Progress.stop
  split
  next h => cases hs : pp.stage <;> simp [hs, Stage.active] at h ⊢
  · rfl

theorem OrderState.live_not_final {st : OrderState} (h : st.live = true) : st.final = false := by
  cases st <;> simp_all [OrderState.live, OrderState.final]

theorem Order.ended_progress (o : Order) (reason : Reason) (now : Nat) (q : Phase) :
    (endedOrder o reason now).progress.get q = (o.progress.get q).stop := by
  rw [endedOrder_eq]
  split <;> exact Tri.get_map _ _ _

theorem Order.Kept.ended {o : Order} (hl : o.state.live = true) (reason : Reason) (now : Nat) :
    o.Kept (endedOrder o reason now) := by
  obtain ⟨hfollows, hquieter⟩ := Order.Follows.ended hl reason now
  refine ⟨hfollows, hquieter, fun q => ?_, fun q => ?_, fun hf => .inr ?_, fun _ hf => ?_⟩
  · rw [Order.ended_progress, (Progress.stop_fields _).2.2.1]
  · rw [Order.RestsOn, Order.ended_progress]
    exact Progress.stop_rests _
  · refine (Order.anyInFlight_eq_false o).mp (Bool.eq_false_iff.mpr fun hany => ?_)
    rw [endedOrder_state, if_pos hany] at hf
    cases hf
  · rw [OrderState.live_not_final hl] at hf
    cases hf

theorem Order.Kept.closes {o : Order} {reason : Reason} (hs : o.state = .closing) (hc : o.closing = some reason)
    (hno : o.anyInFlight = false) (now : Nat) :
    o.Kept { o with state := reason.final, closing := none, finishedAt := some now } := by
  obtain ⟨hfollows, hquieter⟩ := Order.Follows.closes hs hc now
  refine ⟨hfollows, hquieter, fun _ => rfl, fun _ => Iff.rfl, fun _ => .inr ((Order.anyInFlight_eq_false o).mp hno), fun _ hf => ?_⟩
  rw [hs] at hf
  cases hf

theorem Order.Kept.noteTime (o : Order) (now : Nat) : o.Kept (o.noteTime now) := by
  obtain ⟨hfollows, hquieter⟩ := Order.Follows.noteTime o now
  refine ⟨hfollows, hquieter, fun _ => rfl, fun _ => Iff.rfl, .inl, fun _ hf => ?_⟩
  have hl : o.state.live = false := by
    rw [Bool.eq_false_iff]
    exact fun hl => by rw [OrderState.live_not_final hl] at hf; cases hf
  simp only [unmarked, Order.noteTime, hl, Bool.false_and, Bool.or_false]

/-! ### Tables -/

/-- A well kept table stays so, and its records become what `G` says, one for one. -/
def KeepsTable (G : Order → Order → Prop) (s t : State) : Prop :=
  s.orm.WellKept → t.orm.WellKept ∧ s.orm.Becomes G t.orm

theorem KeepsTable.trans {G : Order → Order → Prop} (hG : ∀ {o x y}, G o x → G x y → G o y) {s t u : State}
    (h : KeepsTable G s t) (k : KeepsTable G t u) : KeepsTable G s u := fun hs => by
  obtain ⟨ht, hst⟩ := h hs
  obtain ⟨hu, htu⟩ := k ht
  exact ⟨hu, hst.trans htu hG⟩

theorem KeepsTable.imp {G H : Order → Order → Prop} {s t : State} (h : KeepsTable G s t) (k : ∀ {o x}, G o x → H o x) :
    KeepsTable H s t := fun hs => ⟨(h hs).1, (h hs).2.imp fun _ => k⟩

theorem KeepsTable.of_orm {G : Order → Order → Prop} (hG : ∀ o, G o o) {s t : State} (h : t.orm = s.orm) : KeepsTable G s t :=
  fun hs => ⟨h ▸ hs, .same (by rw [h]) fun o _ => hG o⟩

abbrev KeepsRecords : State → State → Prop := KeepsTable Order.Kept

theorem KeepsRecords.modOrder {s : State} {tag : Tag} {g : Order → Order}
    (hg : s.orm.Distinct → ∀ o ∈ s.orm.table, o.tag = tag → o.Kept (g o)) : KeepsRecords s (s.modOrder tag g) := fun hs =>
  ⟨State.modOrder_wellKept hs fun o ho ht => ⟨(hg hs.distinct o ho ht).follows, (hg hs.distinct o ho ht).quieter⟩,
    State.modOrder_becomes (hg hs.distinct) fun o _ _ => .refl o⟩

theorem StandingAct.keepsRecords {s t : State} (h : StandingAct s t) : KeepsRecords s t := by
  cases h with
  | post | standing => exact .of_orm .refl rfl
  | @mark tag o m ho hb hm =>
    refine .modOrder fun hd x hx hxt => ?_
    rw [State.findOrder_unique ho hd hx hxt]
    obtain ⟨hf, hq⟩ := Order.Follows.mark hb hm
    exact .of_mark hf hq rfl

theorem State.findOrder_of_tags {s : State} (hd : s.orm.TagsDistinct) {o : Order} (ho : o ∈ s.orm.table) :
    s.findOrder o.tag = some o := by
  cases hf : s.findOrder o.tag with
  | none => exact absurd (List.find?_eq_none.mp hf o ho) (by simp)
  | some x => rw [hd.eq_of_tag (State.findOrder_mem hf) ho (State.findOrder_tag hf)]

/-- The end of a live order changes its record and the staged frames alone, and posts ORDER_END where no slot of it is in
flight (R15). -/
theorem State.endOrder_of_tags {s : State} (hd : s.orm.TagsDistinct) {o : Order} (ho : o ∈ s.orm.table)
    (hl : o.state.live = true) (reason : Reason) :
    s.endOrder o.tag reason
      = if o.anyInFlight then s.ended o.tag reason else (s.ended o.tag reason).post (.orderEnd o.tag reason.final) := by
  have hlines : (fun l : Line => l.discardStagedOf o.tag) = fun l => withoutStaged l o.tag :=
    funext fun l => l.discardStagedOf_eq o.tag
  have hchange : ∀ g : Order → Order, g (o.stopped reason) = endedOrder o reason s.now →
      (s.modOrder o.tag fun x => x.stopped reason).modOrder o.tag g = s.modOrder o.tag fun x => endedOrder x reason s.now :=
    fun g hg => by
      rw [State.modOrder_modOrder s o.tag (fun x => x.stopped reason) g fun _ => rfl]
      refine State.modOrder_congr fun x hx hxt => ?_
      rw [hd.eq_of_tag hx ho hxt, hg]
  unfold State.endOrder
  rw [State.findOrder_of_tags hd ho]
  simp only [hl, if_true, hlines]
  split
  next hf =>
    have h := hchange (fun x => { x with state := .closing, closing := some reason }) (by rw [endedOrder_eq, if_pos hf])
    exact congrArg (fun t => t.mapLines fun l => withoutStaged l o.tag) h
  next hf =>
    have h := hchange (fun x => { x with state := reason.final, closing := none, finishedAt := some s.now })
      (by rw [endedOrder_eq, if_neg hf])
    exact congrArg (fun t => (t.mapLines fun l => withoutStaged l o.tag).post (.orderEnd o.tag reason.final)) h

/-- The end of a live order changes its record alone in the table (R15). -/
theorem State.endOrder_orm {s : State} (hd : s.orm.TagsDistinct) {o : Order} (ho : o ∈ s.orm.table)
    (hl : o.state.live = true) (reason : Reason) :
    (s.endOrder o.tag reason).orm = (s.modOrder o.tag fun x => endedOrder x reason s.now).orm := by
  rw [State.endOrder_of_tags hd ho hl]
  split <;> rfl

/-- The end of an order that stands live in the table changes its record alone, and any other nothing. -/
theorem State.endOrder_cases (s : State) (tag : Tag) (reason : Reason) (hd : s.orm.TagsDistinct) :
    s.endOrder tag reason = s
      ∨ ∃ o ∈ s.orm.table, o.tag = tag ∧ o.state.live = true
          ∧ (s.endOrder tag reason).orm = (s.modOrder tag fun x => endedOrder x reason s.now).orm := by
  cases ho : s.findOrder tag with
  | none =>
    left
    simp only [State.endOrder, ho]
  | some o =>
    have hmem := State.findOrder_mem ho
    have htag := State.findOrder_tag ho
    cases hl : o.state.live with
    | false =>
      left
      simp only [State.endOrder, ho, hl, Bool.false_eq_true, if_false]
    | true =>
      refine .inr ⟨o, hmem, htag, hl, ?_⟩
      rw [← htag]
      exact State.endOrder_orm hd hmem hl reason

theorem State.endOrder_keepsRecords (s : State) (tag : Tag) (reason : Reason) : KeepsRecords s (s.endOrder tag reason) := fun hs => by
  obtain he | ⟨o, ho, ht, hl, he⟩ := s.endOrder_cases tag reason hs.distinct.tags
  · rw [he]
    exact ⟨hs, .same rfl fun o _ => .refl o⟩
  · rw [he]
    refine KeepsRecords.modOrder (fun hd x hx hxt => ?_) hs
    rw [hd.eq_of_tag hx ho (hxt.trans ht.symm)]
    exact .ended hl reason s.now

theorem State.closingEnd_keepsRecords (s : State) (tag : Tag) : KeepsRecords s (s.closingEnd tag) := by
  obtain he | ⟨o, reason, ho, hst, hc, hno, he⟩ := s.closingEnd_cases tag <;> rw [he]
  · exact .of_orm .refl rfl
  · refine KeepsRecords.modOrder fun hd x hx hxt => ?_
    rw [State.findOrder_unique ho hd hx hxt]
    exact .closes hst hc hno s.now

theorem CheckAct.keepsRecords {s t : State} (h : CheckAct s t) : KeepsRecords s t := by
  cases h with
  | standing h => exact h.keepsRecords
  | ended tag reason => exact s.endOrder_keepsRecords tag reason
  | queued | pick => exact .of_orm .refl rfl

theorem State.noteTimes_keepsRecords (s : State) : KeepsRecords s s.noteTimes := fun hs =>
  have hb : s.orm.Becomes Order.Kept s.noteTimes.orm := ⟨_, rfl, fun o _ => .noteTime o s.now⟩
  ⟨hs.becomes (hb.imp fun _ h => ⟨h.follows, h.quieter⟩) rfl rfl, hb⟩

/-! ### The acts of a line controller -/

abbrev FollowsTable : State → State → Prop := KeepsTable Order.Follows

theorem KeepsRecords.follows {s t : State} (h : KeepsRecords s t) : FollowsTable s t := h.imp Order.Kept.follows

theorem FollowsTable.of_orm {s t : State} (h : t.orm = s.orm) : FollowsTable s t := KeepsTable.of_orm Order.Follows.refl h

theorem FollowsTable.trans {s t u : State} (h : FollowsTable s t) (k : FollowsTable t u) : FollowsTable s u :=
  KeepsTable.trans (G := Order.Follows) (fun h k => h.trans k) h k

theorem FollowsTable.modProgress (s : State) (tag : Tag) (p : Phase) {f : Progress → Progress}
    (hf : ∀ pp, (f pp).stage = pp.stage ∧ (f pp).missTally = pp.missTally) : FollowsTable s (s.modProgress tag p f) := fun hs =>
  have hfollows : ∀ o : Order, o.Follows (o.modProgress p f) ∧ o.Quieter (o.modProgress p f) := fun _ =>
    Order.Follows.modProgress (hf _).1 (hf _).2
  ⟨State.modOrder_wellKept hs fun o _ _ => hfollows o,
    State.modOrder_becomes (fun o _ _ => (hfollows o).1) fun _ _ _ => .refl _⟩

theorem OrderActs.followsTable {p : Phase} {tag : Tag} {s t : State} (h : OrderActs p tag s t) : FollowsTable s t := fun hs =>
  ⟨(h.worked hs).1, (h.worked hs).2.imp fun _ h => h.follows⟩

theorem State.clearInFlight_followsTable (s : State) (tag : Tag) (p : Phase) : FollowsTable s (s.clearInFlight tag p) :=
  (FollowsTable.modProgress s tag p (f := fun pp => { pp with inFlight := false }) fun _ => ⟨rfl, rfl⟩).trans
    (State.closingEnd_keepsRecords _ tag).follows

theorem State.settledSlot_followsTable (s : State) (p : Phase) (ol : OnLine) {reply : Option LineReply}
    (hm : ∀ r ∈ reply, r.margin ≤ 63) : FollowsTable s (s.settledSlot p ol reply) := by
  obtain ⟨tag, u, -, h, he⟩ | ⟨g, -, he⟩ := s.settledSlot_cases p ol hm <;> rw [he]
  · exact h.followsTable.trans (u.clearInFlight_followsTable tag p)
  · exact .of_orm rfl

theorem Progress.beginSlot_fields (pp : Progress) (step : Step) :
    (pp.beginSlot step).stage = pp.stage ∧ (pp.beginSlot step).missTally = pp.missTally ∧ (pp.beginSlot step).inFlight = true := by
  unfold Progress.beginSlot
  split
  · split <;> exact ⟨rfl, rfl, rfl⟩
  · exact ⟨rfl, rfl, rfl⟩

theorem LineAct.followsTable {p : Phase} {s t : State} (h : LineAct p s t) : FollowsTable s t := by
  cases h with
  | settle _ _ h => exact h.followsTable
  | @serve tag hserves =>
    obtain ⟨o, ho, rfl, hl, ha⟩ := hserves
    exact OrderActs.followsTable (.single (.serve ho rfl hl ha))
  | @beginSlot f =>
    unfold State.beginSlot
    dsimp only
    split
    · exact (FollowsTable.of_orm (t := s.modLine p _) rfl).trans (FollowsTable.modProgress _ _ p fun pp =>
        ⟨(pp.beginSlot_fields f.step).1, (pp.beginSlot_fields f.step).2.1⟩)
    · exact .of_orm rfl
  | @endSlot ol st tx reply hon hm =>
    have hon' : ((s.modLine p fun l => { l with stats := st l.stats, txEnable := tx && l.txEnable }).line p).onLine = some ol := by
      rwa [State.line_modLine_same]
    rw [State.endSlot_eq hon']
    exact (FollowsTable.of_orm (s := s) (t := s.modLine p _) rfl).trans
      ((State.settledSlot_followsTable _ p ol hm).trans (.of_orm rfl))
  | _ => exact .of_orm rfl

theorem State.abortSlot_followsTable (s : State) (p : Phase) : FollowsTable s (s.abortSlot p) := by
  have hback : ∀ (x : Option Place) (pp : Progress), (pp.goBack x).stage = pp.stage ∧ (pp.goBack x).missTally = pp.missTally :=
    fun x pp => by cases x <;> exact ⟨rfl, rfl⟩
  obtain h | ⟨tag, -, h⟩ := s.abortSlot_cases p <;> rw [h]
  · exact .of_orm rfl
  · exact ((FollowsTable.of_orm (t := s.modLine p Line.abort) rfl).trans (.modProgress _ tag p (hback _))).trans
      (State.clearInFlight_followsTable _ tag p)

theorem State.losePhase_followsTable (s : State) (p : Phase) : FollowsTable s (s.losePhase p) := by
  obtain ⟨n, hn⟩ := s.lossMoment_eq p
  have hline : ∀ u : State, FollowsTable u (u.loseLine p) := fun u => by
    unfold State.loseLine
    dsimp only
    split
    · exact (FollowsTable.of_orm (t := u.modLine p _) rfl).trans (State.abortSlot_followsTable _ p)
    · exact .of_orm rfl
  rw [State.losePhase_eq, hn]
  exact ((FollowsTable.of_orm (t := (s.advanceTo n).setMains p _) rfl).trans (hline _)).trans (.of_orm rfl)

theorem State.quietLines_followsTable (s : State) : FollowsTable s s.quietLines :=
  State.quietLines_induct (P := FollowsTable s) s (fun _ _ h => h.trans (.of_orm rfl))
    (fun t p h => h.trans (t.abortSlot_followsTable p)) (.of_orm rfl)

/-! ### Records added and taken away -/

/-- The records of `n` are what has become of those of `m`, beside those a stretch may add and take away. -/
structure Orm.Evolves (G : Order → Order → Prop) (k : Stretch) (m n : Orm) : Prop where
  kept : k ≠ .plain → ∀ o ∈ m.table, ∃ x ∈ n.table, G o x
  old : k ≠ .admitting → ∀ x ∈ n.table, ∃ o ∈ m.table, G o x

theorem Orm.Becomes.evolves {G : Order → Order → Prop} {m n : Orm} (h : m.Becomes G n) (k : Stretch) : m.Evolves G k n :=
  ⟨fun _ _ => h.exists_new, fun _ _ => h.exists_old⟩

theorem Orm.Evolves.trans {G : Order → Order → Prop} (hG : ∀ {o x y}, G o x → G x y → G o y) {k : Stretch} {m n u : Orm}
    (h : m.Evolves G k n) (h' : n.Evolves G k u) : m.Evolves G k u where
  kept hk o ho := by
    obtain ⟨x, hx, hox⟩ := h.kept hk o ho
    obtain ⟨y, hy, hxy⟩ := h'.kept hk x hx
    exact ⟨y, hy, hG hox hxy⟩
  old hk y hy := by
    obtain ⟨x, hx, hxy⟩ := h'.old hk y hy
    obtain ⟨o, ho, hox⟩ := h.old hk x hx
    exact ⟨o, ho, hG hox hxy⟩

/-- In the stretch of a crossing no record is added and none taken away. -/
theorem Orm.Evolves.crossing {G : Order → Order → Prop} {m n : Orm} (h : m.Evolves G .crossing n) (k : Stretch) :
    m.Evolves G k n :=
  ⟨fun _ => h.kept nofun, fun _ => h.old nofun⟩

/-- Records of one tag before and after are related. -/
theorem Orm.Evolves.related {G : Order → Order → Prop} (hG : ∀ {o x}, G o x → x.tag = o.tag) {k : Stretch} {m n : Orm}
    (h : m.Evolves G k n) (hm : m.Distinct) (hn : n.Distinct) {o x : Order} (ho : o ∈ m.table) (hx : x ∈ n.table)
    (ht : x.tag = o.tag) : G o x := by
  by_cases hk : k = .admitting
  · obtain ⟨y, hy, hoy⟩ := h.kept (by rw [hk]; nofun) o ho
    rwa [hn.eq_of_tag hx hy (ht.trans (hG hoy).symm)]
  · obtain ⟨y, hy, hyx⟩ := h.old hk x hx
    rwa [hm.eq_of_tag ho hy (ht.symm.trans (hG hyx))]

theorem submissionOf_repeats {f : SubmitFields} {now : Nat} {q : Submission} (h : submissionOf f now = some q) :
    f.priority.toNat ≤ 7 ∧ q.repeats ≤ 4 := by
  have hgroup : ∀ body, groupSubmission f body = some q → q.repeats ≤ 4 := fun body h => by
    unfold groupSubmission at h
    split at h
    · split at h
      · split at h
        · cases h
        · cases h
          exact Nat.min_le_right _ _
      · cases h
    · cases h
  unfold submissionOf at h
  split at h
  · cases h
  next hp =>
    refine ⟨Nat.le_of_not_lt hp, ?_⟩
    split at h
    · cases h
    · split at h
      · cases h
      · exact hgroup _ h
      · exact hgroup _ h
      · split at h
        · cases h
          exact Nat.zero_le 4
        · cases h

theorem Progress.fresh_fields (involved : Bool) (dirn : Direction) :
    (Progress.fresh involved dirn).missTally = 0 ∧ (Progress.fresh involved dirn).inFlight = false
      ∧ (Progress.fresh involved dirn).stage ≠ .serving ∧ (Progress.fresh involved dirn).stage ≠ .paused
      ∧ (Progress.fresh involved dirn).stage ≠ .done := by
  cases involved <;> exact ⟨rfl, rfl, nofun, nofun, nofun⟩

theorem admittedOrder_progress (s : State) (f : SubmitFields) (q : Submission) (tag : Tag) (p : Phase) :
    (admittedOrder s f q tag).progress.get p = .fresh (s.dir.involves q.body p) q.direction := by
  cases p <;> rfl

theorem firstMark_eq (b : OrderBody) : firstMark b = none ↔ b.group = none := by
  cases b <;> simp [firstMark, OrderBody.group]

theorem admittedOrder_sound {s : State} {f : SubmitFields} {q : Submission} (hq : submissionOf f s.now = some q) {tag : Tag}
    (ht : tag ≠ 0) : (admittedOrder s f q tag).Sound := by
  obtain ⟨hprio, hrep⟩ := submissionOf_repeats hq
  have hfresh := fun p => Progress.fresh_fields (s.dir.involves q.body p) q.direction
  refine ⟨ht, hprio, hrep, ?_, ?_, by simp [admittedOrder], by simp [admittedOrder, OrderState.final], Nat.zero_le _, ?_,
    firstMark_eq q.body, by simp [admittedOrder], ?_, by simp [admittedOrder], eachPhase_iff.mpr fun p => ⟨fun _ => rfl, ?_⟩⟩
  · exact Nat.le_min.mpr ⟨Nat.le_max_right _ _, by decide⟩
  · exact Nat.min_le_right _ _
  · obtain ⟨ha, -⟩ := hfresh .a
    obtain ⟨hb, -⟩ := hfresh .b
    obtain ⟨hc, -⟩ := hfresh .c
    exact (Nat.add_eq_zero_iff.mpr ⟨Nat.add_eq_zero_iff.mpr ⟨ha, hb⟩, hc⟩).symm
  · intro hr he
    have hr' : timeReached (submittedEffective f) s.now = true := hr
    have he' : submittedEffective f = none := he
    rw [he'] at hr'
    cases hr'
  · obtain ⟨-, -, hserving, hpaused, -⟩ := hfresh p
    rw [admittedOrder_progress]
    exact fun h => (h.elim hserving hpaused).elim

theorem Orm.freeTag_ne_zero {m : Orm} (h : m.tagCounter ≠ 0) (hlen : m.table.length < Config.orderCapacity) : m.freeTag ≠ 0 := by
  obtain ⟨k, hk, -⟩ := Orm.freeTag_spec (m := m) (hlen.trans (by decide))
  rw [hk]
  cases k with
  | zero => exact h
  | succ k =>
    rw [Function.iterate_succ_apply']
    exact nextTag_ne_zero _

theorem Order.Apart.symm {x y : Order} (h : x.Apart y) : y.Apart x := by
  obtain ⟨htag, hkind, hserves⟩ := h
  refine ⟨fun h => htag h.symm, fun ⟨hly, hlx, hk, hg, he⟩ => hkind ⟨hlx, hly, ?_, he ▸ hg, he.symm⟩, eachPhase_iff.mpr fun p h =>
    eachPhase_iff.mp hserves p h.symm⟩
  simp only [OrderBody.sameKind, beq_iff_eq] at hk ⊢
  exact hk.symm

theorem Orm.Distinct.apart {m : Orm} (h : m.Distinct) {x y : Order} (hx : x ∈ m.table) (hy : y ∈ m.table) (hne : x ≠ y) :
    x.Apart y :=
  haveI : Std.Symm Order.Apart := ⟨fun _ _ => Order.Apart.symm⟩
  List.Pairwise.forall h hx hy hne

/-- The order of the table that a new one of a kind and group competes with. -/
def Order.Rivals (o x : Order) : Prop :=
  x.state.live = true ∧ x.body.sameKind o.body = true ∧ o.body.group ≠ none ∧ x.body.group = o.body.group

/-- The table with a new order: what has become of the records, and the new one, which has no rival left (R13). -/
theorem State.enroll_table {s : State} (hs : s.orm.WellKept) {o : Order} (hfresh : o.tag ∉ s.orm.table.map (·.tag)) :
    ∃ f : Order → Order, (s.enroll o).orm.table = s.orm.table.map f ++ [o]
      ∧ ∀ x ∈ s.orm.table, x.Kept (f x) ∧ ¬o.Rivals (f x) := by
  have hne : ∀ x ∈ s.orm.table, x.tag ≠ o.tag := fun x hx he => hfresh (List.mem_map.mpr ⟨x, hx, he⟩)
  have hplain : (s.enlist o).supersededBy o = none → (s.enroll o).orm.table = s.orm.table.map id ++ [o] := fun h => by
    rw [State.enroll, State.supersede, h, List.map_id]
    rfl
  cases hg : o.body.group with
  | none =>
    refine ⟨id, hplain (by simp only [State.supersededBy, hg]), fun x _ => ⟨.refl x, fun hr => ?_⟩⟩
    obtain ⟨-, -, hno, -⟩ := hr
    exact hno hg
  | some g =>
    cases hfind : (s.enlist o).orm.table.find? fun x =>
        x.tag != o.tag && x.body.sameKind o.body && x.body.group == some g && x.state.live with
    | none =>
      refine ⟨id, hplain (by simp only [State.supersededBy, hg, hfind, Option.map_none]), fun x hx => ⟨.refl x, fun hr => ?_⟩⟩
      obtain ⟨hl, hk, -, he⟩ := hr
      have hin : x ∈ (s.enlist o).orm.table := List.mem_append_left _ hx
      have hno := List.find?_eq_none.mp hfind x hin
      simp [hne x hx, show x.body.sameKind o.body = true from hk, show x.body.group = some g from he.trans hg,
        show x.state.live = true from hl] at hno
    | some y =>
      have hy := List.find?_some hfind
      simp only [Bool.and_eq_true, bne_iff_ne, ne_eq, beq_iff_eq] at hy
      obtain ⟨⟨⟨hyt, hyk⟩, hyg⟩, hyl⟩ := hy
      have hmem : y ∈ (s.enlist o).orm.table := List.mem_of_find?_eq_some hfind
      have hyin : y ∈ s.orm.table := (List.mem_append.mp hmem).resolve_right fun h => hyt (by rw [List.mem_singleton.mp h])
      have htags : (s.enlist o).orm.TagsDistinct := by
        rw [Orm.TagsDistinct, State.enlist, List.map_append]
        refine List.nodup_append.mpr ⟨hs.distinct.tags, by simp, fun a ha b hb hab => hfresh ?_⟩
        obtain rfl : b = o.tag := by simpa using hb
        exact hab ▸ ha
      have horm := State.endOrder_orm htags hmem hyl .superseded
      refine ⟨fun x => if x.tag = y.tag then endedOrder x .superseded s.now else x, ?_, fun x hx => ?_⟩
      · have hsup : (s.enlist o).supersededBy o = some y.tag := by
          simp only [State.supersededBy, hg, hfind, Option.map_some]
        rw [State.enroll, State.supersede, hsup]
        show ((s.enlist o).endOrder y.tag .superseded).orm.table = _
        rw [horm]
        show List.map _ (s.orm.table ++ [o]) = _
        rw [List.map_append, List.map_singleton, if_neg fun h => hyt h.symm]
        rfl
      · dsimp only
        split
        next ht =>
          obtain rfl := hs.distinct.eq_of_tag hx hyin ht
          refine ⟨.ended hyl _ _, fun hr => ?_⟩
          obtain ⟨hl, -⟩ := hr
          rw [endedOrder_state] at hl
          split at hl <;> cases hl
        next ht =>
          refine ⟨.refl x, fun hr => ?_⟩
          obtain ⟨hl, hk, -, he⟩ := hr
          obtain ⟨-, hkind, -⟩ := hs.distinct.apart hx hyin fun h => ht (by rw [h])
          refine hkind ⟨hl, hyl, ?_, by rw [he, hg]; nofun, by rw [he, hg, hyg]⟩
          simp only [OrderBody.sameKind, beq_iff_eq] at hk hyk ⊢
          exact hk.trans hyk.symm

/-- An order is admitted: the table stays well kept, and every record before is kept (R12, R13). -/
theorem State.enroll_wellKept {s : State} (hs : s.orm.WellKept) {f : SubmitFields} {q : Submission}
    (hq : submissionOf f s.now = some q) (hcap : s.orm.table.length < Config.orderCapacity) :
    (s.enroll (admittedOrder s f q s.orm.freeTag)).orm.WellKept := by
  have hfresh := State.freeTag_fresh hcap
  obtain ⟨g, htable, hg⟩ := State.enroll_table hs (o := admittedOrder s f q s.orm.freeTag) hfresh
  have hout := (s.enlist (admittedOrder s f q s.orm.freeTag)).supersede_outside (admittedOrder s f q s.orm.freeTag)
  obtain ⟨⟨hlen, hcounter, hfloor, hall⟩, hd⟩ := hs
  refine ⟨⟨?_, ?_, ?_, fun x hx => ?_⟩, ?_⟩
  · rw [htable, List.length_append, List.length_map]
    exact hcap
  · rw [State.enroll, hout.tagCounter]
    exact nextTag_ne_zero _
  · rw [State.enroll, hout.floor]
    exact hfloor
  · rw [htable] at hx
    obtain hx | hx := List.mem_append.mp hx
    · obtain ⟨o, ho, rfl⟩ := List.mem_map.mp hx
      exact (hg o ho).1.follows.sound (hall o ho)
    · rw [List.mem_singleton.mp hx]
      exact admittedOrder_sound hq (Orm.freeTag_ne_zero hcounter hcap)
  · rw [Orm.Distinct, htable]
    refine List.pairwise_append.mpr ⟨List.pairwise_map.mpr (hd.imp_of_mem fun hx hy hxy => ?_), by simp, fun x hx y hy => ?_⟩
    · exact hxy.follows ⟨(hg _ hx).1.follows, (hg _ hx).1.quieter⟩ ⟨(hg _ hy).1.follows, (hg _ hy).1.quieter⟩
    · obtain ⟨o, ho, rfl⟩ := List.mem_map.mp hx
      rw [List.mem_singleton.mp hy]
      obtain ⟨hkept, hrival⟩ := hg o ho
      refine ⟨fun he => hfresh (List.mem_map.mpr ⟨o, ho, ?_⟩), fun ⟨hl, _, hk, hgr, he⟩ => hrival ⟨hl, hk, he ▸ hgr, he⟩,
        eachPhase_iff.mpr fun p ⟨_, hserves⟩ => ?_⟩
      · rw [← hkept.follows.tag, he]
        rfl
      · obtain ⟨-, -, hno, -⟩ := Progress.fresh_fields (s.dir.involves q.body p) q.direction
        rw [Order.servesOn, admittedOrder_progress] at hserves
        exact hno (of_decide_eq_true hserves)

/-! ### Every act -/

/-- The table stays well kept, and its records evolve as the stretch lets them. -/
def KeepsOrders (k : Stretch) (s t : State) : Prop :=
  s.orm.WellKept → t.orm.WellKept ∧ s.orm.Evolves Order.Follows k t.orm

theorem FollowsTable.keepsOrders {k : Stretch} {s t : State} (h : FollowsTable s t) : KeepsOrders k s t := fun hs =>
  ⟨(h hs).1, (h hs).2.evolves k⟩

theorem KeepsOrders.trans {k : Stretch} {s t u : State} (h : KeepsOrders k s t) (h' : KeepsOrders k t u) : KeepsOrders k s u :=
  fun hs => by
    obtain ⟨ht, hst⟩ := h hs
    obtain ⟨hu, htu⟩ := h' ht
    exact ⟨hu, hst.trans (G := Order.Follows) (fun h k => h.trans k) htu⟩

theorem Orm.WellKept.of_empty {n : Orm} (ht : n.table = []) (hc : n.tagCounter ≠ 0) (hf : n.floor ≤ 7) :
    n.WellKept :=
  ⟨⟨by rw [ht]; exact Nat.zero_le _, hc, hf, fun o ho => by rw [ht] at ho; cases ho⟩,
    by rw [Orm.Distinct, ht]; exact List.Pairwise.nil⟩

theorem Orm.Evolves.of_table {m n : Orm} (h : n.table = m.table) (k : Stretch) : m.Evolves Order.Follows k n :=
  Orm.Becomes.evolves (.same h fun o _ => Order.Follows.refl o) k

theorem FollowsTable.noteTimes {s u : State} (h : u.orm = s.orm) : FollowsTable s u.noteTimes :=
  (FollowsTable.of_orm h).trans (State.noteTimes_keepsRecords u).follows

theorem FollowsTable.quietLines {s u : State} (h : u.orm = s.orm) : FollowsTable s u.quietLines :=
  (FollowsTable.of_orm h).trans (State.quietLines_followsTable u)

theorem OwnerAct.keepsOrders {k : Stretch} {s t : State} (h : OwnerAct k s t) : KeepsOrders k s t := by
  cases h with
  | check h => exact h.keepsRecords.follows.keepsOrders
  | reset =>
    intro hs
    obtain ⟨-, hcounter, -, -⟩ := hs.sound
    exact ⟨Orm.WellKept.of_empty rfl hcounter le_rfl, fun h => absurd rfl h, fun _ x hx => by cases hx⟩
  | @enroll _ f q hq hcap =>
    intro hs
    obtain ⟨g, htable, hg⟩ := State.enroll_table hs (o := admittedOrder s f q s.orm.freeTag) (State.freeTag_fresh hcap)
    refine ⟨State.enroll_wellKept hs hq hcap, fun _ o ho => ⟨g o, ?_, (hg o ho).1.follows⟩, fun h => absurd rfl h⟩
    rw [htable]
    exact List.mem_append_left _ (List.mem_map_of_mem ho)
  | release =>
    intro hs
    obtain ⟨⟨hlen, hcounter, hfl, hall⟩, hd⟩ := hs
    exact ⟨⟨⟨(List.length_filter_le _ _).trans hlen, hcounter, hfl, fun x hx => hall x (List.mem_filter.mp hx).1⟩,
      hd.sublist List.filter_sublist⟩, fun h => absurd rfl h, fun _ x hx => ⟨x, (List.mem_filter.mp hx).1, .refl x⟩⟩
  | floor _ hn =>
    intro hs
    obtain ⟨⟨hlen, hcounter, -, hall⟩, hd⟩ := hs
    exact ⟨⟨⟨hlen, hcounter, hn, hall⟩, hd⟩, by apply Orm.Evolves.of_table; rfl⟩
  | tagCounter htable n =>
    intro hs
    obtain ⟨-, -, hfl, -⟩ := hs.sound
    refine ⟨Orm.WellKept.of_empty htable (fun h => ?_) hfl, by apply Orm.Evolves.of_table; rfl⟩
    have hrange : 1 ≤ clampTo Param.tagBase.low Param.tagBase.high n ∧ clampTo Param.tagBase.low Param.tagBase.high n ≤ 65535 :=
      ⟨Nat.le_min.mpr ⟨Nat.le_max_right _ _, by decide⟩, Nat.min_le_right _ _⟩
    have hzero := congrArg BitVec.toNat h
    simp only [BitVec.toNat_ofNat, BitVec.ofNat_eq_ofNat] at hzero
    omega
  | setClock =>
    exact FollowsTable.keepsOrders (.noteTimes rfl)
  | _ => exact (FollowsTable.of_orm rfl).keepsOrders

theorem State.returnIfDue_orm (s : State) (p : Phase) : (s.returnIfDue p).orm = s.orm := by
  obtain ⟨he, -⟩ | ⟨-, he⟩ := s.returnIfDue_cases p <;> rw [he]
  rfl

theorem State.releaseQuiet_orm (s : State) : s.releaseQuiet.orm = s.orm := by
  obtain ⟨he, -⟩ | ⟨n, -, he⟩ := s.releaseQuiet_cases <;> rw [he]
  rfl

theorem State.advanceSubcount_orm (s : State) : s.advanceSubcount.orm = s.orm := by
  unfold State.advanceSubcount
  dsimp only
  split <;> rfl

theorem State.holdRecord_orm (s : State) (rec : Record) : (s.holdRecord rec).orm = s.orm := by
  obtain ⟨r, he⟩ := s.holdRecord_blocks rec
  rw [he]

theorem State.completeWrite_orm (s : State) (equal : Bool) : (s.completeWrite equal).orm = s.orm := by
  obtain ⟨-, -, -, horm, -⟩ := s.completeWrite_blocks equal
  exact horm

theorem Act.keepsOrders {k : Stretch} {s t : State} (h : Act k s t) : KeepsOrders k s t := by
  cases h with
  | owner h => exact h.keepsOrders
  | line h => exact h.followsTable.keepsOrders
  | closingEnd tag => exact (s.closingEnd_keepsRecords tag).follows.keepsOrders
  | holdRecord rec => exact (FollowsTable.of_orm (s.holdRecord_orm rec)).keepsOrders
  | written equal => exact (FollowsTable.of_orm (s.completeWrite_orm equal)).keepsOrders
  | returning => exact (FollowsTable.of_orm (State.returnIfDue_orm (s.setMains _ _) _)).keepsOrders
  | returned p => exact (FollowsTable.of_orm (s.returnIfDue_orm p)).keepsOrders
  | lost => exact (s.losePhase_followsTable _).keepsOrders
  | subcount => exact (FollowsTable.of_orm s.advanceSubcount_orm).keepsOrders
  | tick => exact FollowsTable.keepsOrders (.noteTimes rfl)
  | quietOff => exact (FollowsTable.of_orm s.releaseQuiet_orm).keepsOrders
  | quietOn => exact FollowsTable.keepsOrders (.quietLines rfl)
  | _ => exact (FollowsTable.of_orm rfl).keepsOrders

end Sys2Proof.Machine
end

section
/-! PROOF. The order table over every step, and the effective times its orders have noted (O53; R11, R67). -/

namespace Sys2Proof.Machine

open Relation (ReflTransGen)

/-! ### Noted times -/

theorem State.TimesNoted.of_old {s t : State} (h : s.TimesNoted)
    (hold : ∀ x ∈ t.orm.table, ∃ o ∈ s.orm.table, o.Follows x) (hnow : t.now = s.now) : t.TimesNoted := by
  intro x hx hl he
  obtain ⟨o, ho, hf⟩ := hold x hx
  rw [hf.effective, hnow] at he
  exact hf.reached (h o ho (hf.live hl) he)

theorem State.TimesNoted.of_table {s t : State} (h : s.TimesNoted) (ht : t.orm.table = s.orm.table) (hnow : t.now = s.now) :
    t.TimesNoted :=
  h.of_old (fun x hx => ⟨x, ht ▸ hx, .refl x⟩) hnow

theorem FollowsTable.timesNoted {s t : State} (h : FollowsTable s t) (hnow : t.now = s.now) (hw : s.orm.WellKept)
    (hs : s.TimesNoted) : t.TimesNoted :=
  hs.of_old (fun _ hx => (h hw).2.exists_old hx) hnow

theorem State.now_of_mtb {s t : State} (h : t.mtb = s.mtb) : t.now = s.now := by
  rw [State.now, h]
  rfl

theorem State.noteTimes_timesNoted (s : State) : s.noteTimes.TimesNoted := by
  intro x hx hl he
  obtain ⟨o, -, rfl⟩ := List.mem_map.mp hx
  obtain ⟨e, heff, hle⟩ := he
  have heff' : o.effective = some e := heff
  have hl' : o.state.live = true := hl
  have hle' : e ≤ s.now := hle
  simp [Order.noteTime, timeReached, heff', hl', hle']

theorem OwnerAct.timesNoted {k : Stretch} {s t : State} (h : OwnerAct k s t) (hw : s.orm.WellKept) (hs : s.TimesNoted) :
    t.TimesNoted := by
  cases h with
  | check h => exact h.keepsRecords.follows.timesNoted (State.now_of_mtb h.outside.mtb) hw hs
  | reset => exact fun x hx => by cases hx
  | @enroll _ f q hq hcap =>
    obtain ⟨g, htable, hg⟩ := State.enroll_table hw (o := admittedOrder s f q s.orm.freeTag) (State.freeTag_fresh hcap)
    have hnow := State.now_of_mtb (s.enroll_mtb (admittedOrder s f q s.orm.freeTag))
    intro x hx hl he
    rw [htable] at hx
    rw [hnow] at he
    obtain hx | hx := List.mem_append.mp hx
    · obtain ⟨o, ho, rfl⟩ := List.mem_map.mp hx
      have hf := (hg o ho).1.follows
      rw [hf.effective] at he
      exact hf.reached (hs o ho (hf.live hl) he)
    · obtain rfl := List.mem_singleton.mp hx
      obtain ⟨e, heff, hle⟩ := he
      have heff' : submittedEffective f = some e := heff
      simp [admittedOrder, timeReached, heff', hle]
  | release => exact hs.of_old (fun x hx => ⟨x, (List.mem_filter.mp hx).1, .refl x⟩) rfl
  | setClock => exact State.noteTimes_timesNoted _
  | _ => exact hs.of_table rfl rfl

theorem State.losePhase_now (s : State) (p : Phase) : (s.losePhase p).now = s.now := by
  obtain ⟨n, hn⟩ := s.lossMoment_eq p
  rw [State.now, State.losePhase_mtb, hn]
  rfl

theorem State.returnIfDue_now (s : State) (p : Phase) : (s.returnIfDue p).now = s.now := by
  obtain ⟨he, -⟩ | ⟨-, he⟩ := s.returnIfDue_cases p <;> rw [he]
  rfl

theorem State.releaseQuiet_now (s : State) : s.releaseQuiet.now = s.now := by
  obtain ⟨he, -⟩ | ⟨n, -, he⟩ := s.releaseQuiet_cases <;> rw [he]
  rfl

theorem State.advanceSubcount_now (s : State) : s.advanceSubcount.now = s.now := by
  unfold State.advanceSubcount
  dsimp only
  split <;> rfl

theorem Act.timesNoted {k : Stretch} {s t : State} (h : Act k s t) (hw : s.orm.WellKept) (hs : s.TimesNoted) :
    t.TimesNoted := by
  cases h with
  | owner h => exact h.timesNoted hw hs
  | line h => exact h.followsTable.timesNoted (State.now_of_mtb h.outside.mtb) hw hs
  | closingEnd tag =>
    exact (s.closingEnd_keepsRecords tag).follows.timesNoted (State.now_of_mtb (s.closingEnd_outside tag).mtb) hw hs
  | holdRecord rec =>
    obtain ⟨r, he⟩ := s.holdRecord_blocks rec
    rw [he]
    exact hs.of_table rfl rfl
  | written equal => exact hs.of_table (by rw [s.completeWrite_orm]) (State.now_of_mtb (s.completeWrite_mtb equal))
  | returning => exact hs.of_table (by rw [State.returnIfDue_orm]; rfl) (by rw [State.returnIfDue_now]; rfl)
  | returned p => exact hs.of_table (by rw [s.returnIfDue_orm]) (s.returnIfDue_now p)
  | lost => exact (s.losePhase_followsTable _).timesNoted (s.losePhase_now _) hw hs
  | subcount => exact hs.of_table (by rw [s.advanceSubcount_orm]) s.advanceSubcount_now
  | tick => exact State.noteTimes_timesNoted _
  | quietOff => exact hs.of_table (by rw [s.releaseQuiet_orm]) s.releaseQuiet_now
  | quietOn => exact FollowsTable.timesNoted (.quietLines rfl) (State.now_of_mtb (State.quietLines_mtb _)) hw hs
  | _ => exact hs.of_table rfl rfl

/-! ### Every step -/

/-- What a stretch of a step keeps of the order table. -/
structure KeepsOrm (k : Stretch) (s t : State) : Prop where
  orders : KeepsOrders k s t
  times : s.orm.WellKept → s.TimesNoted → t.TimesNoted

theorem KeepsOrm.refl (k : Stretch) (s : State) : KeepsOrm k s s :=
  ⟨(FollowsTable.of_orm rfl).keepsOrders, fun _ hs => hs⟩

theorem KeepsOrm.trans {k : Stretch} {s t u : State} (h : KeepsOrm k s t) (h' : KeepsOrm k t u) : KeepsOrm k s u :=
  ⟨h.orders.trans h'.orders, fun hw hs => h'.times (h.orders hw).1 (h.times hw hs)⟩

theorem StepAct.keepsOrm {k : Stretch} {s t : State} (h : StepAct k s t) : KeepsOrm k s t := by
  cases h with
  | pending q => exact ⟨(FollowsTable.of_orm rfl).keepsOrders, fun _ hs => hs⟩
  | act h => exact ⟨h.keepsOrders, h.timesNoted⟩
  | lastByte h => cases h <;> exact ⟨(FollowsTable.of_orm rfl).keepsOrders, fun _ hs => hs⟩

theorem StepActs.keepsOrm {k : Stretch} {s t : State} (h : StepActs k s t) : KeepsOrm k s t :=
  acts_induct (KeepsOrm.refl k) KeepsOrm.trans StepAct.keepsOrm h

theorem KeepsOrm.crossing {s t : State} (h : KeepsOrm .crossing s t) (k : Stretch) : KeepsOrm k s t :=
  ⟨fun hw => ⟨(h.orders hw).1, (h.orders hw).2.crossing k⟩, h.times⟩

/-- A step that is no power-up keeps the order table as one stretch does. -/
theorem step_keepsOrm {s t : State} (h : step s = .next t) :
    (∃ u quiet touched, t = State.powerOn u quiet touched) ∨ ∃ k, KeepsOrm k s t := by
  obtain ⟨quiet, touched, rest, -, rfl⟩ | ⟨-, u, hcross, k, -, hacts⟩ := step_acts h
  · exact .inl ⟨_, quiet, touched, rfl⟩
  · exact .inr ⟨k, (hcross.keepsOrm.crossing k).trans hacts.keepsOrm⟩

theorem State.powerOn_table (s : State) (quiet touched : Bool) : (s.powerOn quiet touched).orm.table = [] := rfl

theorem State.powerOn_wellKept (s : State) (quiet touched : Bool) : (s.powerOn quiet touched).orm.WellKept :=
  .of_empty rfl (show (1 : Tag) ≠ 0 by decide) le_rfl

/-- Settles O53, by the acts of a step: each record follows what it was, and records of one tag before and after a step are one
record, since a step does not both take records away and add some. -/
theorem ordersStaySound : Obligations.OrdersStaySound := by
  intro s t hs hd h
  obtain ⟨u, quiet, touched, rfl⟩ | ⟨k, hk⟩ := step_keepsOrm h
  · obtain ⟨hsound, hdist⟩ := u.powerOn_wellKept quiet touched
    exact ⟨hsound, hdist, fun _ x hx => absurd hx (List.not_mem_nil), fun _ _ _ x hx => absurd hx (List.not_mem_nil)⟩
  · obtain ⟨⟨hsound, hdist⟩, hevolves⟩ := hk.orders ⟨hs, hd⟩
    refine ⟨hsound, hdist, hk.times ⟨hs, hd⟩, fun o ho hr x hx ht => ?_⟩
    exact (hevolves.related (fun h => h.tag) hd hdist ho hx ht).reached hr

end Sys2Proof.Machine
end

section
/-! PROOF. Slot in flight and final records through what the machine does to the order table (O54, O55; R3, R16, R18, R75, R84). -/

namespace Sys2Proof.Machine

open Relation (ReflTransGen)

/-! ### One phase -/

/-- Slot in flight on one phase: set exactly for the order that the phase's slot serves, which is in the table, has not ended and
has work left there. -/
structure State.SlotAgrees (s : State) (p : Phase) : Prop where
  inFlight : ∀ o ∈ s.orm.table, (o.progress.get p).inFlight = decide ((s.line p).slotOrder = some o.tag)
  served : ∀ tag, (s.line p).slotOrder = some tag → ∃ o ∈ s.orm.table, o.tag = tag ∧ o.state.final = false ∧ ¬o.RestsOn p

theorem State.slotsAgree_iff (s : State) : s.SlotsAgree ↔ ∀ p, s.SlotAgrees p := by
  rw [State.SlotsAgree, eachPhase_iff]
  refine forall_congr' fun p => ⟨fun ⟨hin, hserved⟩ => ⟨hin, fun tag ht => ?_⟩, fun ⟨hin, hserved⟩ => ⟨hin, ?_⟩⟩
  · rw [ht] at hserved
    obtain ⟨o, ho, htag, hf, hd, hn⟩ := of_decide_eq_true hserved
    exact ⟨o, ho, htag, hf, fun h => h.elim hd hn⟩
  · cases ht : (s.line p).slotOrder with
    | none => rfl
    | some tag =>
      obtain ⟨o, ho, htag, hf, hrest⟩ := hserved tag ht
      exact decide_eq_true ⟨o, ho, htag, hf, fun h => hrest (.inl h), fun h => hrest (.inr h)⟩

/-- What keeps a record true to the slot of one phase. -/
structure Order.SameSlot (q : Phase) (o x : Order) : Prop where
  tag : x.tag = o.tag
  inFlight : (x.progress.get q).inFlight = (o.progress.get q).inFlight
  served : (o.progress.get q).inFlight = true → o.state.final = false → ¬o.RestsOn q → x.state.final = false ∧ ¬x.RestsOn q

theorem Order.SameSlot.refl (q : Phase) (o : Order) : o.SameSlot q o := ⟨rfl, rfl, fun _ hf hr => ⟨hf, hr⟩⟩

theorem Order.SameSlot.trans {q : Phase} {o x y : Order} (h : o.SameSlot q x) (k : x.SameSlot q y) : o.SameSlot q y :=
  ⟨k.tag.trans h.tag, k.inFlight.trans h.inFlight, fun hi hf hr =>
    k.served (h.inFlight.trans hi) (h.served hi hf hr).1 (h.served hi hf hr).2⟩

/-- A phase whose slot serves the order it served stays true. -/
theorem State.SlotAgrees.becomes {s t : State} {p : Phase} (h : s.SlotAgrees p)
    (hslot : (t.line p).slotOrder = (s.line p).slotOrder) (hb : s.orm.Becomes (Order.SameSlot p) t.orm) : t.SlotAgrees p := by
  refine ⟨fun x hx => ?_, fun tag ht => ?_⟩
  · obtain ⟨o, ho, hox⟩ := hb.exists_old hx
    rw [hslot, hox.inFlight, hox.tag]
    exact h.inFlight o ho
  · rw [hslot] at ht
    obtain ⟨o, ho, htag, hf, hr⟩ := h.served tag ht
    obtain ⟨x, hx, hox⟩ := hb.exists_new ho
    have hin : (o.progress.get p).inFlight = true := by rw [h.inFlight o ho, ht, htag]; exact decide_eq_true rfl
    exact ⟨x, hx, hox.tag.trans htag, hox.served hin hf hr⟩

/-- A phase without an order's slot is true where no order has a slot in flight there. -/
theorem State.SlotAgrees.of_none {t : State} {p : Phase} (hslot : (t.line p).slotOrder = none)
    (hin : ∀ x ∈ t.orm.table, (x.progress.get p).inFlight = false) : t.SlotAgrees p :=
  ⟨fun x hx => by rw [hin x hx, hslot]; rfl, fun tag ht => by rw [hslot] at ht; cases ht⟩

theorem State.SlotAgrees.not_inFlight {s : State} {p : Phase} (h : s.SlotAgrees p) (hslot : (s.line p).slotOrder = none)
    {o : Order} (ho : o ∈ s.orm.table) : (o.progress.get p).inFlight = false := by
  rw [h.inFlight o ho, hslot]
  rfl

theorem Line.slotOrder_congr {l k : Line} (h : k.onLine = l.onLine) : k.slotOrder = l.slotOrder := by
  unfold Line.slotOrder
  rw [h]

theorem Line.slotOrder_none {l : Line} (h : l.onLine = none) : l.slotOrder = none := by
  unfold Line.slotOrder
  rw [h]

theorem Line.SameButStaged.onLine {l k : Line} (h : l.SameButStaged k) : k.onLine = l.onLine := by
  obtain rfl | rfl := h <;> rfl

theorem Line.slotOrder_some {l : Line} {tag : Tag} (h : l.slotOrder = some tag) :
    ∃ ol, l.onLine = some ol ∧ ol.frame.work = .order tag := by
  unfold Line.slotOrder at h
  split at h
  next ol hon =>
    split at h
    next hw => cases h; exact ⟨ol, hon, hw⟩
    · cases h
  · cases h

theorem Line.slotOrder_of_order {l : Line} {ol : OnLine} {tag : Tag} (hon : l.onLine = some ol)
    (hw : ol.frame.work = .order tag) : l.slotOrder = some tag := by
  simp only [Line.slotOrder, hon, hw]

theorem Line.slotOrder_of_refresh {l : Line} {ol : OnLine} {g : Fin 16} (hon : l.onLine = some ol)
    (hw : ol.frame.work = .refresh g) : l.slotOrder = none := by
  simp only [Line.slotOrder, hon, hw]

/-! ### What keeps a record true -/

/-- A final record keeps all but its mark (R18). -/
structure Order.Stands (o x : Order) : Prop where
  tag : x.tag = o.tag
  final : o.state.final = true → unmarked x = unmarked o

theorem Order.Stands.refl (o : Order) : o.Stands o := ⟨rfl, fun _ => rfl⟩

theorem Order.Stands.trans {o x y : Order} (h : o.Stands x) (k : x.Stands y) : o.Stands y :=
  ⟨k.tag.trans h.tag, fun hf => (k.final (by rwa [final_of_unmarked (h.final hf)])).trans (h.final hf)⟩

/-- A change of a record that has not ended. -/
theorem Order.Stands.of_not_final {o x : Order} (ht : x.tag = o.tag) (h : o.state.final = false) : o.Stands x :=
  ⟨ht, fun hf => by rw [h] at hf; cases hf⟩

/-- A record stands, and is true to the slots of every phase. -/
def Order.StaysTrue (o x : Order) : Prop := o.Stands x ∧ ∀ q, o.SameSlot q x

theorem Order.StaysTrue.refl (o : Order) : o.StaysTrue o := ⟨.refl o, fun q => .refl q o⟩

theorem Order.Kept.staysTrue {o x : Order} (h : o.Kept x) (hs : o.Sound) : o.StaysTrue x := by
  refine ⟨⟨h.follows.tag, h.stands hs⟩, fun q => ⟨h.follows.tag, h.inFlight q, fun hin hf hr =>
    ⟨Bool.eq_false_iff.mpr fun hx => ?_, fun hx => hr ((h.rests q).mp hx)⟩⟩⟩
  obtain ho | hno := h.ends hx
  · rw [hf] at ho
    cases ho
  · rw [hno q] at hin
    cases hin

/-- The work on an order on one phase is true to the slots of the others. -/
theorem Order.Worked.sameSlot {p : Phase} {tag : Tag} {o x : Order} (h : o.Worked p tag x) {q : Phase} (hq : q ≠ p) :
    o.SameSlot q x := by
  refine ⟨h.follows.tag, by rw [h.elsewhere q hq], fun _ hf hr => ⟨Bool.eq_false_iff.mpr fun hx => ?_, ?_⟩⟩
  · obtain ho | ⟨-, hrest⟩ := h.ends hx
    · rw [hf] at ho
      cases ho
    · exact hr (hrest q hq)
  · rwa [Order.RestsOn, h.elsewhere q hq]

theorem Order.serve_final_rests (o : Order) (hl : o.state.live = true) (d : Dir) (p q : Phase) :
    (o.serve d p).state.final = false ∧ ((o.serve d p).RestsOn q → o.RestsOn q) := by
  obtain ⟨-, he⟩ | ⟨-, he⟩ | he := o.serve_cases d p <;> rw [he]
  · refine ⟨?_, fun h => ?_⟩
    · obtain h | h := (OrderState.live_iff _).mp hl <;> simp [h, OrderState.final]
    · by_cases hq : q = p
      · subst hq
        simp [Order.RestsOn, Order.modProgress] at h
      · simpa [Order.RestsOn, Order.modProgress, hq] using h
  · refine ⟨OrderState.live_not_final hl, fun h => ?_⟩
    by_cases hq : q = p
    · subst hq
      simp [Order.RestsOn, Order.modProgress] at h
    · simpa [Order.RestsOn, Order.modProgress, hq] using h
  · exact ⟨OrderState.live_not_final hl, id⟩

/-- Service passes to a live order: every record stays true. -/
theorem State.takeService_staysTrue {s : State} {p : Phase} {tag : Tag} (hs : s.orm.WellKept) (hserves : Serves s p tag) :
    s.orm.Becomes Order.StaysTrue (s.takeService p tag).orm := by
  obtain ⟨o, ho, rfl, hl, ha⟩ := hserves
  refine ⟨_, s.takeService_table p o.tag, fun x hx => ?_⟩
  unfold Order.passService
  split
  next ht =>
    obtain rfl := hs.distinct.eq_of_tag hx ho ht
    refine ⟨.of_not_final (x.serve_tag _ _) (OrderState.live_not_final hl), fun q => ⟨x.serve_tag _ _, ?_, fun _ _ hr => ?_⟩⟩
    · by_cases hq : q = p
      · subst hq
        exact x.serve_inFlight s.dir q
      · rw [Order.serve_stage_ne _ _ hq]
    · obtain ⟨hf, hrests⟩ := x.serve_final_rests hl s.dir p q
      exact ⟨hf, fun h => hr (hrests h)⟩
  next ht =>
    have hworked := Order.Worked.pauseOn x p o.tag
    obtain ⟨-, -, -, hall⟩ := hs.sound
    refine ⟨⟨x.pauseOn_tag p, hworked.stands (hall x hx) ht⟩, fun q => ?_⟩
    by_cases hq : q = p
    · subst hq
      refine ⟨x.pauseOn_tag q, hworked.inFlight, fun _ hf hr => ⟨Bool.eq_false_iff.mpr fun hx => ?_, fun h => hr ?_⟩⟩
      · obtain ho | ⟨h, -⟩ := hworked.ends hx
        · rw [hf] at ho
          cases ho
        · exact ht h
      · exact (hworked.rests ht).mp h
    · exact hworked.sameSlot hq

/-! ### The state -/

/-- The order table is well kept, and every phase's slot in flight is true. -/
structure State.SlotsTrue (s : State) : Prop where
  kept : s.orm.WellKept
  slots : ∀ p, s.SlotAgrees p

theorem State.SlotsTrue.sound {s : State} (h : s.SlotsTrue) {o : Order} (ho : o ∈ s.orm.table) : o.Sound := by
  obtain ⟨-, -, -, hall⟩ := h.kept.sound
  exact hall o ho

/-- Where the slots serve what they served, records that stay true keep slot in flight true. -/
theorem State.SlotsTrue.becomes {s t : State} (h : s.SlotsTrue) (hw : t.orm.WellKept)
    (hslot : ∀ p, (t.line p).slotOrder = (s.line p).slotOrder) (hb : s.orm.Becomes Order.StaysTrue t.orm) :
    t.SlotsTrue ∧ s.orm.Becomes Order.Stands t.orm :=
  ⟨⟨hw, fun p => (h.slots p).becomes (hslot p) (hb.imp fun _ h => h.2 p)⟩, hb.imp fun _ h => h.1⟩

theorem State.SlotsTrue.keepsRecords {s t : State} (h : s.SlotsTrue) (hk : KeepsRecords s t)
    (hslot : ∀ p, (t.line p).slotOrder = (s.line p).slotOrder) : t.SlotsTrue ∧ s.orm.Becomes Order.Stands t.orm :=
  h.becomes (hk h.kept).1 hslot ((hk h.kept).2.imp fun ho hox => hox.staysTrue (h.sound ho))

theorem State.SlotsTrue.of_orm {s t : State} (h : s.SlotsTrue) (horm : t.orm = s.orm)
    (hslot : ∀ p, (t.line p).slotOrder = (s.line p).slotOrder) : t.SlotsTrue ∧ s.orm.Becomes Order.Stands t.orm :=
  h.keepsRecords (.of_orm .refl horm) hslot

/-! ### Slots that begin and end -/

/-- Records as the slot of an order on a phase ends: they stand, are true to the other phases' slots, and have none in flight
there. -/
def Order.SlotEnded (p : Phase) (o x : Order) : Prop :=
  o.Stands x ∧ (∀ q, q ≠ p → o.SameSlot q x) ∧ (x.progress.get p).inFlight = false

theorem Order.Stands.worked {p : Phase} {tag : Tag} {o x : Order} (h : o.Worked p tag x) (hs : o.Sound)
    (hf : o.tag = tag → o.state.final = false) : o.Stands x :=
  ⟨h.follows.tag, fun hfin => h.stands hs (fun ht => by rw [hf ht] at hfin; cases hfin) hfin⟩

/-- The order whose slot is in progress has not ended. -/
theorem State.SlotsTrue.not_final {s : State} (h : s.SlotsTrue) {p : Phase} {tag : Tag}
    (hslot : (s.line p).slotOrder = some tag) {o : Order} (ho : o ∈ s.orm.table) (ht : o.tag = tag) :
    o.state.final = false := by
  obtain ⟨x, hx, hxt, hf, -⟩ := (h.slots p).served tag hslot
  rwa [h.kept.distinct.eq_of_tag ho hx (ht.trans hxt.symm)]

/-- The record of the order `tag` with its slot in flight on a phase cleared, and any other as it is. -/
structure Order.FlightCleared (p : Phase) (tag : Tag) (o x : Order) : Prop where
  other : o.tag ≠ tag → x = o
  sameTag : x.tag = o.tag
  sameSlot : ∀ q, q ≠ p → o.SameSlot q x
  cleared : o.tag = tag → (x.progress.get p).inFlight = false

theorem State.modProgress_flightCleared (s : State) (tag : Tag) (p : Phase) :
    s.orm.Becomes (Order.FlightCleared p tag) (s.modProgress tag p fun pp => { pp with inFlight := false }).orm := by
  refine State.modOrder_becomes (fun o _ ht => ⟨fun h => absurd ht h, rfl, fun q hq => ⟨rfl, ?_, fun _ hf hr => ⟨hf, ?_⟩⟩,
    fun _ => ?_⟩) fun o _ ht => ⟨fun _ => rfl, rfl, fun q _ => .refl q o, fun h => absurd h ht⟩
  · simp [Order.modProgress, hq]
  · simpa [Order.RestsOn, Order.modProgress, hq] using hr
  · simp [Order.modProgress]

/-- A record worked on, and its slot in flight cleared, with what is known of it before. -/
theorem Order.Worked.slotEnded {p : Phase} {tag : Tag} {o x y : Order} (h : o.Worked p tag x) (k : x.FlightCleared p tag y)
    (hs : o.Sound) (hf : o.tag = tag → o.state.final = false) (hin : o.tag ≠ tag → (o.progress.get p).inFlight = false) :
    o.SlotEnded p y := by
  refine ⟨?_, fun q hq => (h.sameSlot hq).trans (k.sameSlot q hq), ?_⟩
  · by_cases ht : o.tag = tag
    · exact .of_not_final (k.sameTag.trans h.follows.tag) (hf ht)
    · rw [k.other (by rwa [h.follows.tag])]
      exact ⟨h.follows.tag, h.stands hs ht⟩
  · by_cases ht : o.tag = tag
    · exact k.cleared (h.follows.tag.trans ht)
    · rw [k.other (by rwa [h.follows.tag]), h.inFlight, hin ht]

/-- The work for the order of a slot, and the clearing of its slot in flight. -/
theorem State.clearInFlight_slotEnded {s u : State} {p : Phase} {tag : Tag} (h : s.SlotsTrue)
    (hslot : (s.line p).slotOrder = some tag) (hu : u.orm.WellKept) (hb : s.orm.Becomes (Order.Worked p tag) u.orm) :
    (u.clearInFlight tag p).orm.WellKept ∧ s.orm.Becomes (Order.SlotEnded p) (u.clearInFlight tag p).orm := by
  have hwell := (FollowsTable.modProgress u tag p (f := fun pp => { pp with inFlight := false }) (fun _ => ⟨rfl, rfl⟩) hu).1
  obtain ⟨hclosed, hclose⟩ := State.closingEnd_keepsRecords _ tag hwell
  obtain ⟨-, -, -, hall⟩ := hwell.sound
  have hother : ∀ o ∈ s.orm.table, o.tag ≠ tag → (o.progress.get p).inFlight = false := fun o ho ht => by
    rw [(h.slots p).inFlight o ho, hslot]
    exact decide_eq_false fun he => ht (Option.some.inj he).symm
  have hended : s.orm.Becomes (Order.SlotEnded p) (u.modProgress tag p fun pp => { pp with inFlight := false }).orm :=
    (hb.imp (H := fun o x => o ∈ s.orm.table ∧ o.Worked p tag x) fun ho hw => ⟨ho, hw⟩).trans (u.modProgress_flightCleared tag p)
      fun {o x y} ⟨ho, hw⟩ hc => hw.slotEnded hc (h.sound ho) (h.not_final hslot ho) (hother o ho)
  refine ⟨hclosed, hended.trans (hclose.imp fun ho hk => hk.staysTrue (hall _ ho)) fun ⟨hstands, hsame, hin⟩ ⟨hst, hsl⟩ => ?_⟩
  exact ⟨hstands.trans hst, fun q hq => (hsame q hq).trans (hsl q), (hsl p).inFlight.trans hin⟩

/-- Where the phase's slot has ended and the other phases' slots stand, slot in flight is true. -/
theorem State.SlotsTrue.slotEnded {s t : State} {p : Phase} (h : s.SlotsTrue) (hw : t.orm.WellKept)
    (hb : s.orm.Becomes (Order.SlotEnded p) t.orm) (hnone : (t.line p).slotOrder = none)
    (hslot : ∀ q, q ≠ p → (t.line q).slotOrder = (s.line q).slotOrder) : t.SlotsTrue ∧ s.orm.Becomes Order.Stands t.orm := by
  refine ⟨⟨hw, fun q => ?_⟩, hb.imp fun _ h => h.1⟩
  by_cases hq : q = p
  · subst hq
    refine .of_none hnone fun x hx => ?_
    obtain ⟨o, -, -, -, hin⟩ := hb.exists_old hx
    exact hin
  · exact (h.slots q).becomes (hslot q hq) (hb.imp fun _ h => h.2.1 q hq)

/-- Work for an order on a phase without a slot. -/
theorem State.SlotsTrue.settled {s t : State} {p : Phase} {tag : Tag} (h : s.SlotsTrue) (hserves : Serves s p tag)
    (hnone : (s.line p).slotOrder = none) (hacts : OrderActs p tag s t) : t.SlotsTrue ∧ s.orm.Becomes Order.Stands t.orm := by
  obtain ⟨o, ho, rfl, hl, -⟩ := hserves
  obtain ⟨hw, hb⟩ := hacts.worked h.kept
  have hline : ∀ q, t.line q = s.line q := hacts.outside.line
  refine ⟨⟨hw, fun q => ?_⟩, hb.imp fun {x y} hx hxy => .worked hxy (h.sound hx) fun ht => ?_⟩
  · by_cases hq : q = p
    · subst hq
      refine .of_none (by rw [hline, hnone]) fun y hy => ?_
      obtain ⟨x, hx, hxy⟩ := hb.exists_old hy
      exact hxy.inFlight.trans ((h.slots q).not_inFlight hnone hx)
    · exact (h.slots q).becomes (by rw [hline]) (hb.imp fun _ hxy => hxy.sameSlot hq)
  · rw [h.kept.distinct.eq_of_tag hx ho ht]
    exact OrderState.live_not_final hl

/-- The end of a slot. -/
theorem State.SlotsTrue.endSlot {s : State} {p : Phase} {ol : OnLine} {reply : Option LineReply} (h : s.SlotsTrue)
    (hon : (s.line p).onLine = some ol) (hm : ∀ r ∈ reply, r.margin ≤ 63) :
    (s.endSlot p reply).SlotsTrue ∧ s.orm.Becomes Order.Stands (s.endSlot p reply).orm := by
  have hline := State.endSlot_line hon hm
  have hnone : ((s.endSlot p reply).line p).slotOrder = none := Line.slotOrder_none (by rw [hline])
  have hother : ∀ q, q ≠ p → ((s.endSlot p reply).line q).slotOrder = (s.line q).slotOrder := fun q hq => by
    rw [(s.endSlot_outsideLine p hm).line q hq]
  have horm : (s.endSlot p reply).orm = (s.settledSlot p ol reply).orm := by rw [State.endSlot_eq hon]; rfl
  obtain ⟨tag, u, hw, hacts, he⟩ | ⟨g, hw, he⟩ := s.settledSlot_cases p ol hm
  · have hslot := Line.slotOrder_of_order hon hw
    obtain ⟨hu, hb⟩ := hacts.worked h.kept
    obtain ⟨hclosed, hended⟩ := State.clearInFlight_slotEnded h hslot hu hb
    rw [← he, ← horm] at hclosed hended
    exact h.slotEnded hclosed hended hnone hother
  · refine h.of_orm (by rw [horm, he]; rfl) fun q => ?_
    by_cases hq : q = p
    · subst hq
      rw [hnone, Line.slotOrder_of_refresh hon hw]
    · exact hother q hq

/-- An abort. -/
theorem State.SlotsTrue.abortSlot {s : State} (h : s.SlotsTrue) (p : Phase) :
    (s.abortSlot p).SlotsTrue ∧ s.orm.Becomes Order.Stands (s.abortSlot p).orm := by
  have hnone : ((s.abortSlot p).line p).slotOrder = none := Line.slotOrder_none (by rw [State.abortSlot_line]; rfl)
  have hother : ∀ q, q ≠ p → ((s.abortSlot p).line q).slotOrder = (s.line q).slotOrder := fun q hq => by
    rw [State.abortSlot_line_ne s hq]
  cases hslot : (s.line p).slotOrder with
  | none =>
    have he : s.abortSlot p = s.modLine p Line.abort := by
      obtain he | ⟨tag, ht, -⟩ := s.abortSlot_cases p
      · exact he
      · rw [hslot] at ht
        cases ht
    refine h.of_orm (by rw [he]; rfl) fun q => ?_
    by_cases hq : q = p
    · subst hq
      rw [hnone, hslot]
    · exact hother q hq
  | some tag =>
    have he : s.abortSlot p = ((s.modLine p Line.abort).modProgress tag p fun pp =>
        pp.goBack ((s.line p).onLine.bind fun ol => ol.before)).clearInFlight tag p := by
      unfold State.abortSlot
      rw [hslot]
    have hacts : OrderActs p tag (s.modLine p Line.abort) ((s.modLine p Line.abort).modProgress tag p fun pp =>
        pp.goBack ((s.line p).onLine.bind fun ol => ol.before)) :=
      .single (.progress fun _ o _ _ => by cases (s.line p).onLine.bind fun ol => ol.before <;> exact ⟨rfl, rfl, rfl⟩)
    obtain ⟨hu, hb⟩ := hacts.worked (show (s.modLine p Line.abort).orm.WellKept from h.kept)
    obtain ⟨hclosed, hended⟩ := State.clearInFlight_slotEnded h hslot hu hb
    rw [← he] at hclosed hended
    exact h.slotEnded hclosed hended hnone hother

theorem Order.serves_unique {s : State} (hd : s.orm.Distinct) {p : Phase} {tag : Tag} (h : Serves s p tag) {o : Order}
    (ho : o ∈ s.orm.table) (ht : o.tag = tag) : o.state.live = true ∧ (o.progress.get p).stage.active = true := by
  obtain ⟨x, hx, hxt, hl, ha⟩ := h
  rw [hd.eq_of_tag ho hx (ht.trans hxt.symm)]
  exact ⟨hl, ha⟩

/-- The beginning of a slot on a line without one. -/
theorem State.SlotsTrue.beginSlot {s : State} {p : Phase} {f : Frame} (h : s.SlotsTrue) (hnone : (s.line p).slotOrder = none)
    (hserves : ∀ tag, f.work = .order tag → Serves s p tag) :
    (s.beginSlot p f).SlotsTrue ∧ s.orm.Becomes Order.Stands (s.beginSlot p f).orm := by
  have hline := s.beginSlot_line p f
  have hother : ∀ q, q ≠ p → ((s.beginSlot p f).line q).slotOrder = (s.line q).slotOrder := fun q hq => by
    rw [(s.beginSlot_outsideLine p f).line q hq]
  cases hw : f.work with
  | refresh g =>
    refine h.of_orm (by simp only [State.beginSlot, hw]; rfl) fun q => ?_
    by_cases hq : q = p
    · subst hq
      rw [hline, hnone]
      simp only [Line.slotOrder, hw]
    · exact hother q hq
  | order tag =>
    have hslot : ((s.beginSlot p f).line p).slotOrder = some tag := by
      rw [hline]
      simp only [Line.slotOrder, hw]
    have horm : (s.beginSlot p f).orm = (s.modProgress tag p fun pp => pp.beginSlot f.step).orm := by
      simp only [State.beginSlot, hw]
      rfl
    have hfollows := FollowsTable.modProgress s tag p (f := fun pp => pp.beginSlot f.step)
      (fun pp => ⟨(pp.beginSlot_fields f.step).1, (pp.beginSlot_fields f.step).2.1⟩) h.kept
    have hserved := fun o ho ht => Order.serves_unique h.kept.distinct (hserves tag hw) (o := o) ho ht
    have hsame : s.orm.Becomes (fun o x => o.Stands x ∧ (∀ q, q ≠ p → o.SameSlot q x)
        ∧ (x.progress.get p).inFlight = decide (tag = o.tag) ∧ (x.RestsOn p ↔ o.RestsOn p) ∧ x.state = o.state)
        (s.beginSlot p f).orm := by
      rw [horm]
      refine State.modOrder_becomes (fun o ho ht => ⟨.of_not_final rfl (OrderState.live_not_final (hserved o ho ht).1),
        fun q hq => ⟨rfl, ?_, fun _ hf hr => ⟨hf, ?_⟩⟩, ?_, ?_, rfl⟩) fun o ho ht => ⟨.refl o, fun q _ => .refl q o, ?_, Iff.rfl, rfl⟩
      · simp [Order.modProgress, hq]
      · simpa [Order.RestsOn, Order.modProgress, hq] using hr
      · simpa [Order.modProgress, ht] using ((o.progress.get p).beginSlot_fields f.step).2.2
      · simp only [Order.RestsOn, Order.modProgress, Tri.get_set_same, ((o.progress.get p).beginSlot_fields f.step).1]
      · rw [(h.slots p).not_inFlight hnone ho]
        exact (decide_eq_false fun he => ht he.symm).symm
    refine ⟨⟨by rw [horm]; exact hfollows.1, fun q => ?_⟩, hsame.imp fun _ h => h.1⟩
    by_cases hq : q = p
    · subst hq
      refine ⟨fun x hx => ?_, fun tag' ht => ?_⟩
      · obtain ⟨o, ho, hst, -, hin, -⟩ := hsame.exists_old hx
        rw [hin, hslot, hst.tag]
        simp
      · rw [hslot] at ht
        cases ht
        obtain ⟨o, ho, hot, hl, ha⟩ := hserves tag hw
        obtain ⟨x, hx, hst, -, -, hrests, hstate⟩ := hsame.exists_new ho
        refine ⟨x, hx, hst.tag.trans hot, by rw [hstate]; exact OrderState.live_not_final hl, fun hr => ?_⟩
        obtain he | he := hrests.mp hr <;> rw [he] at ha <;> cases ha
    · exact (h.slots q).becomes (hother q hq) (hsame.imp fun _ h => h.2.1 q hq)

end Sys2Proof.Machine
end

section
/-! PROOF. Slot in flight, what a slot begins with, and final records over every step (O54, O55). -/

namespace Sys2Proof.Machine

open Relation (ReflTransGen)

/-! ### The acts of a line controller and of the owners -/

theorem Line.takeHold_onLine (l : Line) : l.takeHold.onLine = l.onLine := by
  unfold Line.takeHold
  split <;> rfl

/-- A change of one line controller that leaves its frame on line. -/
theorem State.SlotsTrue.modLine {s : State} (h : s.SlotsTrue) {p : Phase} {f : Line → Line}
    (hf : (f (s.line p)).onLine = (s.line p).onLine) :
    (s.modLine p f).SlotsTrue ∧ s.orm.Becomes Order.Stands (s.modLine p f).orm :=
  h.of_orm rfl fun q => by
    by_cases hq : q = p
    · subst hq
      rw [State.line_modLine_same]
      exact Line.slotOrder_congr hf
    · rw [State.line_modLine_ne _ _ hq]

theorem LineAct.slotsTrue {p : Phase} {s t : State} (h : LineAct p s t) (hl : s.LinesSound) (hs : s.SlotsTrue) :
    t.SlotsTrue ∧ s.orm.Becomes Order.Stands t.orm := by
  have hidle : (s.line p).Idle → (s.line p).slotOrder = none := fun hi =>
    Line.slotOrder_none ((hl.line p).1.idle hi).2.1
  cases h with
  | pick => exact hs.of_orm rfl fun _ => rfl
  | settle hserves hi h => exact hs.settled hserves (hidle hi) h
  | serve hserves =>
    obtain ⟨o, ho, rfl, hlive, -⟩ := id hserves
    exact hs.becomes (State.takeService_worked hs.kept ho hlive p).1 (fun _ => rfl) (State.takeService_staysTrue hs.kept hserves)
  | beginSlot _ hi _ _ hserves => exact hs.beginSlot (hidle hi) hserves
  | @endSlot ol st tx reply hon hm =>
    obtain ⟨hmod, hb⟩ := hs.modLine (p := p) (f := fun l => { l with stats := st l.stats, txEnable := tx && l.txEnable }) rfl
    obtain ⟨hend, hb'⟩ := hmod.endSlot (p := p) (reply := reply) (by rwa [State.line_modLine_same]) hm
    obtain ⟨hhold, hb''⟩ := hend.modLine (p := p) (f := Line.takeHold) (Line.takeHold_onLine _)
    exact ⟨hhold, (hb.trans hb' Order.Stands.trans).trans hb'' Order.Stands.trans⟩
  | hold => exact hs.modLine (Line.takeHold_onLine _)
  | toQuiet hon _ _ hf => exact hs.modLine (by rw [hf])
  | _ => exact hs.modLine rfl

/-- The slots are true after a stretch's act, and final records stand. -/
def KeepsSlots (k : Stretch) (s t : State) : Prop :=
  s.LinesSound → s.SlotsTrue → t.SlotsTrue ∧ s.orm.Evolves Order.Stands k t.orm

theorem KeepsSlots.of_becomes {k : Stretch} {s t : State}
    (h : s.LinesSound → s.SlotsTrue → t.SlotsTrue ∧ s.orm.Becomes Order.Stands t.orm) : KeepsSlots k s t := fun hl hs =>
  ⟨(h hl hs).1, (h hl hs).2.evolves k⟩

theorem KeepsSlots.keepsRecords {k : Stretch} {s t : State} (hk : KeepsRecords s t) (hon : ∀ p, (t.line p).onLine = (s.line p).onLine) :
    KeepsSlots k s t :=
  .of_becomes fun _ hs => hs.keepsRecords hk fun p => Line.slotOrder_congr (hon p)

theorem KeepsSlots.of_orm {k : Stretch} {s t : State} (h : t.orm = s.orm) (hon : ∀ p, (t.line p).onLine = (s.line p).onLine) :
    KeepsSlots k s t :=
  .keepsRecords (.of_orm .refl h) hon

theorem KeepsSlots.modLine {k : Stretch} {s : State} {p : Phase} {f : Line → Line}
    (hf : (f (s.line p)).onLine = (s.line p).onLine) : KeepsSlots k s (s.modLine p f) :=
  .of_becomes fun _ hs => hs.modLine hf

theorem KeepsRecords.noteTimes {s u : State} (h : u.orm = s.orm) : KeepsRecords s u.noteTimes :=
  KeepsTable.trans (G := Order.Kept) (fun h k => h.trans k) (.of_orm .refl h) u.noteTimes_keepsRecords

/-- A new order has no slot in flight, and no slot serves it. -/
theorem State.SlotsTrue.enroll {s : State} (hs : s.SlotsTrue) {f : SubmitFields} {q : Submission}
    (hq : submissionOf f s.now = some q) (hcap : s.orm.table.length < Config.orderCapacity) :
    (s.enroll (admittedOrder s f q s.orm.freeTag)).SlotsTrue
      ∧ s.orm.Evolves Order.Stands .admitting (s.enroll (admittedOrder s f q s.orm.freeTag)).orm := by
  have hfresh := State.freeTag_fresh hcap
  obtain ⟨g, htable, hg⟩ := State.enroll_table hs.kept (o := admittedOrder s f q s.orm.freeTag) hfresh
  have hslot : ∀ p, ((s.enroll (admittedOrder s f q s.orm.freeTag)).line p).slotOrder = (s.line p).slotOrder := fun p =>
    Line.slotOrder_congr (s.enroll_line _ p).onLine
  have hsame : ∀ o ∈ s.orm.table, o.StaysTrue (g o) := fun o ho => (hg o ho).1.staysTrue (hs.sound ho)
  refine ⟨⟨State.enroll_wellKept hs.kept hq hcap, fun p => ?_⟩,
    fun _ o ho => ⟨g o, by rw [htable]; exact List.mem_append_left _ (List.mem_map_of_mem ho), (hsame o ho).1⟩,
    fun h => absurd rfl h⟩
  have hold := State.SlotAgrees.becomes (t := { s with orm := { s.orm with table := s.orm.table.map g } }) (hs.slots p) rfl
    ⟨g, rfl, fun o ho => (hsame o ho).2 p⟩
  refine ⟨fun x hx => ?_, fun tag ht => ?_⟩
  · rw [hslot]
    rw [htable] at hx
    obtain hx | hx := List.mem_append.mp hx
    · exact hold.inFlight x hx
    · obtain rfl := List.mem_singleton.mp hx
      rw [admittedOrder_progress, (Progress.fresh_fields _ _).2.1]
      refine (decide_eq_false fun ht => hfresh ?_).symm
      obtain ⟨o, ho, hot, -⟩ := (hs.slots p).served _ ht
      exact List.mem_map.mpr ⟨o, ho, hot⟩
  · rw [hslot] at ht
    obtain ⟨x, hx, hrest⟩ := hold.served tag ht
    exact ⟨x, by rw [htable]; exact List.mem_append_left _ hx, hrest⟩

theorem OwnerAct.keepsSlots {k : Stretch} {s t : State} (h : OwnerAct k s t) : KeepsSlots k s t := by
  cases h with
  | check h => exact .keepsRecords h.keepsRecords fun p => (h.outside.lines p).onLine
  | reset =>
    refine fun _ hs => ⟨⟨(OwnerAct.keepsOrders (.reset s) hs.kept).1, fun p => .of_none ?_ fun x hx => ?_⟩,
      fun h => absurd rfl h, fun _ x hx => ?_⟩
    · exact Line.slotOrder_none (by cases p <;> rfl)
    · cases hx
    · cases hx
  | enroll hq hcap => exact fun _ hs => hs.enroll hq hcap
  | @release _ tag o ho hf =>
    intro _ hs
    have hmem : ∀ {x : Order}, x ∈ s.orm.table.filter (fun x => x.tag != tag) → x ∈ s.orm.table := fun h =>
      (List.mem_filter.mp h).1
    refine ⟨⟨(OwnerAct.keepsOrders (.release ho hf) hs.kept).1, fun p => ⟨fun x hx => (hs.slots p).inFlight x (hmem hx),
      fun t ht => ?_⟩⟩, fun h => absurd rfl h, fun _ x hx => ⟨x, hmem hx, .refl x⟩⟩
    obtain ⟨x, hx, hxt, hxf, hrest⟩ := (hs.slots p).served t ht
    refine ⟨x, List.mem_filter.mpr ⟨hx, bne_iff_ne.mpr fun he => ?_⟩, hxt, hxf, hrest⟩
    rw [State.findOrder_unique ho hs.kept.distinct hx he, hf] at hxf
    cases hxf
  | floor _ hn =>
    exact .of_becomes fun _ hs => hs.becomes (OwnerAct.keepsOrders (k := k) (.floor s hn) hs.kept).1 (fun _ => rfl)
      (.same rfl fun o _ => .refl o)
  | tagCounter htable n =>
    exact .of_becomes fun _ hs => hs.becomes (OwnerAct.keepsOrders (k := k) (.tagCounter htable n) hs.kept).1 (fun _ => rfl)
      (.same rfl fun o _ => .refl o)
  | pendHold | holdNow | resume | zeroStats => exact .modLine rfl
  | setClock => exact .keepsRecords (.noteTimes rfl) fun _ => rfl
  | unstage => exact .of_orm rfl fun p => by rw [State.line_mapLines]; rfl
  | _ => exact .of_orm rfl fun _ => rfl

/-! ### Every act -/

theorem State.SlotsTrue.quietLines {s t : State} (h : s.SlotsTrue) (horm : t.orm = s.orm) (hl : t.lines = s.lines) :
    t.quietLines.SlotsTrue ∧ s.orm.Becomes Order.Stands t.quietLines.orm :=
  State.quietLines_induct (P := fun u => u.SlotsTrue ∧ s.orm.Becomes Order.Stands u.orm) t
    (fun u n hu => ⟨(hu.1.of_orm (t := { u with picks := n }) rfl fun _ => rfl).1, hu.2⟩)
    (fun u p hu => ⟨(hu.1.abortSlot p).1, hu.2.trans (hu.1.abortSlot p).2 Order.Stands.trans⟩)
    (h.of_orm horm fun p => by
      rw [State.line_mapLines, State.line, hl]
      rfl)

theorem State.SlotsTrue.losePhase {s : State} (h : s.SlotsTrue) (p : Phase) :
    (s.losePhase p).SlotsTrue ∧ s.orm.Becomes Order.Stands (s.losePhase p).orm := by
  obtain ⟨n, hn⟩ := s.lossMoment_eq p
  have hline : ∀ {u : State}, u.SlotsTrue → (u.loseLine p).SlotsTrue ∧ u.orm.Becomes Order.Stands (u.loseLine p).orm := fun hu => by
    unfold State.loseLine
    dsimp only
    obtain ⟨hcut, hb⟩ := hu.modLine (p := p) (f := fun l => { l.cutReception with causes := { l.causes with lost := true } }) rfl
    split
    · exact ⟨(hcut.abortSlot p).1, hb.trans (hcut.abortSlot p).2 Order.Stands.trans⟩
    · obtain ⟨hdis, hb'⟩ := hcut.modLine (p := p) (f := Line.discardStaged) rfl
      exact ⟨hdis, hb.trans hb' Order.Stands.trans⟩
  rw [State.losePhase_eq, hn]
  have hlost : ((s.advanceTo n).setMains p (s.mains p).lose).SlotsTrue :=
    (h.of_orm (t := (s.advanceTo n).setMains p (s.mains p).lose) rfl fun _ => rfl).1
  exact ⟨((hline hlost).1.of_orm (t := State.post _ _) rfl fun _ => rfl).1, (hline hlost).2⟩

theorem State.returnIfDue_onLine (s : State) (p q : Phase) : ((s.returnIfDue p).line q).onLine = (s.line q).onLine := by
  obtain ⟨he, -⟩ | ⟨-, he⟩ := s.returnIfDue_cases p <;> rw [he]
  rw [State.returnPhase_line]
  split
  next h => rw [h]
  · rfl

theorem State.completeWrite_onLine (s : State) (equal : Bool) (p : Phase) :
    ((s.completeWrite equal).line p).onLine = (s.line p).onLine := by
  have hend : ∀ code, ((endProgramming code equal s).1.line p).onLine = (s.line p).onLine := fun code => by
    rw [endProgramming_eq]
    split
    · rw [State.line_mapLines]
      rfl
    · rfl
  obtain ⟨-, he⟩ | ⟨code, -, ⟨-, he⟩ | ⟨_, -, he⟩⟩ := s.completeWrite_cases equal <;> rw [he]
  · exact hend code
  · exact hend code

theorem State.advanceSubcount_lines (s : State) : s.advanceSubcount.lines = s.lines := by
  unfold State.advanceSubcount
  dsimp only
  split <;> rfl

theorem State.releaseQuiet_onLine (s : State) (p : Phase) : (s.releaseQuiet.line p).onLine = (s.line p).onLine := by
  obtain ⟨he, -⟩ | ⟨n, -, he⟩ := s.releaseQuiet_cases <;> rw [he]
  rw [State.line_post, State.line_mapLines]
  rfl

theorem State.line_of_lines {s t : State} (h : t.lines = s.lines) (p : Phase) : t.line p = s.line p := by
  rw [State.line, h]
  rfl

theorem Act.keepsSlots {k : Stretch} {s t : State} (h : Act k s t) : KeepsSlots k s t := by
  cases h with
  | owner h => exact h.keepsSlots
  | line h => exact .of_becomes h.slotsTrue
  | closingEnd tag =>
    exact .keepsRecords (s.closingEnd_keepsRecords tag) fun p => by rw [State.line_of_lines (s.closingEnd_lines tag)]
  | holdRecord rec =>
    obtain ⟨r, he⟩ := s.holdRecord_blocks rec
    rw [he]
    exact .of_orm rfl fun _ => rfl
  | written equal => exact .of_orm (s.completeWrite_orm equal) (s.completeWrite_onLine equal)
  | returning => exact .of_orm (by rw [State.returnIfDue_orm]; rfl) fun q => by rw [State.returnIfDue_onLine]; rfl
  | returned p => exact .of_orm (s.returnIfDue_orm p) (s.returnIfDue_onLine p)
  | lost => exact .of_becomes fun _ hs => hs.losePhase _
  | subcount => exact .of_orm s.advanceSubcount_orm fun p => by rw [State.line_of_lines s.advanceSubcount_lines]
  | tick => exact .keepsRecords (.noteTimes rfl) fun _ => rfl
  | quietOff => exact .of_orm s.releaseQuiet_orm s.releaseQuiet_onLine
  | quietOn => exact .of_becomes fun _ hs => hs.quietLines rfl rfl
  | _ => exact .of_orm rfl fun _ => rfl

/-- What a stretch of a step keeps of the lines and the slots. -/
def KeepsTrue (k : Stretch) (s t : State) : Prop :=
  s.LinesSound → s.SlotsTrue → t.LinesSound ∧ t.SlotsTrue ∧ s.orm.Evolves Order.Stands k t.orm

theorem KeepsTrue.refl (k : Stretch) (s : State) : KeepsTrue k s s := fun hl hs =>
  ⟨hl, hs, (Orm.Becomes.same rfl fun o _ => Order.Stands.refl o).evolves k⟩

theorem KeepsTrue.trans {k : Stretch} {s t u : State} (h : KeepsTrue k s t) (h' : KeepsTrue k t u) : KeepsTrue k s u :=
  fun hl hs => by
    obtain ⟨htl, hts, hst⟩ := h hl hs
    obtain ⟨hul, hus, htu⟩ := h' htl hts
    exact ⟨hul, hus, hst.trans (G := Order.Stands) (fun h k => h.trans k) htu⟩

theorem KeepsTrue.same {k : Stretch} {s t : State} (hk : KeepsLines s t) (h : KeepsSlots k s t) : KeepsTrue k s t := fun hl hs =>
  ⟨(hk hl).1, h hl hs⟩

theorem StepAct.keepsTrue {k : Stretch} {s t : State} (h : StepAct k s t) : KeepsTrue k s t := by
  cases h with
  | pending q => exact .same (.of_same rfl rfl rfl) (.of_orm rfl fun _ => rfl)
  | act h => exact .same h.keepsLines h.keepsSlots
  | lastByte h => cases h <;> exact .same (.of_same rfl rfl rfl) (.of_orm rfl fun _ => rfl)

/-- A step that is no power-up keeps the lines and the slots as one stretch does. -/
theorem step_keepsTrue {s t : State} (h : step s = .next t) :
    (∃ u quiet touched, t = State.powerOn u quiet touched) ∨ ∃ k, KeepsTrue k s t := by
  obtain ⟨quiet, touched, rest, -, rfl⟩ | ⟨-, u, hcross, k, -, hacts⟩ := step_acts h
  · exact .inl ⟨_, quiet, touched, rfl⟩
  · have hfirst : KeepsTrue .crossing s u := acts_induct (KeepsTrue.refl _) KeepsTrue.trans StepAct.keepsTrue hcross
    have hlast : KeepsTrue k u t := acts_induct (KeepsTrue.refl _) KeepsTrue.trans StepAct.keepsTrue hacts
    refine .inr ⟨k, KeepsTrue.trans (t := u) (fun hl hs => ?_) hlast⟩
    obtain ⟨htl, hts, hst⟩ := hfirst hl hs
    exact ⟨htl, hts, hst.crossing k⟩

/-- Settles O55, by the acts of a step: none changes more of a final record than its mark. -/
theorem finalOrdersStand : Obligations.FinalOrdersStand := by
  intro s t hl hs hd hslots h o ho hf x hx ht
  obtain ⟨u, quiet, touched, rfl⟩ | ⟨k, hk⟩ := step_keepsTrue h
  · exact absurd hx List.not_mem_nil
  · obtain ⟨-, htrue, hevolves⟩ := hk hl ⟨⟨hs, hd⟩, s.slotsAgree_iff.mp hslots⟩
    exact (hevolves.related (fun h => h.tag) hd htrue.kept.distinct ho hx ht).final hf

end Sys2Proof.Machine
end

section
/-! PROOF. What a slot begins with stands until it ends (O54; R46, R132). -/

namespace Sys2Proof.Machine

open Relation (ReflTransGen)

/-- A line controller's frame on line after a stretch: the one before, none, or after a crossing one that began at it. -/
structure KeepsStarts (k : Stretch) (s t : State) : Prop where
  hc : k ≠ .crossing → ∀ p, (t.mains p).hc = (s.mains p).hc
  onLine : ∀ p, (t.line p).onLine = (s.line p).onLine ∨ (t.line p).onLine = none
    ∨ (k ≠ .crossing ∧ ∃ ol, (t.line p).onLine = some ol ∧ ol.start = (t.mains p).hc)

theorem KeepsStarts.trans {k : Stretch} {s t u : State} (h : KeepsStarts k s t) (h' : KeepsStarts k t u) : KeepsStarts k s u where
  hc hk p := (h'.hc hk p).trans (h.hc hk p)
  onLine p := by
    obtain he' | he' | he' := h'.onLine p
    · obtain he | he | ⟨hk, ol, hol, hstart⟩ := h.onLine p
      · exact .inl (he'.trans he)
      · exact .inr (.inl (he'.trans he))
      · exact .inr (.inr ⟨hk, ol, he'.trans hol, hstart.trans (h'.hc hk p).symm⟩)
    · exact .inr (.inl he')
    · exact .inr (.inr he')

theorem KeepsStarts.of_mains {k : Stretch} {s t : State} (hm : ∀ p, (t.mains p).hc = (s.mains p).hc)
    (hon : ∀ p, (t.line p).onLine = (s.line p).onLine ∨ (t.line p).onLine = none) : KeepsStarts k s t :=
  ⟨fun _ => hm, fun p => (hon p).imp_right .inl⟩

theorem KeepsStarts.of_same {k : Stretch} {s t : State} (hm : t.mtb = s.mtb)
    (hon : ∀ p, (t.line p).onLine = (s.line p).onLine) : KeepsStarts k s t :=
  .of_mains (fun p => by rw [State.mains, hm]; rfl) fun p => .inl (hon p)

theorem KeepsStarts.refl (k : Stretch) (s : State) : KeepsStarts k s s := .of_same rfl fun _ => rfl

theorem LineAct.onLine {p : Phase} {s t : State} (h : LineAct p s t) :
    (t.line p).onLine = (s.line p).onLine ∨ (t.line p).onLine = none
      ∨ ∃ ol, (t.line p).onLine = some ol ∧ ol.start = (t.mains p).hc := by
  cases h with
  | pick | serve => exact .inl rfl
  | settle _ _ h => exact .inl (by rw [h.outside.line p])
  | @beginSlot f =>
    refine .inr (.inr ⟨_, by rw [s.beginSlot_line p f], ?_⟩)
    show (s.mains p).hc = ((s.beginSlot p f).mtb.phases.get p).hc
    rw [(s.beginSlot_outsideLine p f).mtb]
    rfl
  | @endSlot ol st tx reply hon hm =>
    have hon' : ((s.modLine p fun l => { l with stats := st l.stats, txEnable := tx && l.txEnable }).line p).onLine = some ol := by
      rwa [State.line_modLine_same]
    refine .inr (.inl ?_)
    rw [State.line_modLine_same, Line.takeHold_onLine, State.endSlot_line hon' hm]
  | hold => exact .inl (by rw [State.line_modLine_same, Line.takeHold_onLine])
  | toQuiet hon _ _ hf => exact .inl (by rw [State.line_modLine_same, hf])
  | discard | stats => exact .inl (by rw [State.line_modLine_same]; rfl)
  | stage | toSend | waiting => exact .inl (by rw [State.line_modLine_same])

theorem LineAct.keepsStarts {k : Stretch} {p : Phase} {s t : State} (h : LineAct p s t) (hk : k ≠ .crossing) : KeepsStarts k s t := by
  have hmains : ∀ q, t.mains q = s.mains q := fun q => by rw [State.mains, h.outside.mtb]; rfl
  refine ⟨fun _ q => by rw [hmains], fun q => ?_⟩
  by_cases hq : q = p
  · subst hq
    exact h.onLine.imp_right fun h => h.imp_right fun h => ⟨hk, h⟩
  · exact .inl (by rw [h.outside.line q hq])

theorem KeepsStarts.modLine {k : Stretch} {s : State} {p : Phase} {f : Line → Line}
    (hf : (f (s.line p)).onLine = (s.line p).onLine) : KeepsStarts k s (s.modLine p f) :=
  .of_same rfl fun q => by
    by_cases hq : q = p
    · subst hq
      rw [State.line_modLine_same, hf]
    · rw [State.line_modLine_ne _ _ hq]

theorem OwnerAct.keepsStarts {k : Stretch} {s t : State} (h : OwnerAct k s t) : KeepsStarts k s t := by
  cases h with
  | check h => exact .of_same h.outside.mtb fun p => (h.outside.lines p).onLine
  | reset => exact .of_mains (fun _ => rfl) fun p => .inr (by cases p <;> rfl)
  | enroll => exact .of_same (s.enroll_mtb _) fun p => (s.enroll_line _ p).onLine
  | pendHold | holdNow | resume | zeroStats => exact .modLine rfl
  | setClock => exact .of_mains (fun _ => rfl) fun _ => .inl rfl
  | unstage => exact .of_same rfl fun p => by rw [State.line_mapLines]; rfl
  | _ => exact .of_same rfl fun _ => rfl

theorem State.setMains_hc {s : State} {p : Phase} {m : Mains} (h : m.hc = (s.mains p).hc) (q : Phase) :
    ((s.setMains p m).mains q).hc = (s.mains q).hc := by
  by_cases hq : q = p
  · subst hq
    rw [State.mains_setMains_same, h]
  · rw [State.mains_setMains_ne _ _ hq]

theorem Mains.countReturn_hc (m : Mains) (n : Nat) (i : Option Nat) : (m.countReturn n i).hc = m.hc := by
  unfold Mains.countReturn
  dsimp only
  split
  · split <;> rfl
  · rfl

theorem State.returnIfDue_hc (s : State) (p q : Phase) : ((s.returnIfDue p).mains q).hc = (s.mains q).hc := by
  obtain ⟨he, -⟩ | ⟨-, he⟩ := s.returnIfDue_cases p <;> rw [he]
  exact State.setMains_hc (p := p) (m := { s.mains p with presence := .present, period := periodOf (s.mains p).history }) rfl q

theorem Act.keepsStarts {k : Stretch} {s t : State} (h : Act k s t) : KeepsStarts k s t := by
  cases h with
  | owner h => exact h.keepsStarts
  | line h hk => exact h.keepsStarts hk
  | closingEnd tag =>
    exact .of_same (s.closingEnd_outside tag).mtb fun p => by rw [State.line_of_lines (s.closingEnd_lines tag)]
  | holdRecord rec =>
    obtain ⟨r, he⟩ := s.holdRecord_blocks rec
    rw [he]
    exact .of_same rfl fun _ => rfl
  | written equal => exact .of_same (s.completeWrite_mtb equal) (s.completeWrite_onLine equal)
  | crossed n h hk => exact ⟨fun hno => absurd hk hno, fun _ => .inl rfl⟩
  | returning n h =>
    refine .of_mains (fun q => ?_) fun q => .inl (by rw [State.returnIfDue_onLine]; rfl)
    rw [State.returnIfDue_hc, State.setMains_hc (Mains.countReturn_hc _ _ _)]
  | returned p => exact .of_mains (s.returnIfDue_hc p) fun q => .inl (s.returnIfDue_onLine p q)
  | @lost p =>
    refine .of_mains (fun q => ?_) fun q => ?_
    · rw [State.losePhase_mains]
      split
      next h => rw [h]; rfl
      · rfl
    · rw [State.losePhase_line]
      split
      next h =>
        rw [h]
        unfold Line.lost
        dsimp only
        split
        · exact .inr rfl
        · exact .inl rfl
      · exact .inl rfl
  | subcount =>
    refine .of_mains (fun p => ?_) fun p => .inl (by rw [State.line_of_lines s.advanceSubcount_lines])
    unfold State.advanceSubcount
    dsimp only
    split <;> rfl
  | quietOff =>
    refine .of_mains (fun p => ?_) fun p => .inl (s.releaseQuiet_onLine p)
    obtain ⟨he, -⟩ | ⟨n, -, he⟩ := s.releaseQuiet_cases <;> rw [he]
    rfl
  | quietOn =>
    refine .of_mains (fun p => by rw [State.quietLines_mains]; rfl) fun p => ?_
    rw [State.quietLines_line]
    split
    · exact .inr rfl
    · exact .inl rfl
  | advance | tick | quietStays | quietInput => exact .of_mains (fun _ => rfl) fun _ => .inl rfl
  | _ => exact .of_same rfl fun _ => rfl

theorem StepAct.keepsStarts {k : Stretch} {s t : State} (h : StepAct k s t) : KeepsStarts k s t := by
  cases h with
  | pending q => exact .of_same rfl fun _ => rfl
  | act h => exact h.keepsStarts
  | lastByte h => cases h <;> exact .of_same rfl fun _ => rfl

/-- The frame on line after a step that is no power-up is the one before it, or began at the phase's half-cycle count. -/
theorem step_onLine {s t : State} (h : step s = .next t) {p : Phase} {ol ol' : OnLine} (hon : (s.line p).onLine = some ol)
    (hon' : (t.line p).onLine = some ol') : ol' = ol ∨ ol'.start = (t.mains p).hc := by
  obtain ⟨quiet, touched, rest, -, rfl⟩ | ⟨-, u, hcross, k, hk, hacts⟩ := step_acts h
  · rw [State.powerOn_line] at hon'
    cases hon'
  · have hfirst : KeepsStarts .crossing s u := acts_induct (KeepsStarts.refl _) KeepsStarts.trans StepAct.keepsStarts hcross
    have hlast : KeepsStarts k u t := acts_induct (KeepsStarts.refl _) KeepsStarts.trans StepAct.keepsStarts hacts
    obtain he | he | ⟨-, x, hx, hstart⟩ := hlast.onLine p
    · obtain he' | he' | ⟨hno, -⟩ := hfirst.onLine p
      · rw [he, he', hon] at hon'
        exact .inl (Option.some.inj hon').symm
      · rw [he, he'] at hon'
        cases hon'
      · exact absurd rfl hno
    · rw [he] at hon'
      cases hon'
    · rw [hx] at hon'
      cases hon'
      exact .inr hstart

/-- Settles O54, by the acts of a step: each keeps slot in flight true, and a frame on line is replaced only where a slot begins. -/
theorem slotsInFlightStayTrue : Obligations.SlotsInFlightStayTrue := by
  intro s t hl hs hd hslots h
  refine ⟨t.slotsAgree_iff.mpr ?_, fun p ol ol' => step_onLine h⟩
  obtain ⟨u, quiet, touched, rfl⟩ | ⟨k, hk⟩ := step_keepsTrue h
  · exact fun p => .of_none (Line.slotOrder_none (by rw [State.powerOn_line]; rfl)) fun x hx => absurd hx List.not_mem_nil
  · obtain ⟨-, htrue, -⟩ := hk hl ⟨⟨hs, hd⟩, s.slotsAgree_iff.mp hslots⟩
    exact htrue.slots

end Sys2Proof.Machine
end

section
/-! PROOF. Bytes and records on the link: fields and their bytes, the envelope, the receiver and its records (O1 to O6; R143, R145,
R146, R164, R166). -/

namespace Sys2Proof.Machine

/-! ### Fields and their bytes (R164) -/

theorem bytes16_joined (v : BitVec 16) : (v.extractLsb' 8 8 ++ v.extractLsb' 0 8 : BitVec 16) = v := by
  rw [BitVec.extractLsb'_append_extractLsb'_eq_extractLsb' (by rfl)]
  exact BitVec.extractLsb'_eq_self

theorem bytes24_joined (v : BitVec 24) : (v.extractLsb' 16 8 ++ v.extractLsb' 8 8 ++ v.extractLsb' 0 8 : BitVec 24) = v := by
  rw [BitVec.extractLsb'_append_extractLsb'_eq_extractLsb' (by rfl), BitVec.extractLsb'_append_extractLsb'_eq_extractLsb' (by rfl)]
  exact BitVec.extractLsb'_eq_self

theorem bytes32_joined (v : BitVec 32) :
    (v.extractLsb' 24 8 ++ v.extractLsb' 16 8 ++ v.extractLsb' 8 8 ++ v.extractLsb' 0 8 : BitVec 32) = v := by
  rw [BitVec.extractLsb'_append_extractLsb'_eq_extractLsb' (by rfl), BitVec.extractLsb'_append_extractLsb'_eq_extractLsb' (by rfl),
    BitVec.extractLsb'_append_extractLsb'_eq_extractLsb' (by rfl)]
  exact BitVec.extractLsb'_eq_self

/-- A field read at the offset where its bytes stand. -/
theorem word16_at {l : List Byte} {i : Nat} {v : BitVec 16} (h : byteAt l i = v.extractLsb' 8 8)
    (h' : byteAt l (i + 1) = v.extractLsb' 0 8) : word16 l i = v := by
  rw [word16, h, h', bytes16_joined]

theorem word24_at {l : List Byte} {i : Nat} {v : BitVec 24} (h : byteAt l i = v.extractLsb' 16 8)
    (h' : byteAt l (i + 1) = v.extractLsb' 8 8) (h'' : byteAt l (i + 2) = v.extractLsb' 0 8) : word24 l i = v := by
  rw [word24, h, h', h'', bytes24_joined]

theorem word32_at {l : List Byte} {i : Nat} {v : BitVec 32} (h0 : byteAt l i = v.extractLsb' 24 8)
    (h1 : byteAt l (i + 1) = v.extractLsb' 16 8) (h2 : byteAt l (i + 2) = v.extractLsb' 8 8)
    (h3 : byteAt l (i + 3) = v.extractLsb' 0 8) : word32 l i = v := by
  rw [word32, h0, h1, h2, h3, bytes32_joined]

theorem putFieldsOf_putBytes (f : PutFields) : putFieldsOf (putBytes f) = f := by
  have hindex : word16 (putBytes f) 0 = f.index := word16_at rfl rfl
  have haddress : word24 (putBytes f) 2 = f.address := word24_at rfl rfl rfl
  have hgroups : word16 (putBytes f) 6 = f.groups := word16_at rfl rfl
  have hhop1 : word16 (putBytes f) 9 = f.hop1 := word16_at rfl rfl
  have hhop2 : word16 (putBytes f) 11 = f.hop2 := word16_at rfl rfl
  rw [putFieldsOf, hindex, haddress, hgroups, hhop1, hhop2]
  rfl

theorem submitFieldsOf_submitBytes (f : SubmitFields) : submitFieldsOf (submitBytes f) = f := by
  have htarget : word16 (submitBytes f) 2 = f.target := word16_at rfl rfl
  have hrestore : word16 (submitBytes f) 5 = f.restore := word16_at rfl rfl
  have heffective : word32 (submitBytes f) 9 = f.effective := word32_at rfl rfl rfl rfl
  have hexpiry : word32 (submitBytes f) 13 = f.expiry := word32_at rfl rfl rfl rfl
  rw [submitFieldsOf, htarget, hrestore, heffective, hexpiry]
  rfl

/-! ### The envelope (R146, R166) -/

theorem bodyLength_requestType (r : Request) : bodyLength (requestType r) = some (requestBody r).length := by
  cases r <;> rfl

/-- The fields of a request are read back from its body. -/
theorem requestOf_requestBody (r : Request) : requestOf (requestType r) (requestBody r) = some r := by
  cases r with
  | setTime v => exact congrArg (fun v => some (Request.setTime v)) (word32_at rfl rfl rfl rfl)
  | setConfig id v => exact congrArg (fun v => some (Request.setConfig id v)) (word16_at rfl rfl)
  | writeSite c => exact congrArg (fun c => some (Request.writeSite c)) (word24_at rfl rfl rfl)
  | housePut f => exact congrArg (fun f => some (Request.housePut f)) (putFieldsOf_putBytes f)
  | houseGet i => exact congrArg (fun i => some (Request.houseGet i)) (word16_at rfl rfl)
  | houseRemove i => exact congrArg (fun i => some (Request.houseRemove i)) (word16_at rfl rfl)
  | houseFind a => exact congrArg (fun a => some (Request.houseFind a)) (word24_at rfl rfl rfl)
  | freeze first last mode =>
    have hfirst : word16 (requestBody (.freeze first last mode)) 0 = first := word16_at rfl rfl
    have hlast : word16 (requestBody (.freeze first last mode)) 2 = last := word16_at rfl rfl
    exact congrArg₂ (fun f l => some (Request.freeze f l mode)) hfirst hlast
  | thaw first last =>
    have hfirst : word16 (requestBody (.thaw first last)) 0 = first := word16_at rfl rfl
    have hlast : word16 (requestBody (.thaw first last)) 2 = last := word16_at rfl rfl
    exact congrArg₂ (fun f l => some (Request.thaw f l)) hfirst hlast
  | orderSubmit f => exact congrArg (fun f => some (Request.orderSubmit f)) (submitFieldsOf_submitBytes f)
  | orderRead t x => exact congrArg (fun t => some (Request.orderRead t x)) (word16_at rfl rfl)
  | orderCancel t => exact congrArg (fun t => some (Request.orderCancel t)) (word16_at rfl rfl)
  | orderRelease t => exact congrArg (fun t => some (Request.orderRelease t)) (word16_at rfl rfl)
  | _ => rfl

/-- Settles O3, by the length of each request's body and the reading of each field at its offset. -/
theorem requestRoundTrip : Obligations.RequestRoundTrip := fun r => by
  simp only [checkEnvelope, requestRecord, ne_eq, not_true_eq_false, if_false, bodyLength_requestType, requestOf_requestBody,
    if_true]

theorem mem_catalogue_iff {type : Byte} {n : Nat} : (type, n) ∈ catalogue ↔ bodyLength type = some n := by
  have hnodup : (catalogue.map (·.1)).Nodup := by decide
  unfold bodyLength
  constructor
  · intro h
    cases hf : catalogue.find? fun e => e.1 == type with
    | none => exact absurd (List.find?_eq_none.mp hf _ h) (by simp)
    | some e =>
      have he : e.1 = type := by simpa using List.find?_some hf
      rw [List.inj_on_of_nodup_map hnodup (List.mem_of_find?_eq_some hf) h he]
      rfl
  · intro h
    obtain ⟨e, he, rfl⟩ := Option.map_eq_some_iff.mp h
    have ht : e.1 = type := by simpa using List.find?_some he
    rw [← ht]
    exact List.mem_of_find?_eq_some he

/-- A catalogued type spells a request from every body. -/
theorem requestOf_ne_none {type : Byte} {n : Nat} (h : (type, n) ∈ catalogue) (b : List Byte) :
    ∃ r, requestOf type b = some r := by
  simp only [catalogue, List.mem_cons, Prod.mk.injEq, List.not_mem_nil, or_false] at h
  rcases h with ⟨rfl, -⟩ | ⟨rfl, -⟩ | ⟨rfl, -⟩ | ⟨rfl, -⟩ | ⟨rfl, -⟩ | ⟨rfl, -⟩ | ⟨rfl, -⟩ | ⟨rfl, -⟩ | ⟨rfl, -⟩ | ⟨rfl, -⟩
    | ⟨rfl, -⟩ | ⟨rfl, -⟩ | ⟨rfl, -⟩ | ⟨rfl, -⟩ | ⟨rfl, -⟩ | ⟨rfl, -⟩ | ⟨rfl, -⟩ | ⟨rfl, -⟩ | ⟨rfl, -⟩ | ⟨rfl, -⟩
    | ⟨rfl, -⟩ | ⟨rfl, -⟩ | ⟨rfl, -⟩ | ⟨rfl, -⟩ <;> exact ⟨_, rfl⟩

theorem checkEnvelope_badCrc {type : Byte} {body : List Byte} {crc : BitVec 16} (h : crc ≠ crc16 (covered type body)) :
    checkEnvelope (.whole type body crc) = .error .badCrc type := by
  rw [checkEnvelope, if_pos h]

theorem checkEnvelope_badType {type : Byte} {body : List Byte} {crc : BitVec 16} (h : crc = crc16 (covered type body))
    (ht : ∀ n, (type, n) ∉ catalogue) : checkEnvelope (.whole type body crc) = .error .badType type := by
  have hnone : bodyLength type = none := by
    cases hb : bodyLength type with
    | none => rfl
    | some n => exact absurd (mem_catalogue_iff.mpr hb) (ht n)
  rw [checkEnvelope, if_neg (not_not.mpr h), hnone]

theorem checkEnvelope_badLength {type : Byte} {body : List Byte} {crc : BitVec 16} {n : Nat}
    (h : crc = crc16 (covered type body)) (ht : (type, n) ∈ catalogue) (hn : body.length ≠ n) :
    checkEnvelope (.whole type body crc) = .error .badLength type := by
  obtain ⟨r, hr⟩ := requestOf_ne_none ht body
  rw [checkEnvelope, if_neg (not_not.mpr h), mem_catalogue_iff.mp ht, hr]
  exact if_neg hn

/-! ### Completed records (R145, R146) -/

theorem State.takeRecord_requestRecord (s : State) (r : Request) :
    s.takeRecord (requestRecord r) = s.handleRequest (requestRecord r) r := by
  have hcheck : checkEnvelope (requestRecord r) = .request r := requestRoundTrip r
  rw [State.takeRecord, hcheck]

theorem State.recordArrives_requestRecord (s : State) (r : Request) :
    s.recordArrives (requestRecord r) = s.requestArrives r := by
  unfold State.recordArrives State.requestArrives
  split
  · exact s.takeRecord_requestRecord r
  · rfl

/-- A record that fails a check draws its ERROR reply. -/
theorem exec_recordComplete_error {s : State} {rec : Record} {code : Code} {type : Byte} (hp : s.rlc.processing = none)
    (h : checkEnvelope rec = .error code type) :
    exec (.recordComplete rec) s
      = .next ({ s with rlc := { s.rlc with receiver := .hunt } }.owing rec ⟨0xFF, code, [type]⟩) := by
  have harrives : s.completeRecord rec = (s.setReceiver .hunt).process rec (.owed ⟨0xFF, code, [type]⟩) := by
    have hp' : (s.setReceiver .hunt).rlc.processing = none := hp
    simp only [State.completeRecord, State.recordArrives, hp', State.takeRecord, h]
  show Host.Outcome.next (s.completeRecord rec).pump = _
  rw [harrives, State.pump_process_owed]
  rfl

/-- Settles O5, by the check that the record fails. -/
theorem envelopeErrors : Obligations.EnvelopeErrors := by
  intro s hp
  refine ⟨fun len => exec_recordComplete_error hp rfl, fun r => ?_, fun type body crc => ⟨fun h => ?_, fun h ht => ?_, fun n h ht hn => ?_⟩⟩
  · rw [exec_requestCommand]
    show Host.Outcome.next (s.completeRecord (requestRecord r)).pump = _
    rw [State.completeRecord, State.recordArrives_requestRecord]
    rfl
  · exact exec_recordComplete_error hp (checkEnvelope_badCrc h)
  · exact exec_recordComplete_error hp (checkEnvelope_badType h ht)
  · exact exec_recordComplete_error hp (checkEnvelope_badLength h ht hn)

/-- Settles O1, by the definition of a step. -/
theorem stepRunsFrontCommand : Obligations.StepRunsFrontCommand := by
  intro c rest s h
  unfold step
  rw [h]
  rfl

theorem State.holdRecord_empty {s : State} (h : s.rlc.holding = none) (rec : Record) :
    s.holdRecord rec = { s with rlc := { s.rlc with holding := some rec } } := by
  simp only [State.holdRecord, h]

theorem State.holdRecord_full {s : State} (h : s.rlc.holding ≠ none) (rec : Record) :
    s.holdRecord rec = { s with rlc := { s.rlc with overrun := true } } := by
  cases hh : s.rlc.holding with
  | none => exact absurd hh h
  | some x => simp only [State.holdRecord, hh]

theorem State.requestArrives_held {s : State} (h : s.rlc.processing ≠ none) (r : Request) :
    s.requestArrives r = s.holdRecord (requestRecord r) := by
  cases hp : s.rlc.processing with
  | none => exact absurd hp h
  | some x => simp only [State.requestArrives, hp]

theorem State.recordArrives_held {s : State} (h : s.rlc.processing ≠ none) (rec : Record) :
    s.recordArrives rec = s.holdRecord rec := by
  cases hp : s.rlc.processing with
  | none => exact absurd hp h
  | some x => simp only [State.recordArrives, hp]

/-- Settles O2, by the holding place: empty it takes the record, full it leaves it (R145). -/
theorem requestWaitsOrIsDiscarded : Obligations.RequestWaitsOrIsDiscarded := by
  intro r s hp
  have hrequest : ∀ t, s.holdRecord (requestRecord r) = t → exec (requestCommand r) s = .next t.pump := fun t ht => by
    rw [exec_requestCommand, State.takeRequest, State.requestArrives_held hp, ht]
  have hrecord : ∀ rec t, (s.setReceiver .hunt).holdRecord rec = t → exec (.recordComplete rec) s = .next t.pump :=
    fun rec t ht => by
      show Host.Outcome.next (s.completeRecord rec).pump = _
      have hp' : (s.setReceiver .hunt).rlc.processing ≠ none := hp
      rw [State.completeRecord, State.recordArrives_held hp', ht]
  exact ⟨fun h => hrequest _ (State.holdRecord_empty h _), fun h => hrequest _ (State.holdRecord_full h _),
    fun rec => ⟨fun h => hrecord rec _ (State.holdRecord_empty (s := s.setReceiver .hunt) h rec),
      fun h => hrecord rec _ (State.holdRecord_full (s := s.setReceiver .hunt) h rec)⟩⟩

/-! ### The receiver (R143) -/

theorem recordOf_whole (len type hi lo : Byte) (body : List Byte) :
    recordOf (len :: type :: body ++ [hi] ++ [lo]) = .whole type body (hi ++ lo) := by
  have hlen : (len :: type :: body ++ [hi] ++ [lo]).length = body.length + 4 := by simp
  have hbody : (((len :: type :: body ++ [hi] ++ [lo]).drop 2).take ((len :: type :: body ++ [hi] ++ [lo]).length - 4)) = body := by
    rw [hlen]
    simp
  have hcrc : word16 (len :: type :: body ++ [hi] ++ [lo]) ((len :: type :: body ++ [hi] ++ [lo]).length - 2) = hi ++ lo := by
    rw [hlen, Nat.add_sub_assoc (by decide)]
    simp [word16, byteAt]
  rw [recordOf, hbody, hcrc]
  rfl

theorem State.receive_record {s : State} {len : Byte} {l : List Byte} (h : s.rlc.receiver = .record (len :: l)) {b : Byte}
    (hlen : l.length + 2 < len.toNat + 3) : s.receive b = s.setReceiver (.record (len :: l ++ [b])) := by
  have hne : ¬(len :: l ++ [b]).length = len.toNat + 3 := by
    simp only [List.cons_append, List.length_cons, List.length_append, List.length_nil]
    omega
  simp only [State.receive, h, hne, if_false]

theorem State.receive_last {s : State} {len type hi lo : Byte} {body : List Byte}
    (h : s.rlc.receiver = .record (len :: type :: body ++ [hi])) (hlen : body.length + 1 = len.toNat) :
    s.receive lo = s.completeRecord (.whole type body (hi ++ lo)) := by
  have hfull : (len :: type :: body ++ [hi] ++ [lo]).length = len.toNat + 3 := by
    simp only [List.cons_append, List.length_cons, List.length_append, List.length_nil]
    omega
  have h' : s.rlc.receiver = .record (len :: (type :: body ++ [hi])) := h
  have hreceive : s.receive lo = s.completeRecord (recordOf (len :: type :: body ++ [hi] ++ [lo])) := by
    simp only [State.receive, h']
    exact if_pos hfull
  rw [hreceive, recordOf_whole]

theorem lengthOk_iff (b : Byte) : lengthOk b = true ↔ 1 ≤ b.toNat ∧ b.toNat ≤ 250 := decide_eq_true_iff

/-- Settles O6, by the state of the receiver and the bytes it has. -/
theorem receiverEvents : Obligations.ReceiverEvents := by
  intro s
  have hbyte : ∀ b t, s.receive b = t → exec (.linkByteReceived b) s = .next t.pump := fun b t ht =>
    congrArg (fun t : State => Host.Outcome.next t.pump) ht
  refine ⟨fun h => hbyte _ _ ?_, fun b h hb => hbyte _ _ ?_, fun b h h1 h2 => hbyte _ _ ?_, fun len l b h hl => hbyte _ _ ?_,
    fun b h hb => hbyte _ _ ?_, fun len type body hi lo h hl => hbyte _ _ ?_, rfl, rfl⟩
  · simp only [State.receive, h, if_true]
    rfl
  · simp only [State.receive, h, hb, if_false]
  · have hok : lengthOk b = true := (lengthOk_iff b).mpr ⟨h1, h2⟩
    simp only [State.receive, h, hok, if_true]
    rfl
  · exact State.receive_record h hl
  · have hbad : lengthOk b = false := by
      rw [Bool.eq_false_iff, ne_eq, lengthOk_iff]
      omega
    simp only [State.receive, h, hbad, Bool.false_eq_true, if_false]
  · exact State.receive_last h hl

/-! ### A record byte by byte -/

theorem Rlc.choose_withReceiver (r : Rlc) (x : Receiver) : { r with receiver := x }.choose = { r.choose with receiver := x } := by
  obtain ⟨receiver, processing, holding, transmitter, notices⟩ := r
  cases transmitter with
  | sending => rfl
  | free =>
    rcases processing with _ | ⟨rec, _ | reply⟩
    · cases notices <;> rfl
    · cases notices <;> rfl
    · rfl

theorem State.pump_setReceiver {s : State} (h : s.pump = s) (x : Receiver) : (s.setReceiver x).pump = s.setReceiver x := by
  have hchoose : s.rlc.choose = s.rlc := congrArg State.rlc h
  have hx := s.rlc.choose_withReceiver x
  rw [hchoose] at hx
  exact congrArg (fun r => { s with rlc := r }) hx

theorem receiveAll_cons {b : Byte} {l : List Byte} {s t : State} (h : exec (.linkByteReceived b) s = .next t) :
    receiveAll (b :: l) s = receiveAll l t := by
  simp only [receiveAll, h]

theorem receiveAll_append {l m : List Byte} {s t : State} (h : receiveAll l s = .next t) :
    receiveAll (l ++ m) s = receiveAll m t := by
  induction l generalizing s with
  | nil => cases h; rfl
  | cons b l ih =>
    rw [receiveAll] at h
    rw [List.cons_append, receiveAll]
    split at h
    · exact ih h
    · cases h
    · cases h

/-- Bytes that do not complete the record join it. -/
theorem receiveAll_record {s : State} (hs : s.pump = s) (len : Byte) (l acc : List Byte)
    (h : acc.length + l.length + 1 < len.toNat + 3) :
    receiveAll l (s.setReceiver (.record (len :: acc))) = .next (s.setReceiver (.record (len :: acc ++ l))) := by
  induction l generalizing acc with
  | nil => rw [List.append_nil]; rfl
  | cons b l ih =>
    rw [List.length_cons] at h
    have hreceive : (s.setReceiver (.record (len :: acc))).receive b = s.setReceiver (.record (len :: (acc ++ [b]))) :=
      State.receive_record (s := s.setReceiver (.record (len :: acc))) rfl (by omega)
    have hbyte : exec (.linkByteReceived b) (s.setReceiver (.record (len :: acc)))
        = .next (s.setReceiver (.record (len :: (acc ++ [b])))) := by
      show Host.Outcome.next (State.receive _ b).pump = _
      rw [hreceive, State.pump_setReceiver hs]
    have hrest := ih (acc ++ [b]) (by rw [List.length_append, List.length_singleton]; omega)
    rw [List.cons_append, List.append_assoc] at hrest
    rw [receiveAll, hbyte]
    exact hrest

theorem requestBody_length_le (r : Request) : (requestBody r).length ≤ 21 := by
  have h : bodyLength (requestType r) = some (requestBody r).length := bodyLength_requestType r
  have hmem := mem_catalogue_iff.mpr h
  have hall : ∀ e ∈ catalogue, e.2 ≤ 21 := by decide
  exact hall _ hmem

/-- Settles O4, by the bytes up to the last, which join the record, and the last, which completes it. -/
theorem receivedBytesMakeTheRequest : Obligations.ReceivedBytesMakeTheRequest := by
  intro r s hhunt hs
  have hbody := requestBody_length_le r
  have hlen : (num8 ((requestBody r).length + 1)).toNat = (requestBody r).length + 1 := by
    rw [num8, BitVec.toNat_ofNat, Nat.mod_eq_of_lt (by omega)]
  have hopen : exec (.linkByteReceived 0xC3) s = .next (s.setReceiver (.record [])) := by
    show Host.Outcome.next (s.receive 0xC3).pump = _
    simp only [State.receive, hhunt, if_true, State.pump_setReceiver hs]
  have hfirst : exec (.linkByteReceived (num8 ((requestBody r).length + 1))) (s.setReceiver (.record []))
      = .next (s.setReceiver (.record [num8 ((requestBody r).length + 1)])) := by
    have hok : lengthOk (num8 ((requestBody r).length + 1)) = true := (lengthOk_iff _).mpr (by rw [hlen]; omega)
    have hreceive : (s.setReceiver (.record [])).receive (num8 ((requestBody r).length + 1))
        = s.setReceiver (.record [num8 ((requestBody r).length + 1)]) := by
      have hempty : (s.setReceiver (.record [])).rlc.receiver = .record [] := rfl
      simp only [State.receive, hempty, hok, if_true]
      rfl
    show Host.Outcome.next (State.receive _ _).pump = _
    rw [hreceive, State.pump_setReceiver hs]
  have hjoin := receiveAll_record hs (num8 ((requestBody r).length + 1))
    (requestType r :: requestBody r ++ [(crc16 (covered (requestType r) (requestBody r))).extractLsb' 8 8]) []
    (by rw [hlen]; simp)
  have hlast : exec (.linkByteReceived ((crc16 (covered (requestType r) (requestBody r))).extractLsb' 0 8))
      (s.setReceiver (.record (num8 ((requestBody r).length + 1) :: requestType r :: requestBody r
        ++ [(crc16 (covered (requestType r) (requestBody r))).extractLsb' 8 8]))) = exec (requestCommand r) s := by
    have hself : s.setReceiver .hunt = s := by
      rw [State.setReceiver, ← hhunt]
    rw [exec_requestCommand]
    show Host.Outcome.next (State.receive _ _).pump = _
    rw [State.receive_last rfl hlen.symm, bytes16_joined]
    show Host.Outcome.next (State.recordArrives (s.setReceiver .hunt) (requestRecord r)).pump = _
    rw [hself, State.recordArrives_requestRecord]
    rfl
  have hsplit : (0xC3 :: covered (requestType r) (requestBody r) ++ bytes16 (crc16 (covered (requestType r) (requestBody r))) : List Byte)
      = 0xC3 :: num8 ((requestBody r).length + 1)
        :: ((requestType r :: requestBody r ++ [(crc16 (covered (requestType r) (requestBody r))).extractLsb' 8 8])
          ++ [(crc16 (covered (requestType r) (requestBody r))).extractLsb' 0 8]) := by
    simp [covered, bytes16]
  rw [hsplit, receiveAll_cons hopen, receiveAll_cons hfirst, receiveAll_append hjoin]
  rw [exec_requestCommand] at hlast ⊢
  exact receiveAll_cons hlast

end Sys2Proof.Machine
end

section
/-! PROOF. The link controller's own items (receiver, request in processing, transmitter) under the work of the owners:
what an owner does with the state is the same whatever they hold. -/

namespace Sys2Proof.Machine

/-- The state with other content in the receiver, the request in processing and the transmitter. -/
def State.carrying (s : State) (x : Receiver) (q : Option Processing) (w : Transmitter) : State :=
  { s with rlc := { s.rlc with receiver := x, processing := q, transmitter := w } }

/-! ### A firing, said in steps (R122) -/

/-- The phases with a member of a group. -/
def State.servedPhases (s : State) (g : Fin 16) : List Phase := allPhases.filter fun p => s.dir.hasMember g p

/-- The group joins the queue of each phase with a member on which it does not stand. -/
def State.queueFresh (s : State) (g : Fin 16) : State :=
  ((s.servedPhases g).filter fun p => !inQueue (s.queue p) g).foldl
    (fun s p => s.setQueue p (s.queue p ++ [⟨g, s.now⟩])) s

/-- A firing of a group whose next refresh stands at `t`. -/
def State.fired (s : State) (g : Fin 16) (t : Nat) : State :=
  let s2 := (s.queueFresh g).forEachFree ((s.servedPhases g).filter fun p => inQueue (s.queue p) g) fun s p =>
    s.post (.refreshLate g p)
  s2.setStanding g { s2.standing g with nextRefresh := some (nextAfterFiring t s.now s.params.refreshPeriod) }

theorem State.fireIfDue_none {s : State} {g : Fin 16} (h : (s.standing g).nextRefresh = none) : s.fireIfDue g = s := by
  rw [State.fireIfDue, h]

theorem State.fireIfDue_later {s : State} {g : Fin 16} {t : Nat} (h : (s.standing g).nextRefresh = some t)
    (ht : ¬t ≤ s.now) : s.fireIfDue g = s := by
  rw [State.fireIfDue, h]
  exact if_neg ht

theorem State.fireIfDue_due {s : State} {g : Fin 16} {t : Nat} (h : (s.standing g).nextRefresh = some t)
    (ht : t ≤ s.now) : s.fireIfDue g = s.fired g t := by
  rw [State.fireIfDue, h]
  exact if_pos ht

/-! ### What commutes with what the link holds -/

section
variable (s : State) (x : Receiver) (q : Option Processing) (w : Transmitter)

@[simp] theorem State.carrying_self : s.carrying s.rlc.receiver s.rlc.processing s.rlc.transmitter = s := rfl
@[simp] theorem State.carrying_carrying (x' : Receiver) (q' : Option Processing) (w' : Transmitter) :
    (s.carrying x q w).carrying x' q' w' = s.carrying x' q' w' := rfl

@[simp] theorem State.carrying_orm : (s.carrying x q w).orm = s.orm := rfl
@[simp] theorem State.carrying_dir : (s.carrying x q w).dir = s.dir := rfl
@[simp] theorem State.carrying_mtb : (s.carrying x q w).mtb = s.mtb := rfl
@[simp] theorem State.carrying_scs : (s.carrying x q w).scs = s.scs := rfl
@[simp] theorem State.carrying_params : (s.carrying x q w).params = s.params := rfl
@[simp] theorem State.carrying_now : (s.carrying x q w).now = s.now := rfl
@[simp] theorem State.carrying_line (p : Phase) : (s.carrying x q w).line p = s.line p := rfl
@[simp] theorem State.carrying_busy (i : Nat) : (s.carrying x q w).busy i = s.busy i := rfl
@[simp] theorem State.carrying_named (tag : Tag) : (s.carrying x q w).named tag = s.named tag := rfl

theorem State.post_carrying (n : Notice) : (s.carrying x q w).post n = (s.post n).carrying x q w := by
  have hpost : ({ s.rlc with receiver := x, processing := q, transmitter := w } : Rlc).post n
      = { s.rlc.post n with receiver := x, processing := q, transmitter := w } := by
    simp only [Rlc.post]
    split <;> rfl
  unfold State.post State.carrying
  rw [hpost]

theorem State.enterFinal_carrying (tag : Tag) (st : OrderState) :
    (s.carrying x q w).enterFinal tag st = (s.enterFinal tag st).carrying x q w :=
  State.post_carrying (s.modOrder tag _) x q w _

theorem State.endOrder_carrying (tag : Tag) (reason : Reason) :
    (s.carrying x q w).endOrder tag reason = (s.endOrder tag reason).carrying x q w := by
  unfold State.endOrder
  rw [show (s.carrying x q w).findOrder tag = s.findOrder tag from rfl]
  split
  · rfl
  · split
    · split
      · rfl
      · exact State.enterFinal_carrying ((s.modOrder tag fun o => { o with
          progress := o.progress.map Progress.stop, mark := endedMark reason o.mark }).mapLines fun l =>
            l.discardStagedOf tag) x q w tag reason.final
    · rfl

theorem State.restoreIfDue_carrying (g : Fin 16) :
    (s.carrying x q w).restoreIfDue g = (s.restoreIfDue g).carrying x q w := by
  unfold State.restoreIfDue
  rw [show (s.carrying x q w).standing g = s.standing g from rfl, show (s.carrying x q w).now = s.now from rfl]
  dsimp only
  split
  · split
    · exact State.post_carrying (s.setStanding g _) x q w _
    · rfl
  · rfl

theorem State.adoptOrder_carrying (o : Order) : (s.carrying x q w).adoptOrder o = (s.adoptOrder o).carrying x q w := by
  unfold State.adoptOrder
  split
  · rfl
  · next g value _ =>
    rw [show (s.carrying x q w).standing g = s.standing g from rfl]
    dsimp only
    split
    · rfl
    · have hpost := State.post_carrying (s.setStanding g ((s.standing g).adopt o s.now s.params.refreshPeriod)) x q w
        (.standing g value o.tag .adopted)
      rw [show ((s.carrying x q w).setStanding g ((s.standing g).adopt o (s.carrying x q w).now
          (s.carrying x q w).params.refreshPeriod)).post (.standing g value o.tag .adopted) = _ from hpost]
      split
      · exact State.restoreIfDue_carrying (State.modOrder _ o.tag _) x q w g
      · rfl

theorem State.adoptIfDue_carrying (tag : Tag) : (s.carrying x q w).adoptIfDue tag = (s.adoptIfDue tag).carrying x q w := by
  unfold State.adoptIfDue
  rw [show (s.carrying x q w).findOrder tag = s.findOrder tag from rfl, show (s.carrying x q w).now = s.now from rfl]
  split
  · split
    · exact State.adoptOrder_carrying s x q w _
    · rfl
  · rfl

theorem State.adoptionCheck_carrying : (s.carrying x q w).adoptionCheck = s.adoptionCheck.carrying x q w :=
  List.foldl_hom (fun s : State => s.carrying x q w) fun s o => State.adoptIfDue_carrying s x q w o.tag

theorem State.supersede_carrying (o : Order) : (s.carrying x q w).supersede o = (s.supersede o).carrying x q w := by
  unfold State.supersede
  rw [show (s.carrying x q w).supersededBy o = s.supersededBy o from rfl]
  split
  · exact State.endOrder_carrying s x q w _ _
  · rfl

theorem State.admitOrder_carrying (o : Order) : (s.carrying x q w).admitOrder o = (s.admitOrder o).carrying x q w := by
  unfold State.admitOrder
  dsimp only
  split
  · rfl
  · rw [← State.adoptionCheck_carrying, ← State.supersede_carrying]
    rfl

theorem State.expireIfDue_carrying (tag : Tag) :
    (s.carrying x q w).expireIfDue tag = (s.expireIfDue tag).carrying x q w := by
  unfold State.expireIfDue
  rw [show (s.carrying x q w).findOrder tag = s.findOrder tag from rfl, show (s.carrying x q w).now = s.now from rfl]
  split
  · split
    · exact State.endOrder_carrying s x q w _ _
    · rfl
  · rfl

/-- Work done for each element commutes with what the link holds if one piece of it does. -/
theorem State.forEachFree_carrying {α : Type} (l : List α) {f : State → α → State}
    (hf : ∀ s a, f (s.carrying x q w) a = (f s a).carrying x q w) :
    (s.carrying x q w).forEachFree l f = (s.forEachFree l f).carrying x q w := by
  unfold State.forEachFree
  dsimp only
  rw [← List.foldl_hom (fun s : State => s.carrying x q w) hf]
  rfl

theorem State.queueFresh_carrying (g : Fin 16) : (s.carrying x q w).queueFresh g = (s.queueFresh g).carrying x q w :=
  List.foldl_hom (fun s : State => s.carrying x q w) fun _ _ => rfl

theorem State.fired_carrying (g : Fin 16) (t : Nat) : (s.carrying x q w).fired g t = (s.fired g t).carrying x q w := by
  have hpost := State.forEachFree_carrying (s.queueFresh g) x q w ((s.servedPhases g).filter fun p => inQueue (s.queue p) g)
    (f := fun s p => s.post (.refreshLate g p)) fun s p => State.post_carrying s x q w _
  unfold State.fired
  rw [State.queueFresh_carrying]
  exact congrArg (fun u : State => u.setStanding g
    { u.standing g with nextRefresh := some (nextAfterFiring t s.now s.params.refreshPeriod) }) hpost

theorem State.fireIfDue_carrying (g : Fin 16) : (s.carrying x q w).fireIfDue g = (s.fireIfDue g).carrying x q w := by
  cases hnext : (s.standing g).nextRefresh with
  | none => rw [State.fireIfDue_none hnext, State.fireIfDue_none (s := s.carrying x q w) hnext]
  | some t =>
    by_cases ht : t ≤ s.now
    · rw [State.fireIfDue_due hnext ht, State.fireIfDue_due (s := s.carrying x q w) hnext ht, State.fired_carrying]
    · rw [State.fireIfDue_later hnext ht, State.fireIfDue_later (s := s.carrying x q w) hnext ht]

theorem State.runCheck_carrying (c : Check) : (s.carrying x q w).runCheck c = (s.runCheck c).carrying x q w := by
  cases c with
  | expire tag => exact State.expireIfDue_carrying s x q w tag
  | adopt tag => exact State.adoptIfDue_carrying s x q w tag
  | restore g => exact State.restoreIfDue_carrying s x q w g
  | fire g => exact State.fireIfDue_carrying s x q w g

theorem State.firstDue_carrying (l : List Check) : (s.carrying x q w).firstDue l = s.firstDue l := by
  induction l with
  | nil => rfl
  | cons c l ih =>
    have hdue : (s.carrying x q w).checkDue c = s.checkDue c := by cases c <;> rfl
    rw [State.firstDue, State.firstDue, hdue, ih]

theorem State.mergeChoices_carrying (ls : List (List Check)) : (s.carrying x q w).mergeChoices ls = s.mergeChoices ls := by
  induction ls with
  | nil => rfl
  | cons l ls ih => rw [State.mergeChoices, State.mergeChoices, ih, State.firstDue_carrying]

theorem State.runChecks_carrying (fuel : Nat) (ls : List (List Check)) :
    State.runChecks fuel ls (s.carrying x q w) = (State.runChecks fuel ls s).carrying x q w := by
  induction fuel generalizing s ls with
  | zero => rfl
  | succ fuel ih =>
    unfold State.runChecks
    rw [State.mergeChoices_carrying]
    split
    · rfl
    · rw [State.runCheck_carrying, ih]
    · dsimp only
      rw [← ih, ← State.runCheck_carrying]
      rfl

/-- A handling with other content in the link's own items of the state it leaves. -/
def Handled.carrying (h : Handled) (x : Receiver) (q : Option Processing) (w : Transmitter) : Handled :=
  (h.1.carrying x q w, h.2)

/-- A check that fails refuses alike, and otherwise the rest decides. -/
theorem check_carrying {c c' : Prop} [Decidable c] [Decidable c'] (hc : c' ↔ c) (code : Code) {r r' : Handled}
    (hr : r' = r.carrying x q w) :
    (if c' then (s.carrying x q w).refuse code else r') = Handled.carrying (if c then s.refuse code else r) x q w := by
  by_cases h : c
  · rw [if_pos h, if_pos (hc.mpr h)]
    rfl
  · rw [if_neg h, if_neg fun h' => h (hc.mp h'), hr]

theorem handleSetConfig_carrying (id : Byte) (v : BitVec 16) :
    handleSetConfig id v (s.carrying x q w) = (handleSetConfig id v s).carrying x q w := by
  unfold handleSetConfig
  split
  · rfl
  next p _ =>
    refine check_carrying s x q w .rfl _ ?_
    dsimp only [Handled.carrying]
    split <;> rfl

theorem handleHousePut_carrying (f : PutFields) :
    handleHousePut f (s.carrying x q w) = (handleHousePut f s).carrying x q w := by
  unfold handleHousePut
  dsimp only
  split
  · rfl
  · exact check_carrying s x q w .rfl _ (check_carrying s x q w .rfl _ (check_carrying s x q w .rfl _
      (check_carrying s x q w .rfl _ (check_carrying s x q w .rfl _ (check_carrying s x q w .rfl _ rfl)))))

theorem handleHouseRemove_carrying (i : BitVec 16) :
    handleHouseRemove i (s.carrying x q w) = (handleHouseRemove i s).carrying x q w := by
  refine check_carrying s x q w .rfl _ (check_carrying s x q w .rfl _ (check_carrying s x q w .rfl _ ?_))
  rw [State.carrying_dir]
  cases s.dir.get i.toNat with
  | none => rfl
  | some h => exact check_carrying s x q w .rfl _ rfl

theorem handleHouseGet_carrying (i : BitVec 16) :
    handleHouseGet i (s.carrying x q w) = (handleHouseGet i s).carrying x q w := by
  refine check_carrying s x q w .rfl _ ?_
  rw [State.carrying_dir]
  cases s.dir.get i.toNat <;> rfl

theorem handleHouseFind_carrying (a : Addr) :
    handleHouseFind a (s.carrying x q w) = (handleHouseFind a s).carrying x q w := by
  refine check_carrying s x q w .rfl _ ?_
  rw [State.carrying_dir]
  cases s.dir.houses.find? fun e => e.2.address == a <;> rfl

theorem handleFreeze_carrying (first last : BitVec 16) (mode : Byte) :
    handleFreeze first last mode (s.carrying x q w) = (handleFreeze first last mode s).carrying x q w := by
  unfold handleFreeze
  split
  · rfl
  · exact check_carrying s x q w .rfl _ (check_carrying s x q w .rfl _ rfl)

theorem handleThaw_carrying (first last : BitVec 16) :
    handleThaw first last (s.carrying x q w) = (handleThaw first last s).carrying x q w :=
  check_carrying s x q w .rfl _ rfl

theorem handleOrderSubmit_carrying (f : SubmitFields) :
    handleOrderSubmit f (s.carrying x q w) = (handleOrderSubmit f s).carrying x q w := by
  refine check_carrying s x q w .rfl _ (check_carrying s x q w .rfl _ ?_)
  rw [State.carrying_now]
  cases submissionOf f s.now with
  | none => rfl
  | some b =>
    exact check_carrying s x q w .rfl _ (check_carrying s x q w .rfl _ (check_carrying s x q w .rfl _
      (check_carrying s x q w .rfl _ (Prod.ext (State.admitOrder_carrying s x q w _) rfl))))

theorem handleOrderRead_carrying (tag : Tag) (sect : Byte) :
    handleOrderRead tag sect (s.carrying x q w) = (handleOrderRead tag sect s).carrying x q w := by
  refine check_carrying s x q w .rfl _ ?_
  rw [State.carrying_named]
  cases s.named tag <;> rfl

theorem handleOrderCancel_carrying (tag : Tag) :
    handleOrderCancel tag (s.carrying x q w) = (handleOrderCancel tag s).carrying x q w := by
  simp only [handleOrderCancel, State.carrying_named, State.endOrder_carrying]
  cases s.named tag with
  | none => rfl
  | some o =>
    dsimp only
    split <;> rfl

theorem handleOrderRelease_carrying (tag : Tag) :
    handleOrderRelease tag (s.carrying x q w) = (handleOrderRelease tag s).carrying x q w := by
  simp only [handleOrderRelease, State.carrying_named]
  cases s.named tag with
  | none => rfl
  | some o =>
    dsimp only
    split <;> rfl

theorem handlePhaseHold_carrying (b : Byte) :
    handlePhaseHold b (s.carrying x q w) = (handlePhaseHold b s).carrying x q w := by
  unfold handlePhaseHold
  split
  · rfl
  next p _ =>
    dsimp only
    rw [State.carrying_line]
    repeat' split
    all_goals rfl

theorem handlePhaseStats_carrying (b clear : Byte) :
    handlePhaseStats b clear (s.carrying x q w) = (handlePhaseStats b clear s).carrying x q w := by
  unfold handlePhaseStats
  split
  · rfl
  · dsimp only [Handled.carrying]
    split <;> rfl

/-- What the owners make of a request, and the state they leave, but for what the link itself holds, is the same whatever
the receiver, the request in processing and the transmitter hold. -/
theorem handle_carrying (r : Request) :
    handle (s.carrying x q w) r = ((handle s r).1.carrying x q w, (handle s r).2) := by
  have whole {h' h : Handled} (he : h' = h.carrying x q w) :
      (h'.1, some h'.2) = ((h.1, some h.2).1.carrying x q w, (h.1, some h.2).2) := by rw [he]; rfl
  cases r with
  | getStatus | getIdentity | getTime | orderList | reset | setFloor => rfl
  | setTime v =>
    have h := State.runChecks_carrying ((s.setClock v.toNat).noteTimes.mapLines Line.discardStaged) x q w
    exact Prod.ext (congrArg State.adjustRefresh (h _ _)) rfl
  | setConfig id v => exact whole (handleSetConfig_carrying s x q w id v)
  | getConfig id =>
    simp only [handle, handleGetConfig]
    split <;> rfl
  | writeSite c =>
    simp only [handle]
    rw [show writeSiteAnswer c (s.carrying x q w) = writeSiteAnswer c s from rfl]
    split <;> rfl
  | housePut f => exact whole (handleHousePut_carrying s x q w f)
  | houseGet i => exact whole (handleHouseGet_carrying s x q w i)
  | houseRemove i => exact whole (handleHouseRemove_carrying s x q w i)
  | houseFind a => exact whole (handleHouseFind_carrying s x q w a)
  | freeze f l m => exact whole (handleFreeze_carrying s x q w f l m)
  | thaw f l => exact whole (handleThaw_carrying s x q w f l)
  | orderSubmit f => exact whole (handleOrderSubmit_carrying s x q w f)
  | orderRead tag sect => exact whole (handleOrderRead_carrying s x q w tag sect)
  | orderCancel tag => exact whole (handleOrderCancel_carrying s x q w tag)
  | orderRelease tag => exact whole (handleOrderRelease_carrying s x q w tag)
  | phaseHold b => exact whole (handlePhaseHold_carrying s x q w b)
  | phaseResume b =>
    simp only [handle, handlePhaseResume]
    split <;> rfl
  | phaseStats b clear => exact whole (handlePhaseStats_carrying s x q w b clear)
  | standingRead g =>
    simp only [handle, handleStandingRead]
    split <;> rfl

end

end Sys2Proof.Machine
end

section
/-! PROOF. The transmitter and the ends of transmissions (R144, R145, R149), and the notices (R150). -/

namespace Sys2Proof.Machine

/-! ### The transmitter's choice -/

theorem Rlc.owes_iff (r : Rlc) : r.owes = true ↔ ∃ rec reply, r.processing = some ⟨rec, .owed reply⟩ := by
  obtain ⟨_, q⟩ := r
  rcases q with _ | ⟨rec, _ | reply⟩ <;> simp [Rlc.owes]

theorem Rlc.owes_eq_false {r : Rlc} (h : ∀ rec reply, r.processing ≠ some ⟨rec, .owed reply⟩) : r.owes = false :=
  Bool.eq_false_iff.mpr fun ho => by
    obtain ⟨rec, reply, he⟩ := r.owes_iff.mp ho
    exact h rec reply he

/-- A FREE transmitter with no reply owed begins the oldest notice. -/
theorem Rlc.choose_notice {r : Rlc} {n : Notice} {rest : List Notice} (hf : r.transmitter = .free) (ho : r.owes = false)
    (hn : r.notices = n :: rest) : r.choose = { r with transmitter := .sending (.notice n), notices := rest } := by
  obtain ⟨x, ht, -⟩ | ⟨rec, reply, -, hp, -⟩ | ⟨m, tail, -, -, hm, he⟩ | ⟨-, -, hm, -⟩ := r.choose_cases
  · cases hf.symm.trans ht
  · exact absurd (r.owes_iff.mpr ⟨rec, reply, hp⟩) (by simp [ho])
  · cases hm.symm.trans hn
    exact he
  · cases hm.symm.trans hn

theorem Rlc.choose_sending {r : Rlc} {x : Outgoing} (h : r.transmitter = .sending x) : r.choose = r := by
  simp only [Rlc.choose, h]

theorem Rlc.choose_idle {r : Rlc} (ho : r.owes = false) (hn : r.notices = []) : r.choose = r := by
  obtain ⟨x, -, he⟩ | ⟨rec, reply, -, hp, -⟩ | ⟨m, tail, -, -, hm, -⟩ | ⟨-, -, -, he⟩ := r.choose_cases
  · exact he
  · exact absurd (r.owes_iff.mpr ⟨rec, reply, hp⟩) (by simp [ho])
  · cases hm.symm.trans hn
  · exact he

theorem Rlc.beginReply_owed {r : Rlc} (h : r.owes = true) : r.beginReply = r.choose := if_pos h
theorem Rlc.beginReply_none {r : Rlc} (h : r.owes = false) : r.beginReply = r := if_neg (by simp [h])
theorem Rlc.beginNotice_owed {r : Rlc} (h : r.owes = true) : r.beginNotice = r := if_pos h
theorem Rlc.beginNotice_none {r : Rlc} (h : r.owes = false) : r.beginNotice = r.choose := if_neg (by simp [h])

theorem exec_sendReply (s : State) : exec .sendReply s = .next { s with rlc := s.rlc.beginReply } := rfl
theorem exec_sendNotice (s : State) : exec .sendNotice s = .next { s with rlc := s.rlc.beginNotice } := rfl

/-- Settles O7, by whether a reply is owed and what the transmitter's choice is then. -/
theorem transmitterBegins : Obligations.TransmitterBegins := by
  intro s
  rw [exec_sendReply, exec_sendNotice]
  refine ⟨fun rec reply hf hp => ?_, fun n rest hf hp hn => ?_, fun x hx => ?_, fun hp => ?_⟩
  · have ho := s.rlc.owes_iff.mpr ⟨rec, reply, hp⟩
    have hchoose : s.rlc.choose = { s.rlc with transmitter := .sending (.reply reply) } := by
      simp only [Rlc.choose, hf, hp]
    rw [Rlc.beginReply_owed ho, Rlc.beginNotice_owed ho, hchoose]
    exact ⟨rfl, rfl⟩
  · have ho := Rlc.owes_eq_false hp
    rw [Rlc.beginNotice_none ho, Rlc.beginReply_none ho, Rlc.choose_notice hf ho hn]
    exact ⟨rfl, rfl⟩
  · have hsame := Rlc.choose_sending hx
    simp only [Rlc.beginReply, Rlc.beginNotice, hsame, ite_self]
    exact ⟨trivial, trivial⟩
  · have ho := Rlc.owes_eq_false hp
    rw [Rlc.beginReply_none ho, Rlc.beginNotice_none ho]
    exact ⟨rfl, fun hn => by rw [Rlc.choose_idle ho hn]⟩

/-! ### Taking the held record -/

/-- What an owner does leaves the receiver, the request in processing and the transmitter as they stood. -/
theorem handle_requests (s : State) (r : Request) : SameRequests s (handle s r).1 := by
  cases h : handle s r with
  | mk t a =>
    cases a with
    | some a =>
      obtain ⟨k, -, hacts⟩ := handle_acts h
      exact hacts.sameRequests
    | none =>
      obtain ⟨c, -, -, -, rfl⟩ := handle_unanswered h
      exact ⟨rfl, rfl, rfl, rfl⟩

theorem State.setReceiver_eq_carrying (s : State) (x : Receiver) :
    s.setReceiver x = s.carrying x s.rlc.processing s.rlc.transmitter := rfl

theorem handle_setReceiver (s : State) (x : Receiver) (r : Request) :
    handle (s.setReceiver x) r = ((handle s r).1.setReceiver x, (handle s r).2) := by
  have hsame := handle_requests s r
  rw [State.setReceiver_eq_carrying, handle_carrying, State.setReceiver_eq_carrying, hsame.processing, hsame.transmitter]

/-- A record does the same whatever the receiver is assembling, and leaves that alone. -/
theorem State.takeRecord_setReceiver (s : State) (x : Receiver) (rec : Record) :
    (s.setReceiver x).takeRecord rec = (s.takeRecord rec).setReceiver x := by
  unfold State.takeRecord
  split
  next r _ =>
    unfold State.handleRequest
    rw [handle_setReceiver]
    cases h : handle s r with
    | mk t a => cases a <;> rfl
  · rfl

theorem State.pump_withReceiver (s : State) (x : Receiver) : (s.setReceiver x).pump = s.pump.setReceiver x :=
  congrArg (fun r => { s with rlc := r }) (s.rlc.choose_withReceiver x)

theorem State.takeRecord_receiver (s : State) (rec : Record) : (s.takeRecord rec).rlc.receiver = s.rlc.receiver :=
  calc (s.takeRecord rec).rlc.receiver
      = ((s.setReceiver s.rlc.receiver).takeRecord rec).rlc.receiver := rfl
    _ = s.rlc.receiver := by rw [State.takeRecord_setReceiver]; rfl

/-- A record taken into processing does what it does when it completes then, but that the receiver goes on. -/
theorem State.takeRecord_of_complete {s t : State} {rec : Record} (hp : s.rlc.processing = none)
    (h : exec (.recordComplete rec) s = .next t) :
    (s.takeRecord rec).pump = { t with rlc := { t.rlc with receiver := s.rlc.receiver } } := by
  have ht : ((s.setReceiver .hunt).takeRecord rec).pump = t := by
    have harrives : (s.setReceiver .hunt).recordArrives rec = (s.setReceiver .hunt).takeRecord rec := by
      have hp' : (s.setReceiver .hunt).rlc.processing = none := hp
      simp only [State.recordArrives, hp']
    rw [← harrives]
    exact Host.Outcome.next.inj h
  have hreceiver : (s.takeRecord rec).pump.rlc.receiver = s.rlc.receiver :=
    (Rlc.choose_receiver _).trans (s.takeRecord_receiver rec)
  rw [← ht, State.takeRecord_setReceiver, State.pump_withReceiver, ← hreceiver]
  rfl

theorem State.takeRecord_requestArrives {s : State} (hp : s.rlc.processing = none) (r : Request) :
    s.takeRecord (requestRecord r) = s.requestArrives r := by
  rw [s.takeRecord_requestRecord r]
  simp only [State.requestArrives, hp]

theorem State.takeHeld_of_held {s : State} {rec : Record} (hp : s.rlc.processing = none) (hh : s.rlc.holding = some rec) :
    s.takeHeld = { s with rlc := { s.rlc with holding := none } }.takeRecord rec := by
  simp only [State.takeHeld, hp, hh]

theorem State.takeHeld_idle {s : State} (h : s.rlc.processing ≠ none ∨ s.rlc.holding = none) : s.takeHeld = s := by
  unfold State.takeHeld
  split
  next hp hh =>
    rcases h with h | h
    · exact absurd hp h
    · cases h.symm.trans hh
  · rfl

theorem State.takeRecord_processing (s : State) (rec : Record) :
    ∃ stage, (s.takeRecord rec).rlc.processing = some ⟨rec, stage⟩ := by
  unfold State.takeRecord
  split
  · unfold State.handleRequest
    split <;> exact ⟨_, rfl⟩
  · exact ⟨_, rfl⟩

theorem State.takeRecord_holding {s : State} (rec : Record) (h : s.rlc.holding = none) :
    (s.takeRecord rec).rlc.holding = none := by
  unfold State.takeRecord
  split
  next r _ =>
    unfold State.handleRequest
    split
    next t a ht =>
      obtain ⟨k, -, hacts⟩ := handle_acts ht
      have hheld : t.rlc.holding = none :=
        acts_keep (P := fun s : State => s.rlc.holding = none) (fun h hs => OwnerAct.holding_none h hs) hacts h
      exact hheld
    next t ht =>
      obtain ⟨c, -, -, -, rfl⟩ := handle_unanswered ht
      exact h
  · exact h

theorem exec_transmitEnd (s : State) : exec .transmitEnd s = .next s.endTransmission.pump := rfl
theorem exec_holdingPlaceTaken (s : State) : exec .holdingPlaceTaken s = .next s.takeHeld.pump := rfl

theorem State.endTransmission_notice {s : State} {n : Notice} (h : s.rlc.transmitter = .sending (.notice n)) :
    s.endTransmission = { s with rlc := { s.rlc with transmitter := .free } } := by
  simp only [State.endTransmission, h]

theorem State.endTransmission_reply {s : State} {x : Reply} (h : s.rlc.transmitter = .sending (.reply x)) :
    s.endTransmission = State.takeHeld { s with rlc := { s.rlc with transmitter := .free, processing := none } } := by
  simp only [State.endTransmission, h]

/-- Settles O8, by what was sent and whether a record is held. -/
theorem transmissionEnds : Obligations.TransmissionEnds := by
  intro s
  rw [exec_transmitEnd, exec_holdingPlaceTaken]
  refine ⟨fun n h => ?_, fun x h hh => ?_, fun x r h hh => ?_, fun x rec t h hh ht => ?_, fun h => ?_, fun r hp hh => ?_,
    fun rec t hp hh ht => ?_, fun h => ?_, fun rec hp hh => ?_, fun n rest hp hh hf hn => ?_⟩
  · rw [State.endTransmission_notice h]
  · have hend := (State.endTransmission_reply h).trans (State.takeHeld_idle (.inr hh))
    rw [hend]
  · have hend := (State.endTransmission_reply h).trans (State.takeHeld_of_held rfl hh)
    rw [hend, State.takeRecord_requestArrives rfl, exec_requestCommand]
    rfl
  · have hend := (State.endTransmission_reply h).trans (State.takeHeld_of_held rfl hh)
    rw [hend]
    exact congrArg Host.Outcome.next (State.takeRecord_of_complete rfl ht)
  · simp only [State.endTransmission, h]
  · have htake := (State.takeHeld_of_held hp hh).trans
      (State.takeRecord_requestArrives (s := { s with rlc := { s.rlc with holding := none } }) hp r)
    rw [htake, exec_requestCommand]
    rfl
  · rw [State.takeHeld_of_held hp hh]
    exact congrArg Host.Outcome.next (State.takeRecord_of_complete hp ht)
  · rw [State.takeHeld_idle h]
  · rw [State.takeHeld_of_held hp hh]
    obtain ⟨stage, hstage⟩ := State.takeRecord_processing { s with rlc := { s.rlc with holding := none } } rec
    exact ⟨_, rfl, (Rlc.choose_holding _).trans (State.takeRecord_holding rec rfl),
      stage, (Rlc.choose_processing _).trans hstage⟩
  · rw [State.takeHeld_idle (.inr hh)]
    have ho : s.rlc.owes = false := Rlc.owes_eq_false fun _ _ he => by cases hp.symm.trans he
    exact congrArg (fun r => Host.Outcome.next { s with rlc := r }) (Rlc.choose_notice hf ho hn)

/-! ### A record in sending -/

theorem Act.sending {k : Stretch} {s t : State} (h : Act k s t) {x : Outgoing} (hx : s.rlc.transmitter = .sending x) :
    t.rlc.transmitter = .sending x := by
  cases h with
  | owner h => exact h.sameRequests.transmitter.trans hx
  | line h => exact h.outside.requests.transmitter.trans hx
  | closingEnd tag => exact (s.closingEnd_outsideMains tag).requests.transmitter.trans hx
  | pump => exact (congrArg Rlc.transmitter (Rlc.choose_sending hx)).trans hx
  | holdRecord rec =>
    unfold State.holdRecord
    split <;> exact hx
  | written equal =>
    have hend (code : Addr) : (endProgramming code equal s).1.rlc = s.rlc := by
      rw [endProgramming_eq]
      split <;> rfl
    obtain ⟨-, he⟩ | ⟨code, -, ⟨-, he⟩ | ⟨_, -, he⟩⟩ := s.completeWrite_cases equal <;> rw [he]
    · exact hx
    · exact (congrArg Rlc.transmitter (hend code)).trans hx
    · exact (congrArg Rlc.transmitter (hend code)).trans hx
  | returned p => exact (s.returnIfDue_outsideMains p).requests.transmitter.trans hx
  | returning n h => exact ((State.returnIfDue_outsideMains _ _).requests.transmitter).trans hx
  | lost h => exact (s.losePhase_outsideMains _).requests.transmitter.trans hx
  | subcount => exact s.advanceSubcount_outsideMains.requests.transmitter.trans hx
  | quietOff => exact s.releaseQuiet_outsideMains.requests.transmitter.trans hx
  | quietOn h => exact ((State.quietLines_outsideMains _).requests.transmitter).trans hx
  | _ => exact hx

/-- Settles O9, by the acts of the commands, none of which but the end of a transmission frees the transmitter. -/
theorem sendingIsNotInterrupted : Obligations.SendingIsNotInterrupted := by
  intro c s t x hx hend hpower h
  have hacts {k : Stretch} {s t : State} (h : Acts k s t) : s.rlc.transmitter = .sending x → t.rlc.transmitter = .sending x :=
    acts_keep (P := fun s : State => s.rlc.transmitter = .sending x) (fun h hs => Act.sending h hs) h
  obtain ⟨u, hcross, k, -, hrun⟩ := exec_acts h hpower hend
  exact hacts hrun (hacts hcross hx)

/-- Settles O10, by evaluation of the reset state. -/
theorem resetState : Obligations.ResetState :=
  ⟨rfl, rfl, by decide, by decide, by decide, rfl, rfl, rfl, rfl, rfl, rfl, rfl, rfl, rfl⟩

/-- Settles O60, by evaluation of the reset state. -/
theorem resetIsSound : Obligations.ResetIsSound := by
  unfold Obligations.ResetIsSound
  and_intros
  all_goals decide +kernel

end Sys2Proof.Machine
end

section
/-! PROOF. What bytes spell (R164), and the bytes of notices and of the records the part sends (Tables 11-2 and 11-8). -/

namespace Sys2Proof.Machine

/-! ### The number that bytes spell -/

/-- The unsigned number that bytes spell, most significant byte first. -/
def spelled (l : List Byte) : Nat := l.foldl (fun a (b : Byte) => 256 * a + b.toNat) 0

theorem number_eq_spelled (l : List Byte) (offset n : Nat) : number l offset n = spelled ((l.drop offset).take n) := rfl

/-- A field between other bytes is spelled at its offset. -/
theorem number_middle (before field after : List Byte) :
    number (before ++ (field ++ after)) before.length field.length = spelled field := by
  rw [number_eq_spelled, List.drop_left, List.take_left]

theorem spelled_byte (b : Byte) : spelled [b] = b.toNat := by simp [spelled]

theorem spelled_bytes16 (v : BitVec 16) : spelled (bytes16 v) = v.toNat := by
  have h := v.isLt
  simp only [spelled, bytes16, List.foldl_cons, List.foldl_nil, BitVec.extractLsb'_toNat, Nat.shiftRight_eq_div_pow]
  omega

theorem spelled_bytes24 (v : BitVec 24) : spelled (bytes24 v) = v.toNat := by
  have h := v.isLt
  simp only [spelled, bytes24, List.foldl_cons, List.foldl_nil, BitVec.extractLsb'_toNat, Nat.shiftRight_eq_div_pow]
  omega

theorem spelled_num8 (n : Nat) : spelled [num8 n] = n % 256 := by rw [spelled_byte, num8, BitVec.toNat_ofNat]

theorem spelled_num16 (n : Nat) : spelled (num16 n) = n % 65536 := by rw [num16, spelled_bytes16, BitVec.toNat_ofNat]

theorem spelled_group (g : Fin 16) : spelled [num8 g.val] = g.val := by
  have h := g.isLt
  rw [spelled_num8]
  omega

/-! ### Notices (R150, Table 11-8) -/

theorem flagByte_spelled (b : Bool) : spelled [flagByte b] = if b = true then 1 else 0 := by cases b <;> rfl

theorem post_room {s : State} (n : Notice) (h : s.rlc.notices.length < 16) :
    s.post n = { s with rlc := { s.rlc with notices := s.rlc.notices ++ [n] } } :=
  congrArg (fun r => { s with rlc := r }) (if_pos h)

theorem post_full {s : State} (n : Notice) (h : 16 ≤ s.rlc.notices.length) :
    s.post n = { s with rlc := { s.rlc with noticeLost := true } } :=
  congrArg (fun r => { s with rlc := r }) (if_neg (Nat.not_lt.mpr h))

/-- The envelope of a record the part sends (Table 11-2). -/
theorem Outgoing.wire_envelope (x : Outgoing) (h : x.body.length ≤ 249) :
    x.wire.length = x.body.length + 5 ∧ number x.wire 0 1 = 0xC3 ∧ number x.wire 1 1 = x.body.length + 1
      ∧ number x.wire 2 1 = x.typeByte.toNat ∧ (x.wire.drop 3).take x.body.length = x.body
      ∧ number x.wire (x.body.length + 3) 2 = (crc16 ((x.wire.drop 1).take (x.body.length + 2))).toNat := by
  have hcovered : (x.wire.drop 1).take (x.body.length + 2) = covered x.typeByte x.body := by
    have hlength : (covered x.typeByte x.body).length = x.body.length + 2 := rfl
    exact hlength ▸ List.take_left
  have hwire : x.wire = (0xC3 :: covered x.typeByte x.body) ++ (bytes16 (crc16 (covered x.typeByte x.body)) ++ []) := by
    simp [Outgoing.wire]
  have hlen : number x.wire 1 1 = (x.body.length + 1) % 256 := spelled_num8 _
  refine ⟨by simp [Outgoing.wire, covered, bytes16], spelled_byte 0xC3, by rw [hlen]; omega, spelled_byte _,
    List.take_left, ?_⟩
  rw [hcovered]
  calc number x.wire (x.body.length + 3) 2
      = number ((0xC3 :: covered x.typeByte x.body) ++ (bytes16 (crc16 (covered x.typeByte x.body)) ++ []))
          (0xC3 :: covered x.typeByte x.body).length (bytes16 (crc16 (covered x.typeByte x.body))).length := by
        rw [hwire]; rfl
    _ = _ := (number_middle _ _ _).trans (spelled_bytes16 _)

/-- Settles O50, by the room of the queue, the envelope, the fields of each notice, and the tables of codes. -/
theorem noticesQueue : Obligations.NoticesQueue := by
  refine ⟨fun s n => ⟨post_room n, post_full n⟩, fun x l body hl hb hlen => ?_, fun n l hl => ?_, ?_⟩
  · subst hl hb
    obtain ⟨h1, h2, h3, h4, h5, h6⟩ := x.wire_envelope hlen
    exact ⟨h1, h2, h3, h4, h5, h6, fun r hr => hr ▸ ⟨rfl, rfl⟩, fun n hn => hn ▸ ⟨rfl, rfl⟩⟩
  · subst hl
    refine ⟨?_, ?_, ?_, ?_, ?_, ?_, ?_⟩
    · rintro cause rfl
      exact ⟨rfl, rfl, spelled_byte _⟩
    · rintro tag st rfl
      exact ⟨rfl, rfl, spelled_bytes16 tag, spelled_byte _⟩
    · rintro p pres period rfl
      exact ⟨rfl, rfl, spelled_byte _, spelled_byte _, spelled_num16 period⟩
    · rintro asserted rfl
      exact ⟨rfl, rfl, flagByte_spelled asserted⟩
    · rintro i a h miss rfl
      exact ⟨rfl, rfl, spelled_num16 i, spelled_bytes24 a, spelled_byte _, spelled_num8 miss⟩
    · rintro g p rfl
      exact ⟨rfl, rfl, spelled_group g, spelled_byte _⟩
    · rintro g v tag cause rfl
      cases v with
      | band b =>
        exact ⟨rfl, rfl, spelled_group g, spelled_bytes16 tag, spelled_byte _,
          fun b' hb => by cases hb; exact ⟨rfl, spelled_num8 b⟩, nofun⟩
      | relay v =>
        exact ⟨rfl, rfl, spelled_group g, spelled_bytes16 tag, spelled_byte _, nofun,
          fun v' hv => by cases hv; exact ⟨rfl, spelled_byte _⟩⟩
  · refine ⟨rfl, rfl, rfl, rfl, rfl, rfl, rfl, rfl, rfl, rfl, rfl, rfl, rfl, rfl, rfl, fun b => ?_⟩
    cases b <;> rfl

end Sys2Proof.Machine
end

section
/-! PROOF. The bytes of outbound frames, field by field (Tables 11-9 to 11-11), and their delay fields (R64 to R67). -/

namespace Sys2Proof.Machine

/-! ### Fields of joined bytes -/

theorem number_append_left {a b : List Byte} {offset n : Nat} (h : offset + n ≤ a.length) :
    number (a ++ b) offset n = number a offset n := by
  rw [number_eq_spelled, number_eq_spelled, List.drop_append_of_le_length (by omega),
    List.take_append_of_le_length (by rw [List.length_drop]; omega)]

theorem number_append_right (a b : List Byte) (offset n : Nat) :
    number (a ++ b) (a.length + offset) n = number b offset n := by
  rw [number_eq_spelled, number_eq_spelled, List.drop_length_add_append]

theorem flatMap_bytes24_length (hops : List Addr) : (hops.flatMap bytes24).length = 3 * hops.length := by
  induction hops with
  | nil => rfl
  | cons a hops ih => rw [List.flatMap_cons, List.length_append, ih, List.length_cons]; simp only [bytes24, List.length_cons, List.length_nil]; omega

theorem number_hop {hops : List Addr} {j : Nat} {a : Addr} (h : hops[j]? = some a) (after : List Byte) :
    number (hops.flatMap bytes24 ++ after) (3 * j) 3 = a.toNat := by
  obtain ⟨hj, ha⟩ := List.getElem?_eq_some_iff.mp h
  have hsplit : hops.flatMap bytes24 ++ after
      = (hops.take j).flatMap bytes24 ++ (bytes24 a ++ ((hops.drop (j + 1)).flatMap bytes24 ++ after)) := by
    have hcons : hops = hops.take j ++ a :: hops.drop (j + 1) := by
      rw [← ha, List.getElem_cons_drop, List.take_append_drop]
    conv_lhs => rw [hcons]
    rw [List.flatMap_append, List.flatMap_cons, List.append_assoc, List.append_assoc]
  have hlength : ((hops.take j).flatMap bytes24).length = 3 * j := by
    rw [flatMap_bytes24_length, List.length_take]
    omega
  rw [hsplit, ← hlength]
  exact (number_middle _ (bytes24 a) _).trans (spelled_bytes24 a)

/-! ### The kind byte (R167) -/

theorem kindByte_toNat {code hops : Nat} (hc : code ≤ 6) (hh : hops ≤ 2) : (kindByte code hops).toNat = 16 * code + 4 * hops := by
  rw [kindByte, num8, BitVec.toNat_ofNat]
  omega

theorem kindCode_kindByte {code hops : Nat} (hc : code ≤ 6) (hh : hops ≤ 2) : kindCode (kindByte code hops) = code := by
  interval_cases code <;> interval_cases hops <;> rfl

theorem kindHops_kindByte {code hops : Nat} (hc : code ≤ 6) (hh : hops ≤ 2) : kindHops (kindByte code hops) = hops := by
  interval_cases code <;> interval_cases hops <;> rfl

/-- The kind code of an outbound frame (Table 11-9). -/
def Content.kind : Content → Nat
  | .groupBand .. => 1
  | .groupRelay .. => 2
  | .refresh .. => 3
  | .directBand .. => 4
  | .directRelay .. => 5
  | .query .. => 6

theorem Content.kind_le (c : Content) : c.kind ≤ 6 := by cases c <;> simp [Content.kind]

theorem Content.byteAt_zero (c : Content) : byteAt c.bytes 0 = kindByte c.kind c.hops.length := by cases c <;> rfl

theorem bandField_length (b : Option (Nat × Tag)) : (bandField b).length = 3 := by rcases b with _ | ⟨b, t⟩ <;> rfl
theorem relayField_length (b : Option (RelayValue × Tag)) : (relayField b).length = 3 := by rcases b with _ | ⟨b, t⟩ <;> rfl

theorem Content.plain_length (c : Content) : c.plain.length + 2 = c.size := by
  cases c <;>
    simp [Content.plain, Content.size, Content.hopCount, bytes16, bytes24, num16, bandField_length, relayField_length]
    <;> omega

theorem Content.bytes_length (c : Content) : c.bytes.length = c.size := by
  rw [← c.plain_length, Content.bytes, List.length_append]
  rfl

/-- The size that a frame's kind byte gives is its size. -/
theorem Content.frameLength_kind (c : Content) (h : c.hops.length ≤ 2) : frameLength (byteAt c.bytes 0) = c.size := by
  have hkind := kindCode_kindByte c.kind_le h
  have hhops := kindHops_kindByte c.kind_le h
  rw [c.byteAt_zero, frameLength, hkind, hhops]
  cases c <;> rfl

theorem Content.number_crc (c : Content) : number c.bytes (c.size - 2) 2 = (crc16 (c.bytes.take (c.size - 2))).toNat := by
  have hlength : c.plain.length = c.size - 2 := by have := c.plain_length; omega
  have htake : c.bytes.take (c.size - 2) = c.plain := by
    rw [← hlength]
    exact List.take_left
  have hbytes : c.bytes = c.plain ++ (bytes16 (crc16 c.plain) ++ []) := by simp [Content.bytes]
  rw [htake]
  conv_lhs => rw [hbytes, ← hlength]
  exact (number_middle _ (bytes16 (crc16 c.plain)) _).trans (spelled_bytes16 _)

/-! ### Addressed frames (Table 11-11) -/

/-- The bytes of an addressed frame up to its target, and after them its hops and what follows. -/
theorem addressed_fields {code : Nat} (site target : Addr) {hops : List Addr} {tail l : List Byte} (hc : code ≤ 6)
    (hh : hops.length ≤ 2)
    (hl : l = (kindByte code hops.length :: bytes24 site ++ bytes24 target) ++ (hops.flatMap bytes24 ++ tail)) :
    number l 0 1 = 16 * code + 4 * hops.length ∧ number l 1 3 = site.toNat ∧ number l 4 3 = target.toNat
      ∧ (∀ j a, hops[j]? = some a → number l (7 + 3 * j) 3 = a.toNat)
      ∧ ∀ offset n, number l (7 + offset + 3 * hops.length) n = number tail offset n := by
  subst hl
  refine ⟨(spelled_byte _).trans (kindByte_toNat hc hh), spelled_bytes24 site, spelled_bytes24 target, fun j a ha => ?_,
    fun offset n => ?_⟩
  · exact (number_append_right _ _ (3 * j) 3).trans (number_hop ha tail)
  · have hafter := number_append_right (hops.flatMap bytes24) tail offset n
    rw [flatMap_bytes24_length] at hafter
    rw [show 7 + offset + 3 * hops.length = 7 + (3 * hops.length + offset) by omega]
    exact (number_append_right (kindByte code hops.length :: bytes24 site ++ bytes24 target) _ _ n).trans hafter

theorem RelayValue.spelled_code (v : RelayValue) : spelled [v.code] = if v = .on then 1 else 0 := by cases v <;> rfl

/-- Settles O49, by the kind byte, the CRC's place, and each field's place in its table. -/
theorem frameBytesFollowTheirKind : Obligations.FrameBytesFollowTheirKind := by
  intro c l hh hl
  subst hl
  refine ⟨c.bytes_length, c.frameLength_kind hh, ?_, ?_, ?_, ?_, ?_, c.number_crc, ?_, ?_, ?_, ?_, ?_, ?_⟩
  · rw [c.byteAt_zero, kindByte_toNat c.kind_le hh]
    omega
  · rw [c.byteAt_zero, kindByte_toNat c.kind_le hh]
    omega
  · rw [c.byteAt_zero, kindByte_toNat c.kind_le hh]
    have hcode : (16 * c.kind + 4 * c.hops.length) / 16 = c.kind := by omega
    rw [hcode]
    cases c <;> simp [Content.kind, Content.size, Content.hops, Content.hopCount]
  · unfold carrierOf
    omega
  · unfold carrierOf
    omega
  · rintro site g tag band d rfl
    exact ⟨rfl, spelled_bytes24 site, spelled_group g, spelled_bytes16 tag, spelled_num8 band, spelled_num16 d⟩
  · rintro site g tag v minutes d rfl
    exact ⟨rfl, spelled_bytes24 site, spelled_group g, spelled_bytes16 tag, v.spelled_code, spelled_num16 minutes,
      spelled_num16 d⟩
  · rintro site g band relay minutes rfl
    refine ⟨rfl, spelled_bytes24 site, spelled_group g, ?_, ?_, ?_, ?_, ?_⟩
    · rintro b tag rfl
      exact ⟨spelled_num8 b, spelled_bytes16 tag⟩
    · rintro rfl
      exact ⟨rfl, rfl⟩
    · rintro v tag rfl
      rcases band with _ | ⟨b, t⟩ <;> exact ⟨v.spelled_code, spelled_bytes16 tag⟩
    · rintro rfl
      rcases band with _ | ⟨b, t⟩ <;> exact ⟨rfl, rfl⟩
    · rcases band with _ | ⟨b, t⟩ <;> rcases relay with _ | ⟨v, u⟩ <;> exact spelled_num16 minutes
  · rintro site target hops tag band d n limit k rfl rfl
    obtain ⟨hkind, hsite, htarget, hhops, htail⟩ := addressed_fields (code := 4) site target (by decide) hh
      (l := (Content.directBand site target hops tag band d n limit).bytes)
      (tail := bytes16 tag ++ [num8 band] ++ num16 d ++ [num8 n, num8 limit]
        ++ bytes16 (crc16 (Content.directBand site target hops tag band d n limit).plain)) (by
          simp [Content.bytes, Content.plain, Content.hops])
    exact ⟨hkind, hsite, htarget, hhops, (htail 0 2).trans (spelled_bytes16 tag), (htail 2 1).trans (spelled_num8 band),
      (htail 3 2).trans (spelled_num16 d), (htail 5 1).trans (spelled_num8 n), (htail 6 1).trans (spelled_num8 limit)⟩
  · rintro site target hops tag v minutes d n limit k rfl rfl
    obtain ⟨hkind, hsite, htarget, hhops, htail⟩ := addressed_fields (code := 5) site target (by decide) hh
      (l := (Content.directRelay site target hops tag v minutes d n limit).bytes)
      (tail := bytes16 tag ++ [v.code] ++ num16 minutes ++ num16 d ++ [num8 n, num8 limit]
        ++ bytes16 (crc16 (Content.directRelay site target hops tag v minutes d n limit).plain)) (by
          simp [Content.bytes, Content.plain, Content.hops])
    exact ⟨hkind, hsite, htarget, hhops, (htail 0 2).trans (spelled_bytes16 tag), (htail 2 1).trans v.spelled_code,
      (htail 3 2).trans (spelled_num16 minutes), (htail 5 2).trans (spelled_num16 d), (htail 7 1).trans (spelled_num8 n),
      (htail 8 1).trans (spelled_num8 limit)⟩
  · rintro site target hops tagLow rfl
    obtain ⟨hkind, hsite, htarget, hhops, htail⟩ := addressed_fields (code := 6) site target (by decide) hh
      (l := (Content.query site target hops tagLow).bytes)
      (tail := [tagLow] ++ bytes16 (crc16 (Content.query site target hops tagLow).plain)) (by
          simp [Content.bytes, Content.plain, Content.hops])
    exact ⟨hkind, hsite, htarget, hhops, (htail 0 1).trans (spelled_byte tagLow)⟩

/-! ### Delay fields (R64 to R67) -/

theorem delayField_is (te : Nat) (effective : Option Nat) : DelayIs te effective (delayField te effective) := by
  refine ⟨fun h => by rw [h, delayField], fun e he => ?_⟩
  rw [he]
  simp only [delayField, Config.maxCount]
  constructor
  · intro h
    rw [if_pos h]
  · intro h
    rw [if_neg (by omega)]
    omega

theorem State.delayFor_is (s : State) (p : Phase) (k size hops : Nat) (o : Order) :
    OrderDelay s o (s.mains p).period (outboundSpan k s.params.guard (carrierOf size) hops) (s.delayFor p k size hops o) := by
  unfold State.delayFor
  refine ⟨fun h => if_pos h, fun h => ?_⟩
  rw [if_neg (by simp [h])]
  exact delayField_is _ _

theorem restoreField_eq (r : Option Nat) : restoreField r = r.getD 0 := by cases r <;> rfl

theorem State.routeOf_getD (s : State) (i : Nat) : s.dir.routeOf i = ((s.house i).map (·.route)).getD [] := by
  unfold Dir.routeOf State.house
  cases s.dir.get i <;> rfl

theorem State.hopsAt_getD (s : State) (i : Nat) :
    s.hopsAt i = (((s.house i).map (·.route)).getD []).map fun j => ((s.house j).map (·.address)).getD 0 := by
  rw [State.hopsAt, s.routeOf_getD]
  exact List.map_congr_left fun j _ => s.addressAt_eq j

theorem State.hopsAt_length (s : State) (i : Nat) : (s.hopsAt i).length = (s.dir.routeOf i).length := List.length_map _

/-- Settles O48, by the delay field of each order frame. -/
theorem framesCarryTheirDelay : Obligations.FramesCarryTheirDelay := by
  intro s p k n i o g hops hhops
  rw [← s.hopsAt_getD] at hhops
  subst hhops
  have hspan (size : Nat) (hops : Nat) : outboundSpan k s.params.guard (carrierOf size) hops
      = k + s.params.guard + carrierOf size + hops * (carrierOf size + 1) := rfl
  have hdelay (size hops : Nat) := s.delayFor_is p k size hops o
  refine ⟨fun b hb => ⟨⟨s.delayFor p k 12 0 o, ?_, ?_⟩, s.delayFor p k (16 + 3 * (s.hopsAt i).length) (s.hopsAt i).length o, ?_, ?_⟩,
    fun v restore hv => ⟨⟨s.delayFor p k 14 0 o, ?_, ?_⟩, s.delayFor p k (18 + 3 * (s.hopsAt i).length) (s.hopsAt i).length o, ?_, ?_⟩⟩
  · simp only [State.orderFrame, State.buildFrame, State.repeatContent, hb]
  · have h := hdelay 12 0
    rw [hspan, Nat.zero_mul, Nat.add_zero] at h
    exact h
  · simp only [State.orderFrame, State.buildFrame, State.addressedContent, hb, s.addressAt_eq]
  · have h := hdelay (16 + 3 * (s.hopsAt i).length) (s.hopsAt i).length
    rw [hspan, carrierOf, Nat.add_right_comm 16] at h
    exact h
  · simp only [State.orderFrame, State.buildFrame, State.repeatContent, hv, restoreField_eq]
  · have h := hdelay 14 0
    rw [hspan, Nat.zero_mul, Nat.add_zero] at h
    exact h
  · simp only [State.orderFrame, State.buildFrame, State.addressedContent, hv, s.addressAt_eq, restoreField_eq]
  · have h := hdelay (18 + 3 * (s.hopsAt i).length) (s.hopsAt i).length
    rw [hspan, carrierOf, Nat.add_right_comm 18] at h
    exact h

end Sys2Proof.Machine
end

section
/-! PROOF. Power-up, status, identity, settings, and the report of a directory entry (R152, R153, R156 to R163, R25, R41). -/

namespace Sys2Proof.Machine

/-! ### Power-up (R160, R163) -/

theorem readCells_blank : readCells .unprogrammed .unprogrammed = (.blank, 0) := rfl

theorem readCells_written {c : Addr} (h : 1 ≤ c.toNat ∧ c.toNat ≤ 0xFFFFFE) : readCells .written (.holds c) = (.written, c) :=
  if_pos ((addressOk_iff c).mpr h)

theorem readCells_written_out_of_range {c : Addr} (h : c.toNat = 0 ∨ 0xFFFFFE < c.toNat) :
    readCells .written (.holds c) = (.fault, 0) :=
  if_neg fun hok => by
    have hrange := (addressOk_iff c).mp hok
    omega

/-- Cells that spell neither a new store nor a code in range spell FAULT. -/
theorem readCells_fault {mark : MarkCells} {code : CodeCells} (hblank : ¬(mark = .unprogrammed ∧ code = .unprogrammed))
    (hwritten : ∀ c, ¬(mark = .written ∧ code = .holds c)) : readCells mark code = (.fault, 0) := by
  cases mark <;> cases code <;> first | rfl | exact absurd ⟨rfl, rfl⟩ hblank | exact absurd ⟨rfl, rfl⟩ (hwritten _)

/-- The code cells after a power-up. -/
theorem Scs.powerUp_codeCells (x : Scs) (touched : Bool) :
    (x.powerUp touched).codeCells = if x.programming ≠ none ∧ touched = true then .partly else x.codeCells := by
  unfold Scs.powerUp
  cases x.programming <;> cases touched <;> rfl

theorem Scs.powerUp_reads (x : Scs) (touched : Bool) :
    ((x.powerUp touched).state, (x.powerUp touched).code) = readCells x.markCells (x.powerUp touched).codeCells := rfl

/-- Settles O11, by the blocks of the power-up state and what the store makes of its cells. -/
theorem powerUpState : Obligations.PowerUpState := by
  intro s quiet touched
  have hcells := s.scs.powerUp_codeCells touched
  have hreads := s.scs.powerUp_reads touched
  rw [hcells] at hreads
  have hstate {st : StoreState} {code : Addr}
      (h : readCells s.scs.markCells (if s.scs.programming ≠ none ∧ touched = true then .partly else s.scs.codeCells)
        = (st, code)) : (s.scs.powerUp touched).state = st ∧ (s.scs.powerUp touched).code = code :=
    Prod.ext_iff.mp (hreads.trans h)
  have hstanding (g : Fin 16) : (s.powerOn quiet touched).standing g = ⟨none, none, none, none, 0⟩ :=
    s.powerOn_standing quiet touched g
  refine ⟨s.powerOn quiet touched, rfl, rfl, rfl, rfl, rfl, fun p => s.powerOn_line quiet touched p,
    fun p => s.powerOn_mains quiet touched p, fun p => s.powerOn_queue quiet touched p, hstanding, rfl, rfl, rfl, rfl, rfl,
    rfl, rfl, rfl, fun hm hc => ?_, hcells, fun c hm hc hq h1 h2 => ?_, fun c hm hc hr => ?_, fun hp ht => ?_,
    fun hm hc => ?_, fun hm hc => ?_, fun hm => ?_⟩
  · by_cases hq : s.scs.programming ≠ none ∧ touched = true
    · rw [if_pos hq] at hstate ⊢
      rw [hm] at hstate
      exact (hstate rfl).1
    · rw [if_neg hq] at hstate ⊢
      rw [hm, hc] at hstate
      exact (hstate rfl).1
  · rw [if_neg (by rcases hq with h | h <;> simp [h]), hm, hc] at hstate
    exact hstate (readCells_written ⟨h1, h2⟩)
  · rw [hm, hc] at hstate
    by_cases hq : s.scs.programming ≠ none ∧ touched = true
    · rw [if_pos hq] at hstate
      exact (hstate rfl).1
    · rw [if_neg hq] at hstate
      exact (hstate (readCells_written_out_of_range hr)).1
  · rw [if_pos ⟨hp, ht⟩] at hstate
    exact (hstate (readCells_fault (by simp) (by simp))).1
  · refine (hstate (readCells_fault (by split <;> simp [hc]) (by simp [hm]))).1
  · refine (hstate (readCells_fault (by simp [hm]) fun c => ?_)).1
    split
    · simp
    · simpa [hm] using hc c
  · exact (hstate (readCells_fault (by rcases hm with h | h <;> simp [h]) (by rcases hm with h | h <;> simp [h]))).1

/-! ### Status and identity (R152, R153) -/

theorem Causes.isEmpty_iff_eq (c : Causes) : c.isEmpty = true ↔ c = ⟨false, false, false, false⟩ := by
  obtain ⟨a, b, c, d⟩ := c
  cases a <;> cases b <;> cases c <;> cases d <;> decide

theorem Line.inSlot_iff (l : Line) : l.inSlot = true ↔ l.segment ≠ .none := decide_eq_true_iff

theorem Line.state_code (l : Line) :
    l.state.code = if l.segment ≠ .none then 0x01 else if l.causes = ⟨false, false, false, false⟩ then 0x00 else 0x02 := by
  unfold Line.state
  simp only [Line.inSlot_iff, Causes.isEmpty_iff_eq]
  split
  · rfl
  · split <;> rfl

theorem headD_filter_map {α β : Type} (l : List α) (q : α → Bool) (f : α → β) (d : β) :
    ((l.filter q).map f).headD d = ((l.find? q).map f).getD d := by
  rw [← List.head?_filter]
  cases l.filter q <;> rfl

theorem State.phaseStatus_eq (s : State) (p : Phase) : s.phaseStatus p = phaseBytes s p := by
  have hservice : (s.inService p).getD 0
      = ((s.orm.table.filter fun o => decide ((o.progress.get p).stage = .serving)).map (·.tag)).headD 0 :=
    (headD_filter_map s.orm.table _ (·.tag) 0).symm
  have hpending : flagByte (s.line p).holdPending = if (s.line p).holdPending then 0x01 else 0x00 := rfl
  simp only [State.phaseStatus, phaseBytes, Line.state_code, hservice, hpending, Causes.code]

theorem Orm.countIn_eq (m : Orm) (st : OrderState) : m.countIn st = m.table.countP fun o => decide (o.state = st) :=
  List.countP_eq_length_filter.symm

theorem Scs.reported_eq (x : Scs) : x.reported = if x.state = .written then x.code else 0 := by
  unfold Scs.reported
  cases x.state <;> rfl

/-- Settles O12, by what each field of the reports reads. -/
theorem statusAndIdentity : Obligations.StatusAndIdentity := by
  intro s hp
  have hstatus := exec_of_answered (r := .getStatus) (s := s) hp rfl
  have hidentity := exec_of_answered (r := .getIdentity) (s := s) hp rfl
  have hlevel : Config.designLevel = Config.designSeed % 255 + 1 := rfl
  refine ⟨?_, ?_, by omega, by omega⟩
  · refine hstatus.trans ?_
    simp only [handleGetStatus, State.phaseStatus_eq, Orm.countIn_eq]
    rfl
  · refine hidentity.trans ?_
    simp only [handleGetIdentity, Scs.reported_eq]
    rfl

/-! ### Settings (R25, R156, R159) -/

theorem handleSetConfig_unknown {id : Byte} (h : paramOf id = none) (v : BitVec 16) (s : State) :
    handleSetConfig id v s = s.refuse .badField := by
  rw [handleSetConfig, h]

theorem handleSetConfig_plain {id : Byte} {x : Param} (h : paramOf id = some x) (hx : x ≠ .tagBase) {v : BitVec 16} {n : Nat}
    (hn : n = clampTo x.low x.high v.toNat) (s : State) :
    handleSetConfig id v s = ({ s with params := s.params.put x n }, ⟨if n = v.toNat then .ok else .clamped, id :: num16 n⟩) := by
  subst hn
  simp only [handleSetConfig, h, hx, false_and, if_false]

theorem handleSetConfig_full {id : Byte} (h : paramOf id = some .tagBase) (v : BitVec 16) {s : State} (ht : s.orm.table ≠ []) :
    handleSetConfig id v s = s.refuse .notEmpty := by
  simp only [handleSetConfig, h, true_and, if_pos ht]

theorem handleSetConfig_tagBase {id : Byte} (h : paramOf id = some .tagBase) {v : BitVec 16} {n : Nat}
    (hn : n = clampTo 1 65535 v.toNat) {s : State} (ht : s.orm.table = []) :
    handleSetConfig id v s
      = ({ s with
            params := { s.params with tagBase := n }
            orm := { s.orm with tagCounter := BitVec.ofNat 16 n } },
          ⟨if n = v.toNat then .ok else .clamped, id :: num16 n⟩) := by
  subst hn
  simp only [handleSetConfig, h, true_and, ht, ne_eq, not_true_eq_false, if_false]
  rfl

theorem exec_setConfig {s t : State} {id : Byte} {v : BitVec 16} {a : Answer} (hp : s.rlc.processing = none)
    (h : handleSetConfig id v s = (t, a)) :
    exec (.setConfig id v) s = .next (t.replied (.setConfig id v) a.code a.rest) :=
  exec_of_answered (r := .setConfig id v) hp (by simp only [handle, h])

/-- Settles O15, by the parameter each id names and its range. -/
theorem settingsAreStored : Obligations.SettingsAreStored := by
  intro s hp
  refine ⟨fun id v h1 h2 h3 h4 h5 => ?_, fun v n hn => ?_, fun v n hn => ?_, fun v n hn => ?_, fun v n hn => ?_,
    fun v ht => ?_, fun v n ht hn => ?_, fun v n hn => ?_⟩
  · exact exec_setConfig hp (handleSetConfig_unknown (paramOf_eq_none h1 h2 h3 h4 h5) v s)
  · exact exec_setConfig hp (handleSetConfig_plain (x := .guard) rfl nofun hn s)
  · exact exec_setConfig hp (handleSetConfig_plain (x := .margin) rfl nofun (by rw [hn, clampTo]; simp [Param.low, Param.high]) s)
  · exact exec_setConfig hp (handleSetConfig_plain (x := .refreshPeriod) rfl nofun hn s)
  · exact exec_setConfig hp (handleSetConfig_plain (x := .lead) rfl nofun hn s)
  · exact exec_setConfig hp (handleSetConfig_full rfl v ht)
  · have hv := v.isLt
    exact exec_setConfig hp (handleSetConfig_tagBase rfl (by rw [hn, clampTo]; omega) ht)
  · have hsame : (n = v.toNat) = (v.toNat ≤ 7) := propext (by omega)
    subst hn
    refine (exec_of_answered (r := .setFloor v) hp rfl).trans ?_
    simp only [handleSetFloor, hsame]

/-! ### The report of a directory entry (R41) -/

theorem exec_houseGet {s t : State} {i : BitVec 16} {a : Answer} (hp : s.rlc.processing = none)
    (h : handleHouseGet i s = (t, a)) : exec (.houseGet i) s = .next (t.replied (.houseGet i) a.code a.rest) :=
  exec_of_answered (r := .houseGet i) hp (by simp only [handle, h])

/-- Settles O17, by the two refusals and the tests of frozen and busy. -/
theorem houseGetReports : Obligations.HouseGetReports := by
  intro s i hp
  have hin (hi : i.toNat ≤ 479) : (!indexOk i.toNat) = false := by simp [(indexOk_iff _).mpr hi]
  refine ⟨fun hi => ?_, fun hi hv => ?_, fun h frozen busy hi hh hf hb => ?_⟩
  · have hout : (!indexOk i.toNat) = true := by
      rw [Bool.not_eq_true', Bool.eq_false_iff]
      exact fun hok => absurd ((indexOk_iff _).mp hok) (by omega)
    exact exec_houseGet hp (if_pos hout)
  · refine exec_houseGet (a := .bare .vacant) hp ?_
    have hget : s.dir.get i.toNat = none := hv
    simp only [handleHouseGet, hin hi, hget]
    rfl
  · have hget : s.dir.get i.toNat = some h := hh
    have hfrozen : s.dir.frozen i.toNat = frozen := Bool.eq_iff_iff.mpr ((s.frozen_iff _).trans hf.symm)
    have hbusy : s.busy i.toNat = busy := Bool.eq_iff_iff.mpr ((s.busy_iff _).trans hb.symm)
    have hindex : num16 i.toNat = bytes16 i := num16_toNat i
    refine (exec_houseGet hp (t := s) (a := ⟨.ok, _⟩) (by
      simp only [handleHouseGet, hin hi, hget, hfrozen, hbusy, hindex]
      rfl)).trans ?_
    rfl

end Sys2Proof.Machine
end

section
/-! PROOF. What a submission asks for, and the steps of R9 that refuse one (R9, R10). -/

namespace Sys2Proof.Machine

/-! ### The fields of a submission (R10, Table 11-5) -/

theorem policyOf_eq_some {b : Byte} {x : Policy} : policyOf b = some x ↔ b = x.code := by
  unfold policyOf
  constructor
  · intro h
    split at h
    next hb => cases h; exact hb
    next =>
      split at h
      next hb => cases h; exact hb
      next => cases h
  · rintro rfl
    cases x <;> rfl

theorem directionOf_eq_some {b : Byte} {x : Direction} : directionOf b = some x ↔ b = x.code := by
  unfold directionOf
  constructor
  · intro h
    split at h
    next hb => cases h; exact hb
    next =>
      split at h
      next hb => cases h; exact hb
      next => cases h
  · rintro rfl
    cases x <;> rfl

theorem exists_policy_code (b : Byte) : (∃ x : Policy, b = x.code) ↔ b = 0 ∨ b = 1 :=
  ⟨fun ⟨x, hx⟩ => by cases x <;> simp [hx, Policy.code],
    fun h => h.elim (fun h => ⟨.none, h⟩) fun h => ⟨.all, h⟩⟩

theorem exists_direction_code (b : Byte) : (∃ x : Direction, b = x.code) ↔ b = 0 ∨ b = 1 :=
  ⟨fun ⟨x, hx⟩ => by cases x <;> simp [hx, Direction.code],
    fun h => h.elim (fun h => ⟨.ascending, h⟩) fun h => ⟨.descending, h⟩⟩

theorem Policy.code_eq_zero (x : Policy) : x.code = 0 ↔ x = .none := by cases x <;> simp [Policy.code]
theorem Direction.code_eq_one (x : Direction) : x.code = 1 ↔ x = .descending := by cases x <;> simp [Direction.code]

theorem some_eq_some_iff_and {α : Type} {P : Prop} {x y b : α} (h : P) (hxy : x = y) : some x = some b ↔ P ∧ b = y := by
  subst hxy
  exact ⟨fun he => ⟨h, (Option.some.inj he).symm⟩, fun he => he.2 ▸ rfl⟩

theorem none_eq_some_iff_and {α : Type} {P : Prop} {y b : α} (h : ¬P) : none = some b ↔ P ∧ b = y :=
  ⟨nofun, fun he => absurd he.1 h⟩

theorem bandBody_eq_some {f : SubmitFields} {g : Fin 16} {b : OrderBody} :
    bandBody f g = some b ↔ (f.value.toNat ≤ 7 ∧ f.restore = 0) ∧ b = .band g f.value.toNat := by
  unfold bandBody bandOf
  by_cases hv : f.value.toNat ≤ 7
  · by_cases hr : f.restore = 0
    · simp only [if_pos hv, if_pos hr]
      exact some_eq_some_iff_and ⟨hv, hr⟩ rfl
    · simp only [if_pos hv, if_neg hr]
      exact none_eq_some_iff_and fun h => hr h.2
  · simp only [if_neg hv]
    exact none_eq_some_iff_and fun h => hv h.1

theorem relayBody_eq_some {f : SubmitFields} {g : Fin 16} {b : OrderBody} :
    relayBody f g = some b ↔
      ((f.value = 0 ∨ f.value = 1) ∧ f.restore.toNat ≤ 1440 ∧ (f.restore ≠ 0 → f.value = 0))
        ∧ b = .relay g (if f.value = 0 then .shed else .on) (if f.restore = 0 then none else some f.restore.toNat) := by
  unfold relayBody relayOf
  by_cases h0 : f.value = 0
  · by_cases hr : f.restore = 0
    · simp only [if_pos h0, if_pos hr]
      exact some_eq_some_iff_and ⟨.inl h0, by rw [hr]; decide, fun _ => h0⟩ rfl
    · by_cases hm : f.restore.toNat ≤ 1440
      · simp only [if_pos h0, if_neg hr, if_pos hm]
        exact some_eq_some_iff_and ⟨.inl h0, hm, fun _ => h0⟩ rfl
      · simp only [if_pos h0, if_neg hr, if_neg hm]
        exact none_eq_some_iff_and fun h => hm h.2.1
  · by_cases h1 : f.value = 1
    · by_cases hr : f.restore = 0
      · simp only [if_neg h0, if_pos h1, if_pos hr]
        exact some_eq_some_iff_and ⟨.inr h1, by rw [hr]; decide, fun h => absurd hr h⟩ rfl
      · simp only [if_neg h0, if_pos h1, if_neg hr]
        exact none_eq_some_iff_and fun h => h0 (h.2.2 hr)
    · simp only [if_neg h0, if_neg h1]
      exact none_eq_some_iff_and fun h => h.1.elim h0 h1

theorem groupSubmission_eq_some {f : SubmitFields} {body : Fin 16 → Option OrderBody} {b : Submission} :
    groupSubmission f body = some b ↔
      (∃ g : Fin 16, g.val = f.group.toNat ∧ body g = some b.body) ∧ f.policy = b.policy.code
        ∧ f.direction = b.direction.code ∧ ¬(f.repeats = 0 ∧ b.policy = .none) ∧ b.repeats = min f.repeats.toNat 4 := by
  unfold groupSubmission
  constructor
  · intro h
    split at h
    next hg =>
      split at h
      next x pol dirn hx hpol hdirn =>
        split at h
        · cases h
        next hsent =>
          cases h
          exact ⟨⟨⟨f.group.toNat, hg⟩, rfl, hx⟩, policyOf_eq_some.mp hpol, directionOf_eq_some.mp hdirn, hsent, rfl⟩
      · cases h
    · cases h
  · rintro ⟨⟨g, hg, hx⟩, hpol, hdirn, hsent, hrep⟩
    have hlt : f.group.toNat < 16 := hg ▸ g.isLt
    have hgroup : ⟨f.group.toNat, hlt⟩ = g := Fin.ext hg.symm
    rw [dif_pos hlt]
    simp only [hgroup, hx, policyOf_eq_some.mpr hpol, directionOf_eq_some.mpr hdirn, if_neg hsent, storedRepeats, ← hrep]

theorem storedExpiry_eq (x now : Nat) : storedExpiry x now = expiryAsStored x now := rfl

theorem submittedEffective_eq (f : SubmitFields) :
    submittedEffective f = if f.effFlag = 0 then none else some f.effective.toNat := by
  unfold submittedEffective isSetFlag
  by_cases h : f.effFlag = 0
  · rw [if_pos h, if_neg (by simpa using h)]
  · rw [if_neg h, if_pos (by simpa using h)]

theorem effectiveOk_iff (f : SubmitFields) (now : Nat) :
    effectiveOk f now = true ↔ (f.effFlag ≠ 0 → f.effective.toNat < expiryAsStored f.expiry.toNat now) := by
  unfold effectiveOk
  rw [submittedEffective_eq]
  by_cases h : f.effFlag = 0
  · rw [if_pos h]
    exact ⟨fun _ hne => absurd h hne, fun _ => rfl⟩
  · rw [if_neg h]
    exact decide_eq_true_iff.trans ⟨fun hlt _ => hlt, fun hlt => hlt h⟩

/-- What a submission asks for, by its kind. -/
theorem submissionOf_eq_some {f : SubmitFields} {now : Nat} {b : Submission} :
    submissionOf f now = some b ↔
      f.priority.toNat ≤ 7 ∧ (f.effFlag ≠ 0 → f.effective.toNat < expiryAsStored f.expiry.toNat now)
        ∧ ((f.kind = 1 ∧ groupSubmission f (bandBody f) = some b) ∨ (f.kind = 2 ∧ groupSubmission f (relayBody f) = some b)
          ∨ (f.kind = 3 ∧ f.target.toNat ≤ 479 ∧ b = ⟨.query f.target.toNat, 0, .all, .ascending⟩)) := by
  rw [← effectiveOk_iff]
  unfold submissionOf
  by_cases hprio : f.priority.toNat ≤ 7
  · rw [if_neg (by omega)]
    by_cases heff : effectiveOk f now = true
    · rw [if_neg (by simp [heff])]
      rw [and_iff_right hprio, and_iff_right heff]
      by_cases h1 : f.kind = 1
      · simp [kindOf, h1]
      · by_cases h2 : f.kind = 2
        · simp [kindOf, h2]
        · have hkind : kindOf f.kind = if f.kind = 3 then some .query else none := by simp only [kindOf, h1, h2, if_false]
          by_cases h3 : f.kind = 3
          · have hcap : f.target.toNat < Config.houseCapacity ↔ f.target.toNat ≤ 479 := Nat.lt_succ_iff
            rw [hkind, if_pos h3]
            dsimp only
            rw [or_iff_right (fun h => h1 h.1), or_iff_right (fun h => h2 h.1), and_iff_right h3]
            by_cases ht : f.target.toNat ≤ 479
            · rw [if_pos (hcap.mpr ht)]
              exact some_eq_some_iff_and ht rfl
            · rw [if_neg fun h => ht (hcap.mp h)]
              exact none_eq_some_iff_and ht
          · rw [hkind, if_neg h3]
            dsimp only
            rw [or_iff_right (fun h => h1 h.1), or_iff_right (fun h => h2 h.1)]
            exact ⟨nofun, fun h => absurd h.1 h3⟩
    · simp [heff]
  · simp [hprio, Nat.lt_of_not_le hprio]

/-- A submission is asked for exactly where the conditions of R10 hold. -/
theorem exists_submission_iff (f : SubmitFields) (now : Nat) : (∃ b, submissionOf f now = some b) ↔ SubmitInRange f now := by
  constructor
  · rintro ⟨b, h⟩
    obtain ⟨hprio, heff, ⟨hk, h⟩ | ⟨hk, h⟩ | ⟨hk, ht, -⟩⟩ := submissionOf_eq_some.mp h
    · obtain ⟨⟨g, hg, hb⟩, hpol, hdirn, hsent, -⟩ := groupSubmission_eq_some.mp h
      have hpolicy := (exists_policy_code f.policy).mp ⟨_, hpol⟩
      have hdirection := (exists_direction_code f.direction).mp ⟨_, hdirn⟩
      rw [← Policy.code_eq_zero, ← hpol] at hsent
      exact ⟨.inl hk, hprio, fun _ => by omega, fun _ => (bandBody_eq_some.mp hb).1, fun h2 => by simp [hk] at h2,
        fun _ => ⟨hpolicy, hdirection, hsent⟩, fun h3 => by simp [hk] at h3, heff⟩
    · obtain ⟨⟨g, hg, hb⟩, hpol, hdirn, hsent, -⟩ := groupSubmission_eq_some.mp h
      have hpolicy := (exists_policy_code f.policy).mp ⟨_, hpol⟩
      have hdirection := (exists_direction_code f.direction).mp ⟨_, hdirn⟩
      rw [← Policy.code_eq_zero, ← hpol] at hsent
      exact ⟨.inr (.inl hk), hprio, fun _ => by omega, fun h1 => by simp [hk] at h1, fun _ => (relayBody_eq_some.mp hb).1,
        fun _ => ⟨hpolicy, hdirection, hsent⟩, fun h3 => by simp [hk] at h3, heff⟩
    · exact ⟨.inr (.inr hk), hprio, fun h3 => absurd hk h3, fun h1 => by simp [hk] at h1, fun h2 => by simp [hk] at h2,
        fun h3 => absurd hk h3, fun _ => ht, heff⟩
  · rintro ⟨hk, hprio, hgroup, hband, hrelay, hsweep, htarget, heff⟩
    have hasked {body : Fin 16 → Option OrderBody} (h3 : f.kind ≠ 3) (hbody : ∀ g, ∃ x, body g = some x) :
        ∃ b, groupSubmission f body = some b := by
      obtain ⟨hpolicy, hdirection, hsent⟩ := hsweep h3
      obtain ⟨pol, hpol⟩ := (exists_policy_code f.policy).mpr hpolicy
      obtain ⟨dirn, hdirn⟩ := (exists_direction_code f.direction).mpr hdirection
      have hg := hgroup h3
      obtain ⟨x, hx⟩ := hbody ⟨f.group.toNat, by omega⟩
      rw [hpol, Policy.code_eq_zero] at hsent
      exact ⟨⟨x, _, pol, dirn⟩, groupSubmission_eq_some.mpr ⟨⟨_, rfl, hx⟩, hpol, hdirn, hsent, rfl⟩⟩
    rcases hk with hk | hk | hk
    · obtain ⟨b, hb⟩ := hasked (by simp [hk]) fun g => ⟨_, bandBody_eq_some.mpr ⟨hband hk, rfl⟩⟩
      exact ⟨b, submissionOf_eq_some.mpr ⟨hprio, heff, .inl ⟨hk, hb⟩⟩⟩
    · obtain ⟨b, hb⟩ := hasked (by simp [hk]) fun g => ⟨_, relayBody_eq_some.mpr ⟨hrelay hk, rfl⟩⟩
      exact ⟨b, submissionOf_eq_some.mpr ⟨hprio, heff, .inr (.inl ⟨hk, hb⟩)⟩⟩
    · exact ⟨_, submissionOf_eq_some.mpr ⟨hprio, heff, .inr (.inr ⟨hk, htarget hk, rfl⟩)⟩⟩

theorem submissionOf_eq_none {f : SubmitFields} {now : Nat} (h : ¬SubmitInRange f now) : submissionOf f now = none := by
  cases hb : submissionOf f now with
  | none => rfl
  | some b => exact absurd ((exists_submission_iff f now).mp ⟨b, hb⟩) h

/-- The body a submission asks for is the one its fields spell. -/
theorem submissionOf_body {f : SubmitFields} {now : Nat} {b : Submission} (h : submissionOf f now = some b) :
    SubmitBody f b.body := by
  obtain ⟨-, -, ⟨hk, h⟩ | ⟨hk, h⟩ | ⟨hk, -, rfl⟩⟩ := submissionOf_eq_some.mp h
  · obtain ⟨⟨g, hg, hb⟩, -⟩ := groupSubmission_eq_some.mp h
    exact ⟨fun _ => ⟨g, hg, (bandBody_eq_some.mp hb).2⟩, fun h2 => by simp [hk] at h2, fun h3 => by simp [hk] at h3⟩
  · obtain ⟨⟨g, hg, hb⟩, -⟩ := groupSubmission_eq_some.mp h
    exact ⟨fun h1 => by simp [hk] at h1, fun _ => ⟨g, hg, (relayBody_eq_some.mp hb).2⟩, fun h3 => by simp [hk] at h3⟩
  · exact ⟨fun h1 => by simp [hk] at h1, fun h2 => by simp [hk] at h2, fun _ => rfl⟩

/-- A submission's body by its kind: a query, or one of the group its fields name. -/
theorem submissionOf_kind {f : SubmitFields} {now : Nat} {b : Submission} (h : submissionOf f now = some b) :
    (f.kind = 3 ∧ b.body = .query f.target.toNat)
      ∨ (f.kind ≠ 3 ∧ ∃ g : Fin 16, g.val = f.group.toNat ∧ b.body.group = some g) := by
  obtain ⟨hband, hrelay, hquery⟩ := submissionOf_body h
  obtain ⟨-, -, ⟨hk, -⟩ | ⟨hk, -⟩ | ⟨hk, -⟩⟩ := submissionOf_eq_some.mp h
  · obtain ⟨g, hg, hb⟩ := hband hk
    exact .inr ⟨by simp [hk], g, hg, by rw [hb]; rfl⟩
  · obtain ⟨g, hg, hb⟩ := hrelay hk
    exact .inr ⟨by simp [hk], g, hg, by rw [hb]; rfl⟩
  · exact .inl ⟨hk, hquery hk⟩

/-! ### The target and the members (R9 steps 3 and 5) -/

theorem targetVacant_iff {s : State} {f : SubmitFields} {now : Nat} {b : Submission} (h : submissionOf f now = some b) :
    targetVacant s b.body = true ↔ SubmitTargetVacant s f := by
  obtain ⟨hk, hb⟩ | ⟨hk, g, -, hg⟩ := submissionOf_kind h
  · rw [hb]
    simp [targetVacant, SubmitTargetVacant, hk, State.house]
  · cases hbody : b.body with
    | query i => rw [hbody] at hg; cases hg
    | _ => exact ⟨nofun, fun hv => absurd hv.1 hk⟩

theorem House.isMember_iff (h : House) (g : Fin 16) (p : Phase) :
    h.isMember g p = true ↔ h.phase = p ∧ h.groups.getLsbD g.val = true := by
  simp [House.isMember, holdsGroup]

theorem Dir.hasMember_iff (d : Dir) (g : Fin 16) (p : Phase) :
    d.hasMember g p = true ↔ ∃ e ∈ d.houses, e.2.phase = p ∧ e.2.groups.getLsbD g.val = true := by
  simp only [Dir.hasMember, List.any_eq_true, House.isMember_iff]

theorem allPhases_any_hasMember (d : Dir) (g : Fin 16) :
    allPhases.any (d.hasMember g) = true ↔ ∃ e ∈ d.houses, e.2.groups.getLsbD g.val = true := by
  simp only [List.any_eq_true, Dir.hasMember_iff]
  constructor
  · rintro ⟨p, -, e, he, -, hg⟩
    exact ⟨e, he, hg⟩
  · rintro ⟨e, he, hg⟩
    exact ⟨e.2.phase, by cases e.2.phase <;> decide, e, he, rfl, hg⟩

theorem noMembers_iff {s : State} {f : SubmitFields} {now : Nat} {b : Submission} (h : submissionOf f now = some b) :
    noMembers s b.body = true ↔ SubmitNoMember s f := by
  obtain ⟨hk, hb⟩ | ⟨hk, g, hg, hgroup⟩ := submissionOf_kind h
  · rw [hb]
    simp [noMembers, SubmitNoMember, hk]
  · have hany : (!allPhases.any (s.dir.hasMember g)) = true ↔ SubmitNoMember s f := by
      rw [Bool.not_eq_true', Bool.eq_false_iff, Ne, allPhases_any_hasMember, SubmitNoMember, ← hg, and_iff_right hk]
      simp only [not_exists, not_and, Bool.not_eq_true]
    cases hbody : b.body with
    | query i => rw [hbody] at hgroup; cases hgroup
    | band g' v | relay g' v r =>
      rw [hbody] at hgroup
      cases hgroup
      exact hany

/-! ### The six steps (R9) -/

theorem exec_orderSubmit {s t : State} {f : SubmitFields} {a : Answer} (hp : s.rlc.processing = none)
    (h : handleOrderSubmit f s = (t, a)) :
    exec (.orderSubmit f) s = .next (t.replied (.orderSubmit f) a.code a.rest) :=
  exec_of_answered (r := .orderSubmit f) hp (by simp only [handle, h])

/-- Past the first two steps of R9, the handling of a submission in range. -/
theorem handleOrderSubmit_of_inRange {s : State} {f : SubmitFields} {b : Submission} (hsite : s.scs.state = .written)
    (hset : s.mtb.clock.isSet = true) (hb : submissionOf f s.now = some b) :
    handleOrderSubmit f s
      = if targetVacant s b.body then s.refuse .vacant
        else if f.expiry.toNat ≤ s.now then s.refuse .expiryPast
        else if noMembers s b.body then s.refuse .noMembers
        else if Config.orderCapacity ≤ s.orm.table.length then s.refuse .tableFull
        else
          (s.admitOrder (admittedOrder s f b s.orm.freeTag),
            ⟨if submissionClamped f (admittedOrder s f b s.orm.freeTag) then .clamped else .ok,
              bytes16 s.orm.freeTag ++ bytes32 s.orm.seqCounter
                ++ [num8 (admittedOrder s f b s.orm.freeTag).repeatCount, num8 (admittedOrder s f b s.orm.freeTag).retryLimit]
                ++ num32 (admittedOrder s f b s.orm.freeTag).expiry⟩) := by
  simp only [handleOrderSubmit, hsite, hset, hb, ne_eq, not_true_eq_false, if_false, Bool.not_true, Bool.false_eq_true]
  rfl

/-- Settles O24, by the first step of R9 that fails. -/
theorem submitRefused : Obligations.SubmitRefused := by
  intro s f hp
  have hrefused {c : Code} (h : handleOrderSubmit f s = s.refuse c) :
      exec (.orderSubmit f) s = .next (s.replied (.orderSubmit f) c []) := exec_orderSubmit hp h
  refine ⟨fun hsite => hrefused (if_pos hsite), fun hsite hclock => hrefused ?_, fun hsite hset => ?_⟩
  · simp [handleOrderSubmit, hsite, hclock]
  · refine ⟨fun hr => hrefused ?_, fun hr hv => hrefused ?_, fun hr hv he => hrefused ?_, fun hr hv he hn => hrefused ?_,
      fun hr hv he hn hfull => hrefused ?_⟩
    · simp [handleOrderSubmit, hsite, hset, submissionOf_eq_none hr]
    all_goals
      obtain ⟨b, hb⟩ := (exists_submission_iff f s.now).mpr hr
      rw [handleOrderSubmit_of_inRange hsite hset hb]
      rw [← targetVacant_iff hb] at hv
    · rw [if_pos hv]
    · rw [if_neg hv, if_pos he]
    · rw [← noMembers_iff hb] at hn
      rw [if_neg hv, if_neg (by omega), if_pos hn]
    · rw [← noMembers_iff hb] at hn
      rw [if_neg hv, if_neg (by omega), if_neg hn]
      exact if_pos hfull

end Sys2Proof.Machine
end

section
/-! PROOF. Reading orders, holds, statistics, the standing state, reset, and the site code (R23, R24, R86, R87, R92, R127,
R154, R161, R162). -/

namespace Sys2Proof.Machine

/-! ### Presence bytes (R164) -/

theorem presenceByte_eight (a b c d e f g h : Bool) :
    presenceByte [a, b, c, d, e, f, g, h]
      = num8 (a.toNat + 2 * b.toNat + 4 * c.toNat + 8 * d.toNat + 16 * e.toNat + 32 * f.toNat + 64 * g.toNat + 128 * h.toNat) := by
  unfold presenceByte
  refine congrArg num8 ?_
  simp only [List.foldr_cons, List.foldr_nil]
  omega

theorem presenceByte_five (a b c d e : Bool) :
    presenceByte [a, b, c, d, e] = num8 (a.toNat + 2 * b.toNat + 4 * c.toNat + 8 * d.toNat + 16 * e.toNat) := by
  unfold presenceByte
  refine congrArg num8 ?_
  simp only [List.foldr_cons, List.foldr_nil]
  omega

/-! ### The RECORD section (Table 11-7) -/

theorem field_append_left {a : List Byte} (b : List Byte) {offset n : Nat} (h : offset - 1 + n ≤ a.length) :
    field (a ++ b) offset n = field a offset n := by
  unfold field
  rw [List.drop_append_of_le_length (by omega), List.take_append_of_le_length (by rw [List.length_drop]; omega)]

theorem field_append_right (a b : List Byte) {offset : Nat} (n : Nat) (h : 1 ≤ offset) :
    field (a ++ b) (a.length + offset) n = field b offset n := by
  unfold field
  rw [Nat.add_sub_assoc h, List.drop_length_add_append]

theorem field_whole (a b : List Byte) : field (a ++ b) 1 a.length = a := List.take_left

theorem Cursor.field_length (c : Cursor) : c.field.length = 2 := by cases c <;> rfl

theorem Progress.report_length (pp : Progress) : pp.report.length = 20 := by
  simp [Progress.report, Cursor.field_length, num16, bytes16]

theorem Progress.report_eq (pp : Progress) :
    pp.report = [pp.stage.code, num8 pp.repeatsSent]
      ++ (match pp.cursor with | .at i => num16 i | .atEnd => [0xFF, 0xFF]) ++ [num8 pp.attempts] ++ num16 pp.confirmed
      ++ num16 pp.override ++ num16 pp.notMember ++ num16 pp.noReply ++ num16 pp.rejected ++ num16 pp.vacant
      ++ num16 pp.expected ++ [if pp.inFlight then 0x01 else 0x00] := by
  unfold Progress.report
  cases pp.cursor <;> rfl

theorem resultField_length (r : Option QueryResult) : (resultField r).length = 10 := by cases r <;> rfl

theorem bandCode_eq (b : Option Nat) : bandCode b = (b.map num8).getD 0xFF := by cases b <;> rfl
theorem relayCode_eq (v : Option RelayValue) : relayCode v = (v.map (·.code)).getD 0xFF := by cases v <;> rfl

theorem OrderBody.groupByte_eq (b : OrderBody) : b.groupByte = num8 ((b.group.map (·.val)).getD 0) := by
  cases b <;> rfl

/-- The RECORD section up to its phase-progress records. -/
def Order.recordHead (o : Order) : List Byte :=
  [0x01, presenceByte [o.effective.isSome, o.closing.isSome, o.finishedAt.isSome, o.result.isSome, o.body.restore.isSome,
     o.body.group.isSome, o.body.target.isSome, o.body.group.isSome]]
    ++ bytes16 o.tag ++ bytes32 o.seq ++ [o.body.kindCode, o.body.groupByte] ++ num16 (o.body.target.getD 0)
    ++ [o.body.valueByte] ++ num16 (o.body.restore.getD 0) ++ [num8 o.priority] ++ num32 (o.effective.getD 0)
    ++ num32 o.expiry ++ [num8 o.repeatCount, o.policy.code, num8 o.retryLimit, o.direction.code, o.state.code]
    ++ [(match o.closing with | some r => r.code | none => 0)] ++ num32 (o.finishedAt.getD 0)

/-- The RECORD section after its phase-progress records. -/
def Order.recordTail (o : Order) : List Byte := [num8 o.misses.length] ++ num16 o.unlisted ++ resultField o.result

theorem Order.recordSection_eq (o : Order) :
    o.recordSection
      = o.recordHead ++ (o.progress.a.report ++ (o.progress.b.report ++ (o.progress.c.report ++ o.recordTail))) := by
  simp only [Order.recordSection, Order.recordHead, Order.recordTail, List.append_assoc] <;> rfl

theorem Order.recordHead_length (o : Order) : o.recordHead.length = 34 := rfl

/-- The fields of the RECORD section up to its phase-progress records. -/
theorem Order.recordHead_fields (o : Order) :
    field o.recordHead 1 1 = [0x01] ∧ field o.recordHead 3 2 = bytes16 o.tag ∧ field o.recordHead 5 4 = bytes32 o.seq
      ∧ field o.recordHead 9 1 = [o.body.kindCode] ∧ field o.recordHead 10 1 = [o.body.groupByte]
      ∧ field o.recordHead 11 2 = num16 (o.body.target.getD 0) ∧ field o.recordHead 13 1 = [o.body.valueByte]
      ∧ field o.recordHead 14 2 = num16 (o.body.restore.getD 0) ∧ field o.recordHead 16 1 = [num8 o.priority]
      ∧ field o.recordHead 17 4 = num32 (o.effective.getD 0) ∧ field o.recordHead 21 4 = num32 o.expiry
      ∧ field o.recordHead 25 5 = [num8 o.repeatCount, o.policy.code, num8 o.retryLimit, o.direction.code, o.state.code]
      ∧ field o.recordHead 30 1 = [match o.closing with | some r => r.code | none => 0]
      ∧ field o.recordHead 31 4 = num32 (o.finishedAt.getD 0) :=
  ⟨rfl, rfl, rfl, rfl, rfl, rfl, rfl, rfl, rfl, rfl, rfl, rfl, rfl, rfl⟩

theorem Order.recordHead_presence (o : Order) :
    field o.recordHead 2 1 = [num8 (o.effective.isSome.toNat + 2 * o.closing.isSome.toNat + 4 * o.finishedAt.isSome.toNat
      + 8 * o.result.isSome.toNat + 16 * o.body.restore.isSome.toNat + 32 * o.body.group.isSome.toNat
      + 64 * o.body.target.isSome.toNat + 128 * o.body.group.isSome.toNat)] := by
  rw [← presenceByte_eight]
  rfl

theorem Order.recordSection_head (o : Order) {offset n : Nat} (h : offset - 1 + n ≤ 34) :
    field o.recordSection offset n = field o.recordHead offset n := by
  rw [o.recordSection_eq]
  exact field_append_left _ h

theorem Order.recordSection_progress (o : Order) (p : Phase) {k : Nat}
    (h : (p = .a ∧ k = 35) ∨ (p = .b ∧ k = 55) ∨ (p = .c ∧ k = 75)) :
    field o.recordSection k 20 = (o.progress.get p).report := by
  have hwhole (pp : Progress) (b : List Byte) : field (pp.report ++ b) 1 20 = pp.report := by
    rw [← pp.report_length]
    exact field_whole _ _
  have hskip (pp : Progress) (b : List Byte) {offset : Nat} (h1 : 1 ≤ offset) :
      field (pp.report ++ b) (20 + offset) 20 = field b offset 20 := by
    rw [← pp.report_length]
    exact field_append_right _ _ _ h1
  have hhead (b : List Byte) {offset : Nat} (h1 : 1 ≤ offset) : field (o.recordHead ++ b) (34 + offset) 20 = field b offset 20 :=
    field_append_right o.recordHead b 20 h1
  rw [o.recordSection_eq]
  obtain ⟨rfl, rfl⟩ | ⟨rfl, rfl⟩ | ⟨rfl, rfl⟩ := h
  · exact (hhead _ (by omega : 1 ≤ 1)).trans (hwhole _ _)
  · exact (hhead _ (by omega : 1 ≤ 21)).trans ((hskip _ _ (by omega : 1 ≤ 1)).trans (hwhole _ _))
  · exact (hhead _ (by omega : 1 ≤ 41)).trans ((hskip _ _ (by omega : 1 ≤ 21)).trans
      ((hskip _ _ (by omega : 1 ≤ 1)).trans (hwhole _ _)))

theorem Order.recordSection_tail (o : Order) {offset : Nat} (n : Nat) (h : 1 ≤ offset) :
    field o.recordSection (94 + offset) n = field o.recordTail offset n := by
  have hsplit : o.recordSection
      = (o.recordHead ++ (o.progress.a.report ++ (o.progress.b.report ++ o.progress.c.report))) ++ o.recordTail := by
    simp only [o.recordSection_eq, List.append_assoc]
  have hlength : (o.recordHead ++ (o.progress.a.report ++ (o.progress.b.report ++ o.progress.c.report))).length = 94 := by
    simp only [List.length_append, Progress.report_length, Order.recordHead_length]
  rw [hsplit, ← hlength]
  exact field_append_right _ _ n h

theorem Order.recordTail_result (o : Order) : field o.recordTail 4 10 = resultField o.result := by
  have htake : (resultField o.result).take 10 = resultField o.result :=
    List.take_of_length_le (by rw [resultField_length])
  exact htake

/-! ### ORDER_LIST and ORDER_READ (R23, R24) -/

theorem exec_orderRead {s t : State} {tag : Tag} {x : Byte} {a : Answer} (hp : s.rlc.processing = none)
    (h : handleOrderRead tag x s = (t, a)) :
    exec (.orderRead tag x) s = .next (t.replied (.orderRead tag x) a.code a.rest) :=
  exec_of_answered (r := .orderRead tag x) hp (by simp only [handle, h])

/-- Settles O26, by the lists the reports are made of. -/
theorem ordersAreRead : Obligations.OrdersAreRead := by
  intro s hp hd
  have hnamed {o : Order} (ho : o ∈ s.orm.table) (h0 : o.tag ≠ 0) : s.named o.tag = some o := State.named_of_mem hd ho h0
  refine ⟨?_, fun tag x h1 h2 => ?_, fun tag x hx ht => ?_, fun o ho h0 => ?_, fun o ho h0 => ?_⟩
  · have hentry : Order.listEntry = fun o : Order =>
        bytes16 o.tag ++ [o.body.kindCode, num8 ((o.body.group.map (·.val)).getD 0), num8 o.priority, o.state.code] :=
      funext fun o => by rw [Order.listEntry, OrderBody.groupByte_eq]
    refine (exec_of_answered (r := .orderList) hp rfl).trans ?_
    rw [handleOrderList, hentry]
  · exact exec_orderRead hp (if_pos ⟨h1, h2⟩)
  · refine exec_orderRead (a := .bare .unknownTag) hp ?_
    have hsect : ¬(x ≠ 0x01 ∧ x ≠ 0x02) := fun h => hx.elim h.1 h.2
    rw [handleOrderRead, if_neg hsect, State.named_eq_none ht]
    rfl
  · refine exec_orderRead (a := ⟨.ok, o.missesSection⟩) hp ?_
    rw [handleOrderRead, if_neg (by decide), hnamed ho h0]
    rfl
  · refine ⟨o.recordSection, exec_orderRead (a := ⟨.ok, o.recordSection⟩) hp ?_, ?_, ?_⟩
    · rw [handleOrderRead, if_neg (by decide), hnamed ho h0]
      rfl
    · simp only [o.recordSection_eq, List.length_append, Progress.report_length, Order.recordHead_length, Order.recordTail,
        resultField_length]
      rfl
    · have hclosing : (match o.closing with | some r => r.code | none => (0 : Byte)) = (o.closing.map (·.code)).getD 0 := by
        cases o.closing <;> rfl
      have hvalue : o.body.valueByte = match o.body with | .band _ b => num8 b | .relay _ v _ => v.code | .query _ => 0 := by
        cases o.body <;> rfl
      have hhead {offset n : Nat} {f : List Byte} (h : field o.recordHead offset n = f) (hin : offset - 1 + n ≤ 34) :
          field o.recordSection offset n = f := (o.recordSection_head hin).trans h
      obtain ⟨h1, h3, h5, h9, h10, h11, h13, h14, h16, h17, h21, h25, h30, h31⟩ := o.recordHead_fields
      rw [OrderBody.groupByte_eq] at h10
      rw [hvalue] at h13
      rw [hclosing] at h30
      refine ⟨hhead h1 (by omega), hhead o.recordHead_presence (by omega), hhead h3 (by omega), hhead h5 (by omega),
        hhead h9 (by omega), hhead h10 (by omega), hhead h11 (by omega), hhead h13 (by omega), hhead h14 (by omega),
        hhead h16 (by omega), hhead h17 (by omega), hhead h21 (by omega), hhead h25 (by omega), hhead h30 (by omega),
        hhead h31 (by omega), fun p k hk => ?_,
        o.recordSection_tail (offset := 1) 1 (by omega), o.recordSection_tail (offset := 2) 2 (by omega), fun hr => ?_,
        fun r hr => ?_⟩
      · exact (o.recordSection_progress p hk).trans (Progress.report_eq _)
      · exact (o.recordSection_tail (offset := 4) 10 (by omega)).trans (by rw [o.recordTail_result, hr]; rfl)
      · refine (o.recordSection_tail (offset := 4) 10 (by omega)).trans ?_
        rw [o.recordTail_result, hr, resultField, bandCode_eq, relayCode_eq]
        rfl

/-! ### Holds (R86, R87) -/

theorem phaseOf_eq_none {c : Byte} (h1 : c ≠ 1) (h2 : c ≠ 2) (h3 : c ≠ 3) : phaseOf c = none := by
  simp only [phaseOf, h1, h2, h3, if_false]

theorem exec_phaseHold {s t : State} {b : Byte} {a : Answer} (hp : s.rlc.processing = none)
    (h : handlePhaseHold b s = (t, a)) : exec (.phaseHold b) s = .next (t.replied (.phaseHold b) a.code a.rest) :=
  exec_of_answered (r := .phaseHold b) hp (by simp only [handle, h])

theorem exec_phaseResume {s t : State} {b : Byte} {a : Answer} (hp : s.rlc.processing = none)
    (h : handlePhaseResume b s = (t, a)) : exec (.phaseResume b) s = .next (t.replied (.phaseResume b) a.code a.rest) :=
  exec_of_answered (r := .phaseResume b) hp (by simp only [handle, h])

theorem State.modLine_eq (s : State) (p : Phase) (f : Line → Line) : s.modLine p f = withLine s p (f (s.line p)) := rfl

theorem withLine_self (s : State) (p : Phase) : withLine s p (s.line p) = s := by
  have hset : s.lines.set p (s.line p) = s.lines := by cases p <;> rfl
  rw [withLine, hset]

theorem handlePhaseHold_eq (s : State) (p : Phase) :
    handlePhaseHold (phaseCode p) s
      = if (s.line p).causes.held then (s, ⟨.ok, [0x02]⟩)
        else if (s.line p).holdPending then (s, ⟨.ok, [0x01]⟩)
        else if (s.line p).inSlot then (withLine s p { s.line p with holdPending := true }, ⟨.ok, [0x01]⟩)
        else (withLine s p { s.line p with causes := { (s.line p).causes with held := true } }, ⟨.ok, [0x02]⟩) := by
  rw [handlePhaseHold, phaseOf_phaseCode]
  rfl

theorem Line.holdState_code (l : Line) :
    l.holdState.code = if l.causes.held then 0x02 else if l.holdPending then 0x01 else 0x00 := by
  unfold Line.holdState
  split
  · rfl
  · split <;> rfl

theorem State.holdTakesEffect_eq (s : State) (p : Phase) :
    s.holdTakesEffect p = if (s.line p).inSlot then s else withLine s p (s.line p).takeHold := rfl

/-- Settles O28, by the hold that stands and whether a slot is in progress. -/
theorem phaseHoldsAndResumes : Obligations.PhaseHoldsAndResumes := by
  intro s hp
  refine ⟨fun c h1 h2 h3 => ⟨?_, ?_⟩, fun p l hl => ?_⟩
  · exact exec_phaseHold (a := .bare .badField) hp (by rw [handlePhaseHold, phaseOf_eq_none h1 h2 h3]; rfl)
  · exact exec_phaseResume (a := .bare .badField) hp (by rw [handlePhaseResume, phaseOf_eq_none h1 h2 h3]; rfl)
  · subst hl
    have heq := handlePhaseHold_eq s p
    refine ⟨fun hh => ?_, fun hh hpend => ?_, fun hh hpend hseg => ?_, fun hh hpend hseg => ?_, ?_, fun hpend hseg => ?_,
      fun hno => ?_⟩
    · rw [if_pos hh] at heq
      exact exec_phaseHold hp heq
    · rw [if_neg (by simp [hh]), if_pos hpend] at heq
      exact exec_phaseHold hp heq
    · rw [if_neg (by simp [hh]), if_neg (by simp [hpend]), if_pos ((Line.inSlot_iff _).mpr hseg)] at heq
      exact exec_phaseHold hp heq
    · rw [if_neg (by simp [hh]), if_neg (by simp [hpend]), if_neg fun h => (Line.inSlot_iff _).mp h hseg] at heq
      exact exec_phaseHold hp heq
    · have hhandle : handlePhaseResume (phaseCode p) s
          = (withLine s p { s.line p with causes := { (s.line p).causes with held := false }, holdPending := false },
            ⟨.ok, [(s.line p).holdState.code]⟩) := by
        rw [handlePhaseResume, phaseOf_phaseCode]
        rfl
      rw [← Line.holdState_code]
      exact exec_phaseResume hp hhandle
    · have htake : (s.line p).takeHold
          = { s.line p with causes := { (s.line p).causes with held := true }, holdPending := false } := if_pos hpend
      show Host.Outcome.next (s.holdTakesEffect p).pump = _
      rw [s.holdTakesEffect_eq, if_neg fun h => (Line.inSlot_iff _).mp h hseg, htake]
    · show Host.Outcome.next (s.holdTakesEffect p).pump = _
      rw [s.holdTakesEffect_eq]
      by_cases hslot : (s.line p).inSlot = true
      · rw [if_pos hslot]
      · have hpend : (s.line p).holdPending = false :=
          hno.resolve_right fun hseg => hslot ((Line.inSlot_iff _).mpr hseg)
        have hsame : (s.line p).takeHold = s.line p := if_neg (by simp [hpend])
        rw [if_neg hslot, hsame, withLine_self]

/-! ### Statistics and the standing state (R92, R127) -/

theorem exec_phaseStats {s t : State} {b clear : Byte} {a : Answer} (hp : s.rlc.processing = none)
    (h : handlePhaseStats b clear s = (t, a)) :
    exec (.phaseStats b clear) s = .next (t.replied (.phaseStats b clear) a.code a.rest) :=
  exec_of_answered (r := .phaseStats b clear) hp (by simp only [handle, h])

theorem exec_standingRead {s t : State} {b : Byte} {a : Answer} (hp : s.rlc.processing = none)
    (h : handleStandingRead b s = (t, a)) :
    exec (.standingRead b) s = .next (t.replied (.standingRead b) a.code a.rest) :=
  exec_of_answered (r := .standingRead b) hp (by simp only [handle, h])

theorem qualityField_eq (q : Option Byte) : qualityField q = [if q.isSome then 0x01 else 0x00, q.getD 0] := by
  cases q <;> rfl

theorem handlePhaseStats_eq (s : State) (p : Phase) (clear : Byte) :
    handlePhaseStats (phaseCode p) clear s
      = (if clear = 0 then s else withLine s p { s.line p with stats := noStats }, ⟨.ok, (s.line p).stats.report⟩) := by
  rw [handlePhaseStats, phaseOf_phaseCode]
  by_cases h : clear = 0
  · rw [if_pos h]
    exact Prod.ext (if_neg (by simpa [isSetFlag] using h)) rfl
  · rw [if_neg h]
    exact Prod.ext (if_pos (by simpa [isSetFlag] using h)) rfl

theorem bandField_eq (b : Option (Nat × Tag)) :
    bandField b = [(b.map fun b => num8 b.1).getD 0xFF] ++ bytes16 ((b.map (·.2)).getD 0) := by
  rcases b with _ | ⟨b, t⟩ <;> rfl

theorem relayField_eq (r : Option (RelayValue × Tag)) :
    relayField r = [(r.map fun r => r.1.code).getD 0xFF] ++ bytes16 ((r.map (·.2)).getD 0) := by
  rcases r with _ | ⟨v, t⟩ <;> rfl

theorem queuedAtOf_eq (q : List QueueEntry) (g : Fin 16) :
    queuedAtOf q g = (q.find? fun e => decide (e.group = g)).map (·.queuedAt) := by
  have hsame : (fun e : QueueEntry => e.group == g) = fun e => decide (e.group = g) :=
    funext fun e => by rw [Bool.eq_iff_iff, beq_iff_eq, decide_eq_true_iff]
  rw [queuedAtOf, hsame]

/-- Settles O29, by the fields of the two reports. -/
theorem statsAndStandingAreRead : Obligations.StatsAndStandingAreRead := by
  intro s hp
  refine ⟨fun c clear h1 h2 h3 => ?_, fun p clear x hx => ?_, fun c hc => ?_, fun g x qa qb qc hx ha hb hq => ?_⟩
  · exact exec_phaseStats (a := .bare .badField) hp (by rw [handlePhaseStats, phaseOf_eq_none h1 h2 h3]; rfl)
  · subst hx
    rw [← qualityField_eq]
    exact exec_phaseStats hp (handlePhaseStats_eq s p clear)
  · exact exec_standingRead (a := .bare .badField) hp (dif_neg (by omega))
  · subst hx ha hb hq
    have hg : (num8 g.val).toNat = g.val := by
      rw [num8, BitVec.toNat_ofNat]
      omega
    have hlt : (num8 g.val).toNat < 16 := by omega
    have hgroup : ⟨(num8 g.val).toNat, hlt⟩ = g := Fin.ext hg
    have hhandle : handleStandingRead (num8 g.val) s = (s, ⟨.ok, s.standingReport g⟩) := by
      rw [handleStandingRead, dif_pos hlt, hgroup]
    refine (exec_standingRead hp hhandle).trans ?_
    simp only [State.standingReport, queuedAtOf_eq, presenceByte_five, bandField_eq, relayField_eq, List.append_assoc]

/-! ### Reset (R154) -/

theorem Line.reset_eq (l : Line) :
    l.reset = ⟨{ l.causes with held := false }, false, .none, false, none, none, noStats, [],
      if l.segment = Segment.none then l.cuts else l.cuts + 1⟩ := by
  unfold Line.reset
  by_cases h : l.segment = .none
  · rw [if_pos h, if_neg fun hs => (Line.inSlot_iff l).mp hs h]
    rfl
  · rw [if_neg h, if_pos ((Line.inSlot_iff l).mpr h)]
    rfl

/-- Settles O30, by RESET's effect on each block. -/
theorem resetClears : Obligations.ResetClears := by
  intro s hp
  refine (exec_of_answered (r := .reset) hp rfl).trans ?_
  have hlines : Line.reset = _ := funext Line.reset_eq
  rw [handleReset, hlines]
  rfl

/-! ### The site code (R161, R162) -/

theorem exec_writeSite_refused {s : State} {code : Addr} {c : Code} (hp : s.rlc.processing = none)
    (h : writeSiteAnswer code s = some (.bare c)) : exec (.writeSite code) s = .next (s.replied (.writeSite code) c []) :=
  exec_of_answered (r := .writeSite code) (a := .bare c) hp (by simp only [handle, h])

theorem writeSiteAnswer_of_ok {code : Addr} (h1 : 1 ≤ code.toNat) (h2 : code.toNat ≤ 0xFFFFFE) (s : State) :
    writeSiteAnswer code s = match s.scs.state with
      | .written => some (.bare .siteWritten)
      | .fault => some (.bare .siteFault)
      | .blank => none := by
  rw [writeSiteAnswer, (addressOk_iff code).mpr ⟨h1, h2⟩]
  rfl

/-- Settles O31, by the checks of WRITE_SITE and the two outcomes of programming. -/
theorem siteIsWritten : Obligations.SiteIsWritten := by
  intro s
  refine ⟨fun hp code => ⟨fun hr => ?_, fun h1 h2 hst => ?_, fun h1 h2 hst => ?_, fun h1 h2 hst => ?_⟩,
    fun code rec hprog hproc => ⟨?_, ?_⟩, fun equal hprog => ?_⟩
  · refine exec_writeSite_refused hp (if_pos ?_)
    rw [Bool.not_eq_true', Bool.eq_false_iff, Ne, addressOk_iff]
    omega
  · exact exec_writeSite_refused hp (by rw [writeSiteAnswer_of_ok h1 h2, hst])
  · exact exec_writeSite_refused hp (by rw [writeSiteAnswer_of_ok h1 h2, hst])
  · have hhandle : handle s (.writeSite code) = (s.beginProgramming code, none) := by
      simp only [handle, writeSiteAnswer_of_ok h1 h2, hst]
    show Host.Outcome.next (s.takeRequest (.writeSite code)) = _
    rw [State.takeRequest, State.requestArrives, hp]
    simp only [State.handleRequest, hhandle]
    rfl
  · show Host.Outcome.next (s.completeWrite true).pump = _
    simp only [State.completeWrite, hprog]
    rw [show (endProgramming code true s).1.rlc.processing = some ⟨rec, .handling⟩ from hproc]
    exact congrArg Host.Outcome.next (State.pump_process_owed _ _ _)
  · show Host.Outcome.next (s.completeWrite false).pump = _
    simp only [State.completeWrite, hprog]
    rw [show (endProgramming code false s).1.rlc.processing = some ⟨rec, .handling⟩ from hproc]
    exact congrArg Host.Outcome.next (State.pump_process_owed _ _ _)
  · show Host.Outcome.next (s.completeWrite equal).pump = _
    simp only [State.completeWrite, hprog]

end Sys2Proof.Machine
end

section
/-! PROOF. Notices posted one after another, ends of several orders, and the rows of ORM and RFS (R16, R19, R118 to R122). -/

namespace Sys2Proof.Machine

/-! ### Notices posted one after another -/

@[simp] theorem State.postAll_nil (s : State) : s.postAll [] = s := rfl

theorem State.postAll_cons (s : State) (n : Notice) (l : List Notice) : s.postAll (n :: l) = (s.post n).postAll l := rfl

theorem State.postAll_append (s : State) (l k : List Notice) : s.postAll (l ++ k) = (s.postAll l).postAll k := List.foldl_append

theorem State.postAll_singleton (s : State) (n : Notice) : s.postAll [n] = s.post n := rfl

/-- What commutes with one posting commutes with several. -/
theorem State.postAll_commute {f : State → State} (hf : ∀ s n, f (s.post n) = (f s).post n) (s : State) (l : List Notice) :
    f (s.postAll l) = (f s).postAll l := (List.foldl_hom f (fun s n => (hf s n).symm)).symm

/-- What a posting leaves alone, several leave alone. -/
theorem State.postAll_keeps {α : Type} {g : State → α} (hg : ∀ s n, g (s.post n) = g s) (s : State) (l : List Notice) :
    g (s.postAll l) = g s := foldl_keeps g (fun s n => hg s n) l s

@[simp] theorem State.postAll_orm (s : State) (l : List Notice) : (s.postAll l).orm = s.orm := State.postAll_keeps (fun _ _ => rfl) s l
@[simp] theorem State.postAll_dir (s : State) (l : List Notice) : (s.postAll l).dir = s.dir := State.postAll_keeps (fun _ _ => rfl) s l
@[simp] theorem State.postAll_lines (s : State) (l : List Notice) : (s.postAll l).lines = s.lines := State.postAll_keeps (fun _ _ => rfl) s l
@[simp] theorem State.postAll_rfs (s : State) (l : List Notice) : (s.postAll l).rfs = s.rfs := State.postAll_keeps (fun _ _ => rfl) s l
@[simp] theorem State.postAll_mtb (s : State) (l : List Notice) : (s.postAll l).mtb = s.mtb := State.postAll_keeps (fun _ _ => rfl) s l
@[simp] theorem State.postAll_scs (s : State) (l : List Notice) : (s.postAll l).scs = s.scs := State.postAll_keeps (fun _ _ => rfl) s l
@[simp] theorem State.postAll_params (s : State) (l : List Notice) : (s.postAll l).params = s.params := State.postAll_keeps (fun _ _ => rfl) s l
@[simp] theorem State.postAll_pending (s : State) (l : List Notice) : (s.postAll l).pending = s.pending := State.postAll_keeps (fun _ _ => rfl) s l
@[simp] theorem State.postAll_now (s : State) (l : List Notice) : (s.postAll l).now = s.now := State.postAll_keeps (fun _ _ => rfl) s l
@[simp] theorem State.postAll_findOrder (s : State) (l : List Notice) (tag : Tag) : (s.postAll l).findOrder tag = s.findOrder tag :=
  State.postAll_keeps (g := fun s => s.findOrder tag) (fun _ _ => rfl) s l

/-! ### Ends of several orders (R15) -/

/-- The staged frame of a line, but for one composed for an order of a list. -/
def Line.unstaged (l : Line) (gone : List Order) : Line :=
  { l with staged := l.staged.bind fun f => if ∃ o ∈ gone, f.work = .order o.tag then none else some f }

/-- The state in which the orders of a list have ended with a reason, but for their notices. -/
def State.endAll (s : State) (gone : List Order) (reason : Reason) : State :=
  { s with
    orm := { s.orm with table := s.orm.table.map fun o => if o ∈ gone then endedOrder o reason s.now else o }
    lines := s.lines.map fun l => l.unstaged gone }

/-- The ORDER_END notices of the orders of a list that end at once (R18). -/
def endsOf (gone : List Order) (reason : Reason) (now : Nat) : List Notice :=
  (gone.filter fun o => decide ((endedOrder o reason now).state = reason.final)).map fun o => .orderEnd o.tag reason.final

theorem Line.unstaged_nil (l : Line) : l.unstaged [] = l := by
  obtain ⟨causes, hold, segment, tx, onLine, staged⟩ := l
  cases staged <;> simp [Line.unstaged]

theorem Line.unstaged_append (l : Line) (gone : List Order) (o : Order) :
    l.unstaged (gone ++ [o]) = withoutStaged (l.unstaged gone) o.tag := by
  obtain ⟨causes, hold, segment, tx, onLine, staged⟩ := l
  cases staged with
  | none => rfl
  | some f =>
    by_cases hg : ∃ x ∈ gone, f.work = .order x.tag
    · obtain ⟨x, hx, hf⟩ := hg
      have hpos : ∃ y ∈ gone ++ [o], f.work = .order y.tag := ⟨x, List.mem_append_left _ hx, hf⟩
      have hpos' : ∃ y ∈ gone, f.work = .order y.tag := ⟨x, hx, hf⟩
      simp only [Line.unstaged, withoutStaged, Option.bind_some, if_pos hpos, if_pos hpos', Option.bind_none]
    · have hiff : (∃ y ∈ gone ++ [o], f.work = .order y.tag) ↔ f.work = .order o.tag := by
        simp only [List.mem_append, List.mem_singleton]
        constructor
        · rintro ⟨y, hy | rfl, hf⟩
          · exact absurd ⟨y, hy, hf⟩ hg
          · exact hf
        · exact fun hf => ⟨o, .inr rfl, hf⟩
      simp only [Line.unstaged, withoutStaged, Option.bind_some, if_neg hg, hiff]

theorem State.endAll_nil (s : State) (reason : Reason) : s.endAll [] reason = s := by
  have htable : (s.orm.table.map fun o => if o ∈ ([] : List Order) then endedOrder o reason s.now else o) = s.orm.table := by
    simp
  have hlines : (s.lines.map fun l => l.unstaged []) = s.lines :=
    Tri.ext_get fun p => by rw [Tri.get_map, Line.unstaged_nil]
  rw [State.endAll, htable, hlines]

/-- One more order ends. -/
theorem State.endAll_append {s : State} (hd : s.orm.TagsDistinct) {gone : List Order} {o : Order}
    (ho : o ∈ s.orm.table) (hnew : o ∉ gone) (reason : Reason) :
    s.endAll (gone ++ [o]) reason = (s.endAll gone reason).ended o.tag reason := by
  have htable : (s.orm.table.map fun x => if x ∈ gone ++ [o] then endedOrder x reason s.now else x)
      = (s.orm.table.map fun x => if x ∈ gone then endedOrder x reason s.now else x).map fun x =>
          if x.tag = o.tag then endedOrder x reason s.now else x := by
    rw [List.map_map]
    refine List.map_congr_left fun x hx => ?_
    by_cases hxo : x = o
    · subst hxo
      simp [hnew]
    · have htag : x.tag ≠ o.tag := fun h => hxo (hd.eq_of_tag hx ho h)
      by_cases hg : x ∈ gone
      · have hend : (endedOrder x reason s.now).tag ≠ o.tag := htag
        simp [hg, hend]
      · simp [hg, hxo, htag]
  have hlines : (s.lines.map fun l => l.unstaged (gone ++ [o]))
      = (s.lines.map fun l => l.unstaged gone).map fun l => withoutStaged l o.tag :=
    Tri.ext_get fun p => by simp only [Tri.get_map, Line.unstaged_append]
  rw [State.endAll, htable, hlines]
  rfl

theorem State.ended_postAll (s : State) (l : List Notice) (tag : Tag) (reason : Reason) :
    (s.postAll l).ended tag reason = (s.ended tag reason).postAll l :=
  State.postAll_commute (f := fun s => s.ended tag reason) (fun _ _ => rfl) s l

theorem endedOrder_final_iff (o : Order) (reason : Reason) (now : Nat) :
    (endedOrder o reason now).state = reason.final ↔ o.anyInFlight = false := by
  rw [endedOrder_state]
  cases o.anyInFlight
  · simp
  · cases reason <;> simp [Reason.final]

theorem endsOf_append (gone : List Order) (o : Order) (reason : Reason) (now : Nat) :
    endsOf (gone ++ [o]) reason now
      = endsOf gone reason now ++ if o.anyInFlight then [] else [.orderEnd o.tag reason.final] := by
  have hiff := endedOrder_final_iff o reason now
  unfold endsOf
  rw [List.filter_append, List.map_append]
  cases hf : o.anyInFlight
  · rw [List.filter_cons_of_pos (by simpa using hiff.mpr hf)]
    rfl
  · rw [List.filter_cons_of_neg (by simpa [hf] using hiff)]
    rfl

theorem State.endAll_tagsDistinct {s : State} (hd : s.orm.TagsDistinct) (gone : List Order) (reason : Reason) :
    (s.endAll gone reason).orm.TagsDistinct := by
  refine hd.of_tags ?_
  simp only [State.endAll, List.map_map]
  refine List.map_congr_left fun o _ => ?_
  simp only [Function.comp_apply]
  split <;> rfl

/-- A record that is not of the list stands in the state in which the list's have ended. -/
theorem State.mem_endAll {s : State} {gone : List Order} {o : Order} (ho : o ∈ s.orm.table) (hnew : o ∉ gone) (reason : Reason) :
    o ∈ (s.endAll gone reason).orm.table :=
  List.mem_map.mpr ⟨o, ho, if_neg hnew⟩

/-- One more live order ends, with its notice. -/
theorem State.endOrder_endAll {s : State} (hd : s.orm.TagsDistinct) {gone : List Order} {o : Order}
    (ho : o ∈ s.orm.table) (hnew : o ∉ gone) (hl : o.state.live = true) (reason : Reason) :
    ((s.endAll gone reason).postAll (endsOf gone reason s.now)).endOrder o.tag reason
      = (s.endAll (gone ++ [o]) reason).postAll (endsOf (gone ++ [o]) reason s.now) := by
  have hmem : o ∈ ((s.endAll gone reason).postAll (endsOf gone reason s.now)).orm.table := by
    rw [State.postAll_orm]
    exact State.mem_endAll ho hnew reason
  have hdist : ((s.endAll gone reason).postAll (endsOf gone reason s.now)).orm.TagsDistinct := by
    rw [State.postAll_orm]
    exact State.endAll_tagsDistinct hd gone reason
  rw [State.endOrder_of_tags hdist hmem hl, State.ended_postAll, ← State.endAll_append hd ho hnew, endsOf_append,
    State.postAll_append]
  split <;> rfl

/-! ### The expiry check (R19) -/

theorem Order.expiryDue_iff (o : Order) (now : Nat) :
    o.expiryDue now = true ↔ (o.state = .waiting ∨ o.state = .running) ∧ o.expiry ≤ now := by
  rw [Order.expiryDue, Bool.and_eq_true, OrderState.live_iff, decide_eq_true_iff]

/-- The expiry check of one record after those of a list have ended. -/
theorem State.expireIfDue_endAll {s : State} (hd : s.orm.TagsDistinct) {gone : List Order} {o : Order}
    (ho : o ∈ s.orm.table) (hnew : o ∉ gone) :
    ((s.endAll gone .expired).postAll (endsOf gone .expired s.now)).expireIfDue o.tag
      = if o.expiryDue s.now then (s.endAll (gone ++ [o]) .expired).postAll (endsOf (gone ++ [o]) .expired s.now)
        else (s.endAll gone .expired).postAll (endsOf gone .expired s.now) := by
  have hfind : ((s.endAll gone .expired).postAll (endsOf gone .expired s.now)).findOrder o.tag = some o := by
    rw [State.postAll_findOrder]
    exact State.findOrder_of_tags (State.endAll_tagsDistinct hd gone _) (State.mem_endAll ho hnew _)
  have hnow : ((s.endAll gone .expired).postAll (endsOf gone .expired s.now)).now = s.now := State.postAll_now _ _
  unfold State.expireIfDue
  rw [hfind, hnow]
  dsimp only
  by_cases hdue : o.expiryDue s.now = true
  · rw [if_pos hdue, if_pos hdue]
    exact State.endOrder_endAll hd ho hnew ((OrderState.live_iff _).mpr ((o.expiryDue_iff _).mp hdue).1) .expired
  · rw [if_neg hdue, if_neg hdue]

theorem State.expiryCheck_eq {s : State} (hd : s.orm.TagsDistinct) :
    s.expiryCheck = (s.endAll (s.orm.table.filter fun o => o.expiryDue s.now) .expired).postAll
      (endsOf (s.orm.table.filter fun o => o.expiryDue s.now) .expired s.now) := by
  have hnodup : s.orm.table.Nodup := List.Nodup.of_map _ hd
  have key : ∀ rest done, s.orm.table = done ++ rest →
      rest.foldl (fun t o => t.expireIfDue o.tag)
          ((s.endAll (done.filter fun o => o.expiryDue s.now) .expired).postAll
            (endsOf (done.filter fun o => o.expiryDue s.now) .expired s.now))
        = (s.endAll (s.orm.table.filter fun o => o.expiryDue s.now) .expired).postAll
            (endsOf (s.orm.table.filter fun o => o.expiryDue s.now) .expired s.now) := by
    intro rest
    induction rest with
    | nil =>
      intro done htable
      rw [List.append_nil] at htable
      rw [← htable]
      rfl
    | cons o rest ih =>
      intro done htable
      have hmem : o ∈ s.orm.table := by simp [htable]
      have hnew : o ∉ done.filter fun o => o.expiryDue s.now := fun h => by
        rw [htable, List.nodup_append] at hnodup
        exact hnodup.2.2 o (List.mem_filter.mp h).1 o (by simp) rfl
      have hrest := ih (done ++ [o]) (by rw [htable, List.append_assoc]; rfl)
      rw [List.foldl_cons, State.expireIfDue_endAll hd hmem hnew]
      rw [List.filter_append] at hrest
      by_cases hdue : o.expiryDue s.now = true
      · rw [if_pos hdue]
        have hone : ([o].filter fun o => o.expiryDue s.now) = [o] := List.filter_cons_of_pos hdue
        rwa [hone] at hrest
      · rw [if_neg hdue]
        have hnone : ([o].filter fun o => o.expiryDue s.now) = [] := List.filter_cons_of_neg hdue
        rwa [hnone, List.append_nil] at hrest
  have h := key s.orm.table [] rfl
  rwa [List.filter_nil, State.endAll_nil] at h

/-- Settles O33, by the expiry check as one change, and the look at one CLOSING order. -/
theorem ordersExpireAndClose : Obligations.OrdersExpireAndClose := by
  intro s hd
  refine ⟨fun due u hdue hu => ?_, fun o reason ho hst hr hfree => ?_, fun tag hno => ?_⟩
  · have hfilter : due = s.orm.table.filter fun o => o.expiryDue s.now := by
      rw [hdue]
      refine List.filter_congr fun o _ => ?_
      rw [Bool.eq_iff_iff, decide_eq_true_iff, Order.expiryDue_iff]
    have hstate : u = s.endAll due .expired := hu
    show Host.Outcome.next s.expiryCheck.pump = _
    rw [State.expiryCheck_eq hd.tags, ← hfilter, ← hstate]
    rfl
  · show Host.Outcome.next (s.closingEnd o.tag).pump = _
    have hflight : o.anyInFlight = false := o.anyInFlight_eq_false.mpr hfree
    simp only [State.closingEnd, State.findOrder_of_mem hd ho, hst, hr, hflight, Bool.false_eq_true, if_false]
    rfl
  · show Host.Outcome.next (s.closingEnd tag).pump = _
    obtain he | ⟨o, reason, ho, hst, -, hflight, -⟩ := s.closingEnd_cases tag
    · rw [he]
    · obtain h | ⟨p, hp⟩ := hno o (State.findOrder_mem ho) (State.findOrder_tag ho)
      · exact absurd hst h
      · exact absurd (o.anyInFlight_eq_false.mp hflight p) (by simp [hp])

end Sys2Proof.Machine
end

section
/-! PROOF. Adoption, restores and refresh timers, one row each (R117 to R122). -/

namespace Sys2Proof.Machine

/-! ### Adoption (R117 to R119) -/

theorem Order.isCandidate_iff (o : Order) :
    o.isCandidate = true ↔ o.mark = some .pending
      ∧ (o.state = .waiting ∨ o.state = .running ∨ o.state = .complete ∨ o.state = .partly ∨ o.state = .expired
        ∨ (o.state = .closing ∧ o.closing = some .expired)) := by
  unfold Order.isCandidate
  rw [Bool.and_eq_true, decide_eq_true_iff]
  refine and_congr_right fun _ => ?_
  cases o.state <;> simp

theorem Tri.all_toList {α : Type} (t : Tri α) (q : α → Bool) : t.toList.all q = true ↔ EachPhase fun p => q (t.get p) = true := by
  simp [Tri.toList, EachPhase, Tri.get]

theorem Order.broadcastEnded_iff (o : Order) :
    o.broadcastEnded = true
      ↔ EachPhase fun p => (o.progress.get p).stage = .notInvolved ∨ (o.progress.get p).repeatsSent = o.repeatCount := by
  rw [Order.broadcastEnded, Tri.all_toList]
  simp only [decide_eq_true_iff]

theorem Order.timeCome_iff (o : Order) (now : Nat) : o.timeCome now = true ↔ ∀ e ∈ o.effective, e ≤ now := by
  unfold Order.timeCome
  cases o.effective <;> simp

theorem Order.adoptable_iff (o : Order) (now : Nat) : o.adoptable now = true ↔ DueForAdoption o now := by
  rw [Order.adoptable, Bool.and_eq_true, Bool.and_eq_true, Order.isCandidate_iff, Order.broadcastEnded_iff,
    Order.timeCome_iff, and_assoc, and_assoc]

theorem tagNewer_iff (a b : Tag) : tagNewer a b = true ↔ Newer a b := decide_eq_true_iff

theorem exec_adoption (tag : Tag) (s : State) : exec (.adoption tag) s = .next (s.adoptIfDue tag).pump := rfl

theorem State.adoptIfDue_due {s : State} (hd : s.orm.TagsDistinct) {o : Order} (ho : o ∈ s.orm.table)
    (hdue : DueForAdoption o s.now) : s.adoptIfDue o.tag = s.adoptOrder o := by
  simp only [State.adoptIfDue, State.findOrder_of_tags hd ho, (o.adoptable_iff s.now).mpr hdue, if_true]

theorem State.adoptIfDue_idle {s : State} {tag : Tag} (h : ∀ o ∈ s.orm.table, o.tag = tag → ¬DueForAdoption o s.now) :
    s.adoptIfDue tag = s := by
  unfold State.adoptIfDue
  split
  next o ho =>
    exact if_neg fun hdue =>
      h o (State.findOrder_mem ho) (State.findOrder_tag ho) ((o.adoptable_iff s.now).mp hdue)
  · rfl

theorem Standing.newerStands_band {x : Standing} {g : Fin 16} {b : Nat} {tag : Tag} :
    x.newerStands (.band g b) tag = true ↔ ∃ y ∈ x.band, Newer y.2 tag := by
  unfold Standing.newerStands Standing.partTag
  cases x.band <;> simp [tagNewer_iff]

theorem Standing.newerStands_relay {x : Standing} {g : Fin 16} {v : RelayValue} {r : Option Nat} {tag : Tag} :
    x.newerStands (.relay g v r) tag = true ↔ ∃ y ∈ x.relay, Newer y.2 tag := by
  unfold Standing.newerStands Standing.partTag
  cases x.relay <;> simp [tagNewer_iff]

/-- A candidate under a newer part is PASSED. -/
theorem State.adoptOrder_passed {s : State} {o : Order} {g : Fin 16} {value : PartValue} (hb : o.body.partValue = some (g, value))
    (hn : (s.standing g).newerStands o.body o.tag = true) : s.adoptOrder o = withMark s o.tag .passed := by
  simp only [State.adoptOrder, hb, hn, if_true]
  rfl

/-- The state in which an order's value stands adopted, before any restore. -/
def State.adopted (s : State) (o : Order) (g : Fin 16) (value : PartValue) : State :=
  (withMark (withStanding s g ((s.standing g).adopt o s.now s.params.refreshPeriod)) o.tag .adopted).post
    (.standing g value o.tag .adopted)

theorem State.adoptOrder_adopted {s : State} {o : Order} {g : Fin 16} {value : PartValue} (hb : o.body.partValue = some (g, value))
    (hn : ¬(s.standing g).newerStands o.body o.tag = true) :
    s.adoptOrder o = match value with
      | .relay _ => (s.adopted o g value).restoreIfDue g
      | .band _ => s.adopted o g value := by
  simp only [State.adoptOrder, hb, if_neg hn]
  cases value <;> rfl

theorem State.restoreIfDue_idle {s : State} {g : Fin 16}
    (h : (s.standing g).relay = none ∨ ∀ r ∈ (s.standing g).restoreUntil, s.now < r) : s.restoreIfDue g = s := by
  unfold State.restoreIfDue
  dsimp only
  split
  next r v tag hr hrel =>
    rcases h with h | h
    · cases h.symm.trans hrel
    · exact if_neg (Nat.not_le.mpr (h r hr))
  · rfl

theorem State.restoreIfDue_due {s : State} {g : Fin 16} {v : RelayValue} {tag : Tag} {r : Nat}
    (hrel : (s.standing g).relay = some (v, tag)) (hr : (s.standing g).restoreUntil = some r) (hnow : r ≤ s.now) :
    s.restoreIfDue g
      = (withStanding s g { s.standing g with
          relay := some (.on, tag), restoreUntil := none, changeCount := (s.standing g).changeCount + 1 }).post
        (.standing g (.relay .on) tag .restored) := by
  simp only [State.restoreIfDue, hr, hrel, if_pos hnow]
  rfl

theorem State.standing_adopted (s : State) (o : Order) (g : Fin 16) (value : PartValue) :
    (s.adopted o g value).standing g = (s.standing g).adopt o s.now s.params.refreshPeriod :=
  State.standing_setStanding_same s g _

theorem restoreUntilOf_eq (v : RelayValue) (restore effective : Option Nat) (now : Nat) :
    restoreUntilOf v restore effective now
      = if v = .shed then restore.map (fun m => min (effective.getD now + m * 60) 4294967295) else none := by
  cases v <;> cases restore <;> rfl

theorem withStanding_twice (s : State) (g : Fin 16) (x y : Standing) : withStanding (withStanding s g x) g y = withStanding s g y := by
  simp only [withStanding, Vector.set_set]

/-- A restore that follows an adoption at once (R120). -/
theorem State.restoreIfDue_adopted {s : State} {o : Order} {g : Fin 16} {v : RelayValue} {restore : Option Nat} {r : Nat}
    (hb : o.body = .relay g v restore) (hr : restoreUntilOf v restore o.effective s.now = some r) (hnow : r ≤ s.now) :
    (s.adopted o g (.relay v)).restoreIfDue g
      = ((withMark (withStanding s g { s.standing g with
            relay := some (.on, o.tag)
            restoreUntil := none
            changeCount := (s.standing g).changeCount + 2
            nextRefresh := some (min (s.now + s.params.refreshPeriod) 4294967295) }) o.tag .adopted).post
          (.standing g (.relay v) o.tag .adopted)).post (.standing g (.relay .on) o.tag .restored) := by
  have hx := s.standing_adopted o g (.relay v)
  have hadopt : (s.standing g).adopt o s.now s.params.refreshPeriod
      = { s.standing g with
          relay := some (v, o.tag)
          restoreUntil := some r
          changeCount := (s.standing g).changeCount + 1
          nextRefresh := some (min (s.now + s.params.refreshPeriod) 4294967295) } := by
    simp only [Standing.adopt, hb, hr]
    rfl
  rw [hadopt] at hx
  rw [State.restoreIfDue_due (s := s.adopted o g (.relay v)) (v := v) (tag := o.tag) (r := r) (by rw [hx]) (by rw [hx]) hnow, hx]
  have hcount : (s.standing g).changeCount + 1 + 1 = (s.standing g).changeCount + 2 := by bv_omega
  have hset := withStanding_twice s g { s.standing g with
    relay := some (v, o.tag)
    restoreUntil := some r
    changeCount := (s.standing g).changeCount + 1
    nextRefresh := some (min (s.now + s.params.refreshPeriod) 4294967295) } { s.standing g with
    relay := some (.on, o.tag)
    restoreUntil := none
    changeCount := (s.standing g).changeCount + 2
    nextRefresh := some (min (s.now + s.params.refreshPeriod) 4294967295) }
  dsimp only
  rw [hcount]
  rw [State.adopted, hadopt]
  exact congrArg (fun u : State => ((withMark u o.tag .adopted).post (.standing g (.relay v) o.tag .adopted)).post
    (.standing g (.relay .on) o.tag .restored)) hset

/-- Settles O34, by the part that stands and the restore that may follow. -/
theorem ordersAreAdopted : Obligations.OrdersAreAdopted := by
  intro s hd
  refine ⟨fun o g b x ho hdue hb hx => ?_, fun o g v restore til x ho hdue hb hx htil => ?_, fun tag hno => ?_⟩
  · subst hx
    have hpart : o.body.partValue = some (g, .band b) := by rw [hb]; rfl
    rw [exec_adoption, State.adoptIfDue_due hd.tags ho hdue]
    refine ⟨fun hn => ?_, fun hn => ?_⟩
    · rw [State.adoptOrder_passed hpart (by rw [hb]; exact Standing.newerStands_band.mpr hn)]
    · have hno : ¬(s.standing g).newerStands o.body o.tag = true := by
        rw [hb, Standing.newerStands_band]
        exact fun ⟨y, hy, h⟩ => hn y hy h
      rw [State.adoptOrder_adopted hpart hno]
      simp only [State.adopted, Standing.adopt, hb]
      rfl
  · subst hx
    have hpart : o.body.partValue = some (g, .relay v) := by rw [hb]; rfl
    rw [← restoreUntilOf_eq] at htil
    rw [exec_adoption, State.adoptIfDue_due hd.tags ho hdue]
    refine ⟨fun hn => ?_, fun hn hlater => ?_, fun hn hreached => ?_⟩
    · rw [State.adoptOrder_passed hpart (by rw [hb]; exact Standing.newerStands_relay.mpr hn)]
    all_goals
      have hno : ¬(s.standing g).newerStands o.body o.tag = true := by
        rw [hb, Standing.newerStands_relay]
        exact fun ⟨y, hy, h⟩ => hn y hy h
      rw [State.adoptOrder_adopted hpart hno]
    · have hidle : (s.adopted o g (.relay v)).restoreIfDue g = s.adopted o g (.relay v) := by
        refine State.restoreIfDue_idle (.inr ?_)
        rw [State.standing_adopted]
        simp only [Standing.adopt, hb, ← htil]
        exact hlater
      dsimp only
      rw [hidle]
      simp only [State.adopted, Standing.adopt, hb, ← htil]
      rfl
    · obtain ⟨r, hr, hnow⟩ := hreached
      dsimp only
      rw [State.restoreIfDue_adopted hb (htil ▸ hr) hnow]
  · rw [exec_adoption, State.adoptIfDue_idle hno]

/-! ### Refresh timers (R122) -/

theorem inQueue_iff (q : List QueueEntry) (g : Fin 16) : inQueue q g = true ↔ ∃ e ∈ q, e.group = g := by
  simp [inQueue]

/-- The directory has a member for a group on a phase exactly where some entry is one. -/
theorem State.hasMember_iff {s : State} (hd : s.dir.Sound) (g : Fin 16) (p : Phase) :
    s.dir.hasMember g p = true ↔ ∃ i, MemberAt s g p i := by
  rw [Dir.hasMember_iff]
  constructor
  · rintro ⟨⟨i, h⟩, he, hp, hg⟩
    exact ⟨i, h, hd.get_eq_some_iff.mpr he, hp, hg⟩
  · rintro ⟨i, h, hi, hp, hg⟩
    exact ⟨(i, h), hd.get_eq_some_iff.mp hi, hp, hg⟩

theorem mem_allPhases (p : Phase) : p ∈ allPhases := by cases p <;> decide

theorem State.mem_servedPhases {s : State} (hd : s.dir.Sound) (g : Fin 16) (p : Phase) :
    p ∈ s.servedPhases g ↔ ∃ i, MemberAt s g p i := by
  rw [State.servedPhases, List.mem_filter, and_iff_right (mem_allPhases p), State.hasMember_iff hd]

theorem State.servedPhases_nodup (s : State) (g : Fin 16) : (s.servedPhases g).Nodup :=
  List.Nodup.filter _ (by decide)

theorem foldl_queueEntry_queue (g : Fin 16) {ps : List Phase} (hn : ps.Nodup) (s : State) (p : Phase) :
    (ps.foldl (fun s p => s.setQueue p (s.queue p ++ [⟨g, s.now⟩])) s).queue p
      = if p ∈ ps then s.queue p ++ [⟨g, s.now⟩] else s.queue p := by
  induction ps generalizing s with
  | nil => rfl
  | cons r ps ih =>
    obtain ⟨hr, hps⟩ := List.nodup_cons.mp hn
    rw [List.foldl_cons, ih hps]
    by_cases hpr : p = r
    · subst hpr
      rw [if_neg hr, if_pos List.mem_cons_self, State.queue_setQueue_same]
    · rw [State.queue_setQueue_ne _ _ hpr]
      simp only [List.mem_cons, hpr, false_or]
      rfl

theorem foldl_queueEntry_frame (g : Fin 16) (ps : List Phase) (s : State) :
    ∃ queues, ps.foldl (fun s p => s.setQueue p (s.queue p ++ [⟨g, s.now⟩])) s = { s with rfs := { s.rfs with queues := queues } } := by
  induction ps generalizing s with
  | nil => exact ⟨s.rfs.queues, rfl⟩
  | cons r ps ih =>
    obtain ⟨queues, h⟩ := ih (s.setQueue r (s.queue r ++ [⟨g, s.now⟩]))
    exact ⟨queues, h⟩

/-- Notices posted in a free order are those of the list in some order. -/
theorem State.forEachFree_post {α : Type} (s : State) (l : List α) (n : α → Notice) :
    ∃ (l' : List α) (picks : Nat), l'.Perm l ∧ s.forEachFree l (fun s x => s.post (n x)) = State.postAll { s with picks := picks } (l'.map n) := by
  refine ⟨(freeOrder l s.picks).1, (freeOrder l s.picks).2, freeOrder_perm l s.picks, ?_⟩
  rw [State.forEachFree, State.postAll, List.foldl_map]

theorem State.postAll_picks (s : State) (n : Nat) (l : List Notice) :
    State.postAll { s with picks := n } l = { s.postAll l with picks := n } :=
  State.postAll_commute (f := fun s => { s with picks := n }) (fun _ _ => rfl) s l |>.symm

theorem State.postAll_withQueues (s : State) (queues : Tri (List QueueEntry)) (l : List Notice) :
    State.postAll { s with rfs := { s.rfs with queues := queues } } l
      = { s.postAll l with rfs := { s.rfs with queues := queues } } := by
  have h := State.postAll_commute (f := fun u => { u with rfs := { s.rfs with queues := queues } }) (fun _ _ => rfl) s l
  exact h.symm

/-- A firing in its parts: the queues of the phases with a member, the notices in a free order, and the next refresh. -/
theorem State.fired_eq (s : State) (g : Fin 16) (due : Nat) :
    ∃ (queues : Tri (List QueueEntry)) (late : List Phase) (picks : Nat),
      (∀ p, queues.get p = (s.queueFresh g).queue p)
      ∧ late.Perm ((s.servedPhases g).filter fun p => inQueue (s.queue p) g)
      ∧ s.fired g due = { s.postAll (late.map fun p => .refreshLate g p) with
          picks := picks
          rfs := ⟨s.rfs.standing.set g
            { s.standing g with nextRefresh := some (nextAfterFiring due s.now s.params.refreshPeriod) }, queues⟩ } := by
  obtain ⟨queues, hq⟩ := foldl_queueEntry_frame g ((s.servedPhases g).filter fun p => !inQueue (s.queue p) g) s
  have hfresh : s.queueFresh g = { s with rfs := { s.rfs with queues := queues } } := hq
  obtain ⟨late, picks, hperm, heach⟩ := (s.queueFresh g).forEachFree_post
    ((s.servedPhases g).filter fun p => inQueue (s.queue p) g) (fun p => .refreshLate g p)
  refine ⟨queues, late, picks, fun p => by rw [hfresh]; rfl, hperm, ?_⟩
  have hposted : (s.queueFresh g).forEachFree ((s.servedPhases g).filter fun p => inQueue (s.queue p) g)
        (fun s p => s.post (.refreshLate g p))
      = { s.postAll (late.map fun p => .refreshLate g p) with
          picks := picks, rfs := { s.rfs with queues := queues } } := by
    rw [heach, State.postAll_picks, hfresh, State.postAll_withQueues]
  rw [State.fired]
  dsimp only
  rw [hposted]
  rfl

theorem State.fired_fires {s : State} (hd : s.dir.Sound) {g : Fin 16} {due : Nat} : Fires s g due (s.fired g due) := by
  obtain ⟨queues, late, picks, hqueues, hperm, heq⟩ := s.fired_eq g due
  have hqueue : ∀ p, (s.fired g due).queue p
      = if p ∈ (s.servedPhases g).filter (fun p => !inQueue (s.queue p) g) then s.queue p ++ [⟨g, s.now⟩] else s.queue p := by
    intro p
    rw [heq]
    exact (hqueues p).trans (foldl_queueEntry_queue g ((s.servedPhases_nodup g).filter _) s p)
  have hfresh : ∀ p, p ∈ (s.servedPhases g).filter (fun p => !inQueue (s.queue p) g)
      ↔ (∃ i, MemberAt s g p i) ∧ ∀ e ∈ s.queue p, e.group ≠ g := by
    intro p
    rw [List.mem_filter, State.mem_servedPhases hd, Bool.not_eq_true', Bool.eq_false_iff, ne_eq, inQueue_iff]
    simp
  refine ⟨_, late, rfl, fun p hno => ?_, fun p hin => ?_, fun p hmem hout => ?_, ?_, ?_, fun p => ?_, ?_⟩
  · rw [hqueue, if_neg fun h => absurd ((hfresh p).mp h).1 (by simpa using hno)]
  · obtain ⟨e, he, hg⟩ := hin
    rw [hqueue, if_neg fun h => ((hfresh p).mp h).2 e he hg]
  · rw [hqueue, if_pos ((hfresh p).mpr ⟨hmem, hout⟩)]
  · rw [heq]
    rfl
  · exact hperm.nodup_iff.mpr ((s.servedPhases_nodup g).filter _)
  · rw [hperm.mem_iff, List.mem_filter, State.mem_servedPhases hd, inQueue_iff]
  · rw [heq]
    simp

/-- Settles O35, by the standing record of the group. -/
theorem restoresAndRefreshesFall : Obligations.RestoresAndRefreshesFall := by
  intro s g x hx
  subst hx
  refine ⟨fun v tag r hrel hr hnow => ?_, fun hno => ?_, fun hno => ?_, fun hclock => ?_,
    fun due hnext hdue hset hrun hd => ⟨s.fired g due, ?_, State.fired_fires hd⟩⟩
  · show Host.Outcome.next (s.restoreIfDue g).pump = _
    rw [State.restoreIfDue_due hrel hr hnow]
  · show Host.Outcome.next (s.restoreIfDue g).pump = _
    rw [State.restoreIfDue_idle hno]
  · show Host.Outcome.next (s.checkTimer g).pump = _
    have hidle : s.fireIfDue g = s := by
      cases hn : (s.standing g).nextRefresh with
      | none => exact State.fireIfDue_none hn
      | some t => exact State.fireIfDue_later hn (Nat.not_le.mpr (hno t hn))
    obtain ⟨-, he⟩ | ⟨-, he⟩ := s.checkTimer_cases g
    · rw [he, hidle]
    · rw [he]
  · show Host.Outcome.next (s.checkTimer g).pump = _
    have hruns : s.mtb.clock.runs = false := by
      rw [Clock.runs, Bool.and_eq_false_iff]
      exact hclock.imp id fun h => decide_eq_false (Nat.not_lt.mpr h)
    rw [State.checkTimer, hruns]
    rfl
  · show Host.Outcome.next (s.checkTimer g).pump = _
    have hruns : s.mtb.clock.runs = true := by
      rw [Clock.runs, hset, Bool.true_and]
      exact decide_eq_true hrun
    rw [State.checkTimer, hruns, if_pos rfl, State.fireIfDue_due hnext hdue]

end Sys2Proof.Machine
end

section
/-! PROOF. Changes of one record in full, with the notices they bring: the clearing of slot in flight, the end of the work on a
phase, and the abort of a slot (R16 to R18, R84, R113). -/

namespace Sys2Proof.Machine

/-! ### Changes of one record -/

theorem State.modOrder_postAll (s : State) (l : List Notice) (tag : Tag) (f : Order → Order) :
    (s.postAll l).modOrder tag f = (s.modOrder tag f).postAll l :=
  State.postAll_commute (f := fun s => s.modOrder tag f) (fun _ _ => rfl) s l

theorem State.modOrder_tagsDistinct {s : State} (hd : s.orm.TagsDistinct) (tag : Tag) {f : Order → Order}
    (hf : ∀ o, (f o).tag = o.tag) : (s.modOrder tag f).orm.TagsDistinct := by
  refine hd.of_tags ?_
  simp only [State.modOrder, List.map_map]
  refine List.map_congr_left fun o _ => ?_
  simp only [Function.comp_apply]
  split
  · exact hf o
  · rfl

theorem State.mem_modOrder {s : State} {o : Order} (ho : o ∈ s.orm.table) (f : Order → Order) :
    f o ∈ (s.modOrder o.tag f).orm.table :=
  List.mem_map.mpr ⟨o, ho, if_pos rfl⟩

/-- With no record of the tag nothing changes. -/
theorem State.modOrder_absent {s : State} {tag : Tag} (h : ∀ o ∈ s.orm.table, o.tag ≠ tag) (f : Order → Order) :
    s.modOrder tag f = s := by
  have ht : (s.orm.table.map fun o => if o.tag = tag then f o else o) = s.orm.table := by
    conv_rhs => rw [← List.map_id s.orm.table]
    exact List.map_congr_left fun o ho => if_neg (h o ho)
  rw [State.modOrder, ht]

theorem State.findOrder_absent {s : State} {tag : Tag} (h : ∀ o ∈ s.orm.table, o.tag ≠ tag) : s.findOrder tag = none :=
  List.find?_eq_none.mpr fun o ho => by simpa using h o ho

/-- Of records with distinct tags, only the one of the tag counts. -/
theorem State.modOrder_congr_of {s : State} (hd : s.orm.TagsDistinct) {o : Order} (ho : o ∈ s.orm.table) {f g : Order → Order}
    (h : f o = g o) : s.modOrder o.tag f = s.modOrder o.tag g :=
  State.modOrder_congr fun x hx hxt => by rw [hd.eq_of_tag hx ho hxt, h]

theorem State.modOrder_id (s : State) (tag : Tag) : (s.modOrder tag fun o => o) = s := by
  have ht : (s.orm.table.map fun o => if o.tag = tag then o else o) = s.orm.table := by simp
  rw [State.modOrder, ht]

/-- One record changes twice, with the notices of both changes. -/
theorem State.modOrder_then (s : State) (tag : Tag) (f g : Order → Order) (l k : List Notice) (hf : ∀ o, (f o).tag = o.tag) :
    (((s.modOrder tag f).postAll l).modOrder tag g).postAll k = (s.modOrder tag fun o => g (f o)).postAll (l ++ k) := by
  rw [State.modOrder_postAll, State.modOrder_modOrder s tag f g hf, State.postAll_append]

/-- A record that enters another state once has one notice of it. -/
theorem endNotices_append {o x y : Order} (ht : x.tag = o.tag) (h : x.state ≠ o.state → y.state = x.state) :
    endNotices o x ++ endNotices x y = endNotices o y := by
  unfold endNotices
  by_cases hx : x.state = o.state
  · rw [if_pos hx, hx, ht]
    rfl
  · rw [if_neg hx, h hx, if_pos rfl, if_neg hx, List.append_nil]

theorem endNotices_self (o : Order) : endNotices o o = [] := if_pos rfl

/-! ### Slot in flight is cleared (R3, R16) -/

/-- An order whose CLOSING ends where no slot of it is in flight (R16). -/
def closedOrder (o : Order) (now : Nat) : Order :=
  match o.state, o.closing with
  | .closing, some reason => if o.anyInFlight then o else { o with state := reason.final, closing := none, finishedAt := some now }
  | _, _ => o

theorem Reason.final_ne_closing (reason : Reason) : reason.final ≠ .closing := by cases reason <;> decide

theorem closedOrder_tag (o : Order) (now : Nat) : (closedOrder o now).tag = o.tag := by
  unfold closedOrder
  split
  · split <;> rfl
  · rfl

theorem State.closingEnd_of_tags {s : State} (hd : s.orm.TagsDistinct) {o : Order} (ho : o ∈ s.orm.table) :
    s.closingEnd o.tag = (s.modOrder o.tag fun x => closedOrder x s.now).postAll (endNotices o (closedOrder o s.now)) := by
  have hrest : closedOrder o s.now = o →
      (s.modOrder o.tag fun x => closedOrder x s.now).postAll (endNotices o (closedOrder o s.now)) = s := fun he => by
    rw [State.modOrder_congr_of hd ho (f := fun x => closedOrder x s.now) (g := fun x => x) he, he, endNotices_self,
      State.modOrder_id, State.postAll_nil]
  unfold State.closingEnd
  rw [State.findOrder_of_tags hd ho]
  dsimp only
  split
  next reason hst hcl =>
    by_cases hf : o.anyInFlight = true
    · rw [if_pos hf, hrest (by simp only [closedOrder, hst, hcl, if_pos hf])]
    · have he : closedOrder o s.now = { o with state := reason.final, closing := none, finishedAt := some s.now } := by
        simp only [closedOrder, hst, hcl, if_neg hf]
      rw [if_neg hf, State.modOrder_congr_of hd ho (f := fun x => closedOrder x s.now)
        (g := fun x => { x with state := reason.final, closing := none, finishedAt := some s.now }) he, he, endNotices,
        if_neg (hst ▸ reason.final_ne_closing)]
      rfl
  next hno =>
    refine (hrest ?_).symm
    unfold closedOrder
    split
    next reason hst hcl => exact absurd hcl (hno reason hst)
    · rfl

/-- The clearing is the change of slot in flight, and the end of CLOSING. -/
theorem slotCleared_eq (o : Order) (p : Phase) (now : Nat) :
    slotCleared o p now = closedOrder (o.modProgress p fun pp => { pp with inFlight := false }) now := by
  have hany : (o.modProgress p fun pp => { pp with inFlight := false }).anyInFlight
      = ((o.progress.set p { o.progress.get p with inFlight := false }).a.inFlight
        || (o.progress.set p { o.progress.get p with inFlight := false }).b.inFlight
        || (o.progress.set p { o.progress.get p with inFlight := false }).c.inFlight) := by
    simp [Order.anyInFlight, Tri.toList, Bool.or_assoc, Order.modProgress]
  unfold closedOrder
  rw [hany]
  rfl

theorem slotCleared_tag (o : Order) (p : Phase) (now : Nat) : (slotCleared o p now).tag = o.tag := by
  rw [slotCleared_eq, closedOrder_tag]
  rfl

theorem State.clearInFlight_of_tags {s : State} (hd : s.orm.TagsDistinct) {o : Order} (ho : o ∈ s.orm.table) (p : Phase) :
    s.clearInFlight o.tag p
      = (s.modOrder o.tag fun x => slotCleared x p s.now).postAll (endNotices o (slotCleared o p s.now)) := by
  have hmem := State.mem_modOrder ho fun x => x.modProgress p fun pp => { pp with inFlight := false }
  have hdist := State.modOrder_tagsDistinct hd o.tag (f := fun x => x.modProgress p fun pp => { pp with inFlight := false })
    fun _ => rfl
  have hend := State.closingEnd_of_tags hdist hmem
  have htwice := State.modOrder_modOrder s o.tag (fun x => x.modProgress p fun pp => { pp with inFlight := false })
    (fun x => closedOrder x s.now) fun _ => rfl
  simp only [slotCleared_eq]
  exact hend.trans (congrArg (fun t => State.postAll t _) htwice)

theorem State.clearInFlight_absent {s : State} {tag : Tag} (h : ∀ o ∈ s.orm.table, o.tag ≠ tag) (p : Phase) :
    s.clearInFlight tag p = s := by
  have hmod := State.modOrder_absent h fun x => x.modProgress p fun pp => { pp with inFlight := false }
  rw [State.clearInFlight, State.modProgress, hmod, State.closingEnd, State.findOrder_absent h]

/-! ### The end of the work on a phase (R17, R113) -/

theorem Order.hasMiss_eq_false (o : Order) : o.hasMiss = false ↔ o.misses = [] ∧ o.unlisted = 0 := by
  simp [Order.hasMiss, List.isEmpty_iff]

theorem Order.allDone_iff (o : Order) :
    o.allDone = true ↔ EachPhase fun q => (o.progress.get q).stage = .notInvolved ∨ (o.progress.get q).stage = .done := by
  rw [Order.allDone, Tri.all_toList]
  simp only [decide_eq_true_iff]

/-- An order whose end is due once every involved phase is DONE (R17). -/
def reportedOrder (o : Order) (now : Nat) : Order :=
  if o.state = .running ∧ o.allDone = true then
    { o with state := if o.hasMiss then .partly else .complete, closing := none, finishedAt := some now }
  else o

theorem reportedOrder_tag (o : Order) (now : Nat) : (reportedOrder o now).tag = o.tag := by
  unfold reportedOrder
  split <;> rfl

theorem State.reportDone_of_tags {s : State} (hd : s.orm.TagsDistinct) {o : Order} (ho : o ∈ s.orm.table) :
    s.reportDone o.tag = (s.modOrder o.tag fun x => reportedOrder x s.now).postAll (endNotices o (reportedOrder o s.now)) := by
  unfold State.reportDone
  rw [State.findOrder_of_tags hd ho]
  by_cases hrun : o.state = .running ∧ o.allDone = true
  · have he : reportedOrder o s.now = { o with
        state := if o.hasMiss then .partly else .complete, closing := none, finishedAt := some s.now } := if_pos hrun
    have hne : ¬(if o.hasMiss = true then OrderState.partly else .complete) = o.state := by
      rw [hrun.1]
      split <;> decide
    rw [State.modOrder_congr_of hd ho (f := fun x => reportedOrder x s.now) (g := fun x => { x with
      state := if o.hasMiss then .partly else .complete, closing := none, finishedAt := some s.now }) he, he, endNotices,
      if_neg hne]
    exact if_pos hrun
  · have he : reportedOrder o s.now = o := if_neg hrun
    rw [State.modOrder_congr_of hd ho (f := fun x => reportedOrder x s.now) (g := fun x => x) he, he, endNotices_self,
      State.modOrder_id, State.postAll_nil]
    exact if_neg hrun

/-- The finish is the stage DONE of a stage with service, and the end of the order that may follow. -/
theorem finishedOn_eq (o : Order) (p : Phase) (now : Nat) :
    finishedOn o p now
      = if (o.progress.get p).stage = .serving ∨ (o.progress.get p).stage = .paused then
          reportedOrder (o.modProgress p fun pp => { pp with stage := .done }) now
        else o := by
  have hdone := (o.modProgress p fun pp => { pp with stage := .done }).allDone_iff
  have hmiss : (if o.misses = [] ∧ o.unlisted = 0 then OrderState.complete else .partly)
      = if o.hasMiss then .partly else .complete := by
    cases hm : o.hasMiss
    · rw [if_pos (o.hasMiss_eq_false.mp hm)]
      rfl
    · rw [if_neg fun h => by simp [o.hasMiss_eq_false.mpr h] at hm]
      rfl
  unfold finishedOn reportedOrder
  by_cases hst : (o.progress.get p).stage = .serving ∨ (o.progress.get p).stage = .paused
  · rw [if_pos hst, if_pos hst, hmiss]
    by_cases hrun : o.state = .running ∧ (o.modProgress p fun pp => { pp with stage := .done }).allDone = true
    · exact (if_pos ⟨hrun.1, hdone.mp hrun.2⟩).trans (if_pos hrun).symm
    · exact (if_neg fun h => hrun ⟨h.1, hdone.mpr h.2⟩).trans (if_neg hrun).symm
  · rw [if_neg hst, if_neg hst]

theorem finishedOn_tag (o : Order) (p : Phase) (now : Nat) : (finishedOn o p now).tag = o.tag := by
  rw [finishedOn_eq]
  split
  · exact reportedOrder_tag _ now
  · rfl

theorem State.phaseDone_of_tags {s : State} (hd : s.orm.TagsDistinct) {o : Order} (ho : o ∈ s.orm.table) (p : Phase) :
    s.phaseDone o.tag p
      = (s.modOrder o.tag fun x => finishedOn x p s.now).postAll (endNotices o (finishedOn o p s.now)) := by
  have hmem := State.mem_modOrder ho fun x => x.modProgress p fun pp => { pp with stage := .done }
  have hdist := State.modOrder_tagsDistinct hd o.tag (f := fun x => x.modProgress p fun pp => { pp with stage := .done })
    fun _ => rfl
  have hreport := State.reportDone_of_tags hdist hmem
  have htwice := State.modOrder_modOrder s o.tag (fun x => x.modProgress p fun pp => { pp with stage := .done })
    (fun x => reportedOrder x s.now) fun _ => rfl
  have hfind := State.findOrder_of_tags hd ho
  by_cases hst : (o.progress.get p).stage = .serving ∨ (o.progress.get p).stage = .paused
  · have he : finishedOn o p s.now = reportedOrder (o.modProgress p fun pp => { pp with stage := .done }) s.now := by
      rw [finishedOn_eq, if_pos hst]
    have hphase : s.phaseDone o.tag p = (s.modProgress o.tag p fun pp => { pp with stage := .done }).reportDone o.tag := by
      unfold State.phaseDone
      rw [hfind]
      rcases hst with h | h <;> simp only [h]
    rw [hphase, State.modOrder_congr_of hd ho (f := fun x => finishedOn x p s.now)
      (g := fun x => reportedOrder (x.modProgress p fun pp => { pp with stage := .done }) s.now) he, he]
    exact hreport.trans (congrArg (fun t => State.postAll t _) htwice)
  · have he : finishedOn o p s.now = o := by rw [finishedOn_eq, if_neg hst]
    have hrest : s.phaseDone o.tag p = s := by
      unfold State.phaseDone
      rw [hfind]
      dsimp only
      split
      next h => exact absurd (.inl h) hst
      next h => exact absurd (.inr h) hst
      · rfl
    rw [hrest, he, endNotices_self, State.modOrder_congr_of hd ho (f := fun x => finishedOn x p s.now) (g := fun x => x) he,
      State.modOrder_id, State.postAll_nil]

end Sys2Proof.Machine
end

section
/-! PROOF. Aborts of slots, the loss and the return of a phase, and QUIET (R81 to R84, R134, R135, R140). -/

namespace Sys2Proof.Machine

/-! ### One abort (R84) -/

theorem Order.modProgress_self {o : Order} {p : Phase} {f : Progress → Progress} (h : f (o.progress.get p) = o.progress.get p) :
    o.modProgress p f = o := by
  have hset : o.progress.set p (f (o.progress.get p)) = o.progress := Tri.ext_get fun q => by
    rw [h]
    by_cases hq : q = p
    · subst hq
      rw [Tri.get_set_same]
    · rw [Tri.get_set_ne _ _ hq]
  rw [Order.modProgress, hset]

/-- An abort puts the cursor and its attempts back, and clears slot in flight. -/
theorem slotAborted_eq (l : Line) (o : Order) (p : Phase) (now : Nat) :
    slotAborted l o p now
      = slotCleared (o.modProgress p fun pp => pp.goBack (l.onLine.bind fun ol => ol.before)) p now := by
  unfold slotAborted
  cases l.onLine.bind fun ol => ol.before with
  | none => exact congrArg (fun x => slotCleared x p now) (Order.modProgress_self rfl).symm
  | some x => rfl

theorem slotAborted_tag (l : Line) (o : Order) (p : Phase) (now : Nat) : (slotAborted l o p now).tag = o.tag := by
  rw [slotAborted_eq, slotCleared_tag]
  rfl

theorem slotAborted_congr {l k : Line} (h : k.onLine = l.onLine) (o : Order) (p : Phase) (now : Nat) :
    slotAborted k o p now = slotAborted l o p now := by
  rw [slotAborted_eq, slotAborted_eq, h]

/-- What the abort of the slot of a line controller makes of a record. -/
def abortedOn (l : Line) (p : Phase) (now : Nat) (o : Order) : Order :=
  if l.slotOrder = some o.tag then slotAborted l o p now else o

theorem abortedOn_tag (l : Line) (p : Phase) (now : Nat) (o : Order) : (abortedOn l p now o).tag = o.tag := by
  unfold abortedOn
  split
  · exact slotAborted_tag l o p now
  · rfl

theorem abortedOn_congr {l k : Line} (h : k.onLine = l.onLine) (p : Phase) (now : Nat) : abortedOn k p now = abortedOn l p now := by
  funext o
  rw [abortedOn, abortedOn, Line.slotOrder_congr h, slotAborted_congr h]

/-- The state of a record after one of its slots is aborted, or has ended otherwise. -/
theorem slotCleared_state (o : Order) (p : Phase) (now : Nat) :
    (slotCleared o p now).state = o.state ∨ (o.state = .closing ∧ (slotCleared o p now).state ≠ .closing) := by
  rw [slotCleared_eq]
  unfold closedOrder
  split
  next reason hst hcl =>
    split
    · exact .inl rfl
    · exact .inr ⟨hst, reason.final_ne_closing⟩
  · exact .inl rfl

theorem slotAborted_state (l : Line) (o : Order) (p : Phase) (now : Nat) :
    (slotAborted l o p now).state = (slotCleared o p now).state := by
  have hany : ∀ pp : Progress → Progress, (∀ x, (pp x).inFlight = x.inFlight) →
      ((o.modProgress p pp).modProgress p fun x => { x with inFlight := false }).anyInFlight
        = (o.modProgress p fun x => { x with inFlight := false }).anyInFlight := fun pp h => by
    cases p <;> rfl
  rw [slotAborted_eq, slotCleared_eq, slotCleared_eq]
  unfold closedOrder
  rw [hany _ fun x => by cases l.onLine.bind (fun ol => ol.before) <;> rfl]
  show (match o.state, o.closing with | .closing, some reason => _ | _, _ => _ : Order).state = (match o.state, o.closing with | .closing, some reason => _ | _, _ => _ : Order).state
  split
  · split <;> rfl
  · rfl

theorem Line.abort_eq (l : Line) : l.abort = abortedLine l := by
  obtain ⟨causes, hold, segment, tx, onLine, staged⟩ := l
  unfold Line.abort Line.takeHold abortedLine
  cases hold <;> simp [Line.countStats] <;> rfl

theorem flatMap_of_tags {α : Type} {l : List Order} (hd : (l.map (·.tag)).Nodup) {o : Order} (ho : o ∈ l) {g : Order → List α}
    (hg : ∀ x ∈ l, x.tag ≠ o.tag → g x = []) : l.flatMap g = g o := by
  induction l with
  | nil => cases ho
  | cons x l ih =>
    obtain ⟨hx, hl⟩ := List.nodup_cons.mp hd
    rw [List.flatMap_cons]
    rcases List.mem_cons.mp ho with rfl | ho
    · rw [List.flatMap_eq_nil_iff.mpr fun y hy => hg y (List.mem_cons_of_mem _ hy) fun h =>
        hx (List.mem_map.mpr ⟨y, hy, h⟩), List.append_nil]
    · rw [hg x List.mem_cons_self fun h => hx (List.mem_map.mpr ⟨o, ho, h.symm⟩), List.nil_append,
        ih hl ho fun y hy => hg y (List.mem_cons_of_mem _ hy)]

theorem closingNotices_eq (s : State) (p : Phase) :
    closingNotices s p = s.orm.table.flatMap fun o => endNotices o (abortedOn (s.line p) p s.now o) := by
  unfold closingNotices
  rw [List.filterMap_eq_flatMap_toList]
  refine List.flatMap_congr fun o _ => ?_
  unfold abortedOn
  by_cases hslot : (s.line p).slotOrder = some o.tag
  · rw [if_pos hslot, endNotices, slotAborted_state]
    rcases slotCleared_state o p s.now with h | ⟨hc, hne⟩
    · rw [if_neg fun hn => hn.2.2 (h.trans hn.2.1), if_pos h]
      rfl
    · rw [if_pos ⟨hslot, hc, hne⟩, if_neg (hc ▸ hne)]
      rfl
  · rw [if_neg hslot, endNotices_self, if_neg fun h => hslot h.1]
    rfl

theorem State.abortSlot_eq {s : State} (hd : s.orm.TagsDistinct) (p : Phase) :
    s.abortSlot p
      = State.postAll (withLine (withTable s (s.orm.table.map (abortedOn (s.line p) p s.now))) p (abortedLine (s.line p)))
          (closingNotices s p) := by
  have hline : s.modLine p Line.abort = withLine s p (abortedLine (s.line p)) := by
    rw [State.modLine_eq, Line.abort_eq]
  have hidle : (∀ o ∈ s.orm.table, (s.line p).slotOrder ≠ some o.tag) →
      State.postAll (withLine (withTable s (s.orm.table.map (abortedOn (s.line p) p s.now))) p (abortedLine (s.line p)))
          (closingNotices s p) = s.modLine p Line.abort := fun h => by
    have habort : ∀ o ∈ s.orm.table, abortedOn (s.line p) p s.now o = o := fun o ho => if_neg (h o ho)
    have htable : s.orm.table.map (abortedOn (s.line p) p s.now) = s.orm.table := by
      conv_rhs => rw [← List.map_id s.orm.table]
      exact List.map_congr_left habort
    have hnone : closingNotices s p = [] := by
      rw [closingNotices_eq, List.flatMap_eq_nil_iff]
      intro o ho
      rw [habort o ho, endNotices_self]
    rw [htable, hnone, hline]
    rfl
  unfold State.abortSlot
  cases hslot : (s.line p).slotOrder with
  | none => exact (hidle fun o _ h => by cases hslot.symm.trans h).symm
  | some tag =>
    dsimp only
    by_cases hex : ∃ o ∈ s.orm.table, o.tag = tag
    · obtain ⟨o, ho, rfl⟩ := hex
      have hmem : o ∈ (s.modLine p Line.abort).orm.table := ho
      have hdist : (s.modLine p Line.abort).orm.TagsDistinct := hd
      have hback : ∀ x : Order, (x.modProgress p fun pp => pp.goBack ((s.line p).onLine.bind fun ol => ol.before)).tag = x.tag :=
        fun _ => rfl
      have hclear := State.clearInFlight_of_tags
        (State.modOrder_tagsDistinct hdist o.tag (f := fun x => x.modProgress p fun pp =>
          pp.goBack ((s.line p).onLine.bind fun ol => ol.before)) hback)
        (State.mem_modOrder hmem fun x => x.modProgress p fun pp => pp.goBack ((s.line p).onLine.bind fun ol => ol.before)) p
      have htwice := State.modOrder_modOrder (s.modLine p Line.abort) o.tag
        (fun x => x.modProgress p fun pp => pp.goBack ((s.line p).onLine.bind fun ol => ol.before))
        (fun x => slotCleared x p s.now) hback
      have htable : s.orm.table.map (abortedOn (s.line p) p s.now)
          = s.orm.table.map fun x => if x.tag = o.tag then
              slotCleared (x.modProgress p fun pp => pp.goBack ((s.line p).onLine.bind fun ol => ol.before)) p s.now else x := by
        refine List.map_congr_left fun x _ => ?_
        rw [abortedOn, hslot, slotAborted_eq]
        simp only [Option.some.injEq, eq_comm (a := o.tag)]
      have hnotices : closingNotices s p = endNotices o (slotCleared
          (o.modProgress p fun pp => pp.goBack ((s.line p).onLine.bind fun ol => ol.before)) p s.now) := by
        rw [closingNotices_eq, flatMap_of_tags hd ho, abortedOn, if_pos hslot, slotAborted_eq]
        intro x _ hx
        rw [abortedOn, hslot, if_neg fun h => hx (Option.some.inj h).symm, endNotices_self]
      rw [htable, hnotices]
      refine hclear.trans ?_
      rw [hline] at htwice ⊢
      exact congrArg (fun t => State.postAll t _) htwice
    · have habsent : ∀ o ∈ (s.modLine p Line.abort).orm.table, o.tag ≠ tag := fun o ho h => hex ⟨o, ho, h⟩
      rw [State.modProgress, State.modOrder_absent habsent, State.clearInFlight_absent habsent,
        hidle fun o ho h => hex ⟨o, ho, (Option.some.inj (hslot.symm.trans h)).symm⟩]

/-! ### Several aborts (R81, R84) -/

/-- What the aborts of the slots of several line controllers make of a record. -/
def abortedAll (line : Phase → Line) (ps : List Phase) (now : Nat) (o : Order) : Order :=
  ps.foldl (fun o p => abortedOn (line p) p now o) o

theorem abortedAll_tag (line : Phase → Line) (ps : List Phase) (now : Nat) (o : Order) :
    (abortedAll line ps now o).tag = o.tag :=
  foldl_keeps (fun o : Order => o.tag) (fun o p => abortedOn_tag (line p) p now o) ps o

theorem abortedAll_congr {line line' : Phase → Line} {ps : List Phase} (h : ∀ p ∈ ps, (line' p).onLine = (line p).onLine)
    (now : Nat) (o : Order) : abortedAll line' ps now o = abortedAll line ps now o :=
  List.foldl_ext _ _ o fun o p hp => congrFun (abortedOn_congr (h p hp) p now) o

theorem abortedOn_state_of_ne {o : Order} (h : o.state ≠ .closing) (l : Line) (p : Phase) (now : Nat) :
    (abortedOn l p now o).state = o.state := by
  unfold abortedOn
  split
  · rw [slotAborted_state]
    exact (slotCleared_state o p now).resolve_right fun hc => h hc.1
  · rfl

theorem abortedAll_state_of_ne {o : Order} (h : o.state ≠ .closing) (line : Phase → Line) (ps : List Phase) (now : Nat) :
    (abortedAll line ps now o).state = o.state := by
  induction ps generalizing o with
  | nil => rfl
  | cons p ps ih =>
    have hp := abortedOn_state_of_ne h (line p) p now
    exact (ih (hp ▸ h)).trans hp

theorem abortedOn_state (l : Line) (p : Phase) (now : Nat) (o : Order) :
    (abortedOn l p now o).state = o.state ∨ (abortedOn l p now o).state ≠ .closing := by
  unfold abortedOn
  split
  · rw [slotAborted_state]
    exact (slotCleared_state o p now).imp id And.right
  · exact .inl rfl

/-- The end of CLOSING may come before or after a further clearing. -/
theorem closedOrder_progress (o : Order) (q : Phase) {f : Progress → Progress} (hf : ∀ pp, (f pp).inFlight = false) (now : Nat) :
    closedOrder ((closedOrder o now).modProgress q f) now = closedOrder (o.modProgress q f) now := by
  by_cases hclose : ∃ reason, o.state = .closing ∧ o.closing = some reason ∧ o.anyInFlight = false
  · obtain ⟨reason, hst, hcl, hfree⟩ := hclose
    have hfree' : (o.modProgress q f).anyInFlight = false := (Order.anyInFlight_eq_false _).mpr fun r => by
      by_cases hr : r = q
      · subst hr
        exact (congrArg Progress.inFlight (Tri.get_set_same _ r _)).trans (hf _)
      · exact (congrArg Progress.inFlight (Tri.get_set_ne _ _ hr)).trans ((Order.anyInFlight_eq_false o).mp hfree r)
    have hst' : (o.modProgress q f).state = .closing := hst
    have hcl' : (o.modProgress q f).closing = some reason := hcl
    have hleft : closedOrder o now = { o with state := reason.final, closing := none, finishedAt := some now } := by
      simp only [closedOrder, hst, hcl, hfree, Bool.false_eq_true, if_false]
    have hright : closedOrder (o.modProgress q f) now
        = { o.modProgress q f with state := reason.final, closing := none, finishedAt := some now } := by
      simp only [closedOrder, hst', hcl', hfree', Bool.false_eq_true, if_false]
    rw [hleft, hright]
    cases reason <;> rfl
  · have hstays : closedOrder o now = o := by
      unfold closedOrder
      split
      next reason hst hcl => exact if_pos (by simpa using fun h => hclose ⟨reason, hst, hcl, h⟩)
      · rfl
    rw [hstays]

theorem Tri.set_comm {α : Type} (t : Tri α) {p q : Phase} (h : q ≠ p) (x y : α) : (t.set p x).set q y = (t.set q y).set p x := by
  cases p <;> cases q <;> simp_all [Tri.set]

theorem Order.modProgress_comm (o : Order) {p q : Phase} (h : q ≠ p) (f g : Progress → Progress) :
    (o.modProgress p f).modProgress q g = (o.modProgress q g).modProgress p f := by
  simp only [Order.modProgress, Tri.get_set_ne _ _ h, Tri.get_set_ne _ _ h.symm, Tri.set_comm _ h]

/-- The abort of a slot is one change of the progress, and the end of CLOSING. -/
theorem slotAborted_closed (l : Line) (o : Order) (p : Phase) (now : Nat) :
    slotAborted l o p now
      = closedOrder (o.modProgress p fun pp => { pp.goBack (l.onLine.bind fun ol => ol.before) with inFlight := false }) now := by
  rw [slotAborted_eq, slotCleared_eq]
  cases p <;> rfl

theorem slotAborted_comm (l k : Line) (o : Order) {p q : Phase} (h : q ≠ p) (now : Nat) :
    slotAborted k (slotAborted l o p now) q now = slotAborted l (slotAborted k o q now) p now := by
  simp only [slotAborted_closed]
  rw [closedOrder_progress _ q fun _ => rfl, closedOrder_progress _ p fun _ => rfl, Order.modProgress_comm o h]

theorem abortedOn_comm (line : Phase → Line) (now : Nat) (o : Order) (p q : Phase) :
    abortedOn (line q) q now (abortedOn (line p) p now o) = abortedOn (line p) p now (abortedOn (line q) q now o) := by
  by_cases h : q = p
  · rw [h]
  · unfold abortedOn
    split <;> split <;> simp_all [slotAborted_tag, slotAborted_comm (line p) (line q) o h now]

/-- The order in which the aborts fall does not count for the records. -/
theorem abortedAll_perm (line : Phase → Line) {ps qs : List Phase} (h : ps.Perm qs) (now : Nat) (o : Order) :
    abortedAll line ps now o = abortedAll line qs now o :=
  h.foldl_eq' (fun p _ q _ o => abortedOn_comm line now o p q) o

/-- The state after the slots of several phases are aborted, one after another. -/
theorem State.abortSlots_eq {ps : List Phase} (hn : ps.Nodup) {s : State} (hd : s.orm.TagsDistinct) :
    ∃ (lines : Tri Line) (ends : List Notice),
      ps.foldl (fun s p => s.abortSlot p) s
        = State.postAll { withTable s (s.orm.table.map (abortedAll s.line ps s.now)) with lines := lines } ends
      ∧ (∀ q, lines.get q = if q ∈ ps then abortedLine (s.line q) else s.line q)
      ∧ ends.Perm (s.orm.table.flatMap fun o => endNotices o (abortedAll s.line ps s.now o)) := by
  induction ps generalizing s with
  | nil =>
    refine ⟨s.lines, [], ?_, fun q => by simp [State.line], ?_⟩
    · have htable : s.orm.table.map (abortedAll s.line [] s.now) = s.orm.table := List.map_id s.orm.table
      rw [htable]
      rfl
    · have hnone : (s.orm.table.flatMap fun o => endNotices o (abortedAll s.line [] s.now o)) = [] :=
        List.flatMap_eq_nil_iff.mpr fun o _ => endNotices_self o
      rw [hnone]
  | cons p ps ih =>
    obtain ⟨hp, hps⟩ := List.nodup_cons.mp hn
    have hstep := State.abortSlot_eq hd p
    obtain ⟨t, ht⟩ : ∃ t, t = withLine (withTable s (s.orm.table.map (abortedOn (s.line p) p s.now))) p (abortedLine (s.line p)) :=
      ⟨_, rfl⟩
    rw [← ht] at hstep
    have horm : (s.abortSlot p).orm.table = s.orm.table.map (abortedOn (s.line p) p s.now) := by
      rw [hstep, State.postAll_orm, ht]
      rfl
    have hdist : (s.abortSlot p).orm.TagsDistinct := by
      refine hd.of_tags ?_
      rw [horm, List.map_map]
      exact List.map_congr_left fun o _ => abortedOn_tag (s.line p) p s.now o
    have hline : ∀ q, q ≠ p → (s.abortSlot p).line q = s.line q := fun q hq => s.abortSlot_line_ne hq
    have hnow : (s.abortSlot p).now = s.now := congrArg (fun m => m.clock.seconds) (s.abortSlot_outsideLine p).mtb
    obtain ⟨lines, ends, hfold, hlines, hends⟩ := ih hps hdist
    have hcongr : ∀ o, abortedAll (s.abortSlot p).line ps s.now o = abortedAll s.line ps s.now o := fun o =>
      abortedAll_congr (fun q hq => by rw [hline q fun h => hp (h ▸ hq)]) s.now o
    have hcons : ∀ o, abortedAll s.line (p :: ps) s.now o = abortedAll s.line ps s.now (abortedOn (s.line p) p s.now o) :=
      fun _ => rfl
    refine ⟨lines, closingNotices s p ++ ends, ?_, fun q => ?_, ?_⟩
    · rw [List.foldl_cons, hfold, State.postAll_append, horm, hnow, List.map_map]
      have htables : s.orm.table.map (abortedAll (s.abortSlot p).line ps s.now ∘ abortedOn (s.line p) p s.now)
          = s.orm.table.map (abortedAll s.line (p :: ps) s.now) :=
        List.map_congr_left fun o _ => hcongr _
      rw [htables, hstep]
      have hcommute := State.postAll_commute
        (f := fun u => { withTable u (s.orm.table.map (abortedAll s.line (p :: ps) s.now)) with lines := lines })
        (fun _ _ => rfl) t (closingNotices s p)
      refine congrArg (fun u => State.postAll u ends) (hcommute.trans ?_)
      rw [ht]
      rfl
    · rw [hlines]
      by_cases hq : q = p
      · subst hq
        rw [if_neg hp, if_pos List.mem_cons_self, State.abortSlot_line, Line.abort_eq]
      · rw [hline q hq]
        simp only [List.mem_cons, hq, false_or]
    · rw [horm, hnow, List.flatMap_map] at hends
      have hsame : (s.orm.table.flatMap fun o => endNotices (abortedOn (s.line p) p s.now o)
            (abortedAll (s.abortSlot p).line ps s.now (abortedOn (s.line p) p s.now o)))
          = s.orm.table.flatMap fun o => endNotices (abortedOn (s.line p) p s.now o) (abortedAll s.line (p :: ps) s.now o) :=
        List.flatMap_congr fun o _ => by rw [hcongr, hcons]
      rw [hsame] at hends
      rw [closingNotices_eq]
      refine (hends.append_left _).trans ((List.flatMap_append_perm _ _ _).trans ?_)
      refine List.Perm.of_eq (List.flatMap_congr fun o _ => endNotices_append (abortedOn_tag _ p _ o) fun hne => ?_)
      exact abortedAll_state_of_ne ((abortedOn_state (s.line p) p s.now o).resolve_left hne) s.line ps s.now

theorem quietedOrder_eq (s : State) (o : Order) :
    quietedOrder s o = abortedAll s.line (allPhases.filter fun p => (s.line p).inCarrier) s.now o := by
  rw [abortedAll, List.foldl_filter]
  refine List.foldl_ext _ _ o fun o p _ => ?_
  unfold abortedOn Line.inCarrier
  by_cases hc : CutByQuiet (s.line p)
  · by_cases ht : (s.line p).slotOrder = some o.tag
    · rw [if_pos ⟨hc, ht⟩, if_pos (decide_eq_true hc), if_pos ht]
    · rw [if_neg fun h => ht h.2, if_pos (decide_eq_true hc), if_neg ht]
  · rw [if_neg fun h => hc h.1, if_neg (by simpa using hc)]

theorem quietedLine_eq (l : Line) :
    quietedLine l = if l.inCarrier then abortedLine l.withQuiet else l.withQuiet := by
  unfold quietedLine Line.inCarrier
  by_cases hc : CutByQuiet l
  · rw [if_pos (decide_eq_true hc)]
    exact if_pos hc
  · have hcarrier : ¬decide (l.segment = .guard ∨ l.segment = .send) = true := by simpa using hc
    rw [if_neg hcarrier]
    exact if_neg hc

/-- QUIET enters every line and aborts the slots in GUARD or SEND (R81). -/
theorem State.quietLines_eq {s : State} (hd : s.orm.TagsDistinct) :
    ∃ (ends : List Notice) (n : Nat), ends.Perm (s.orm.table.flatMap fun o => endNotices o (quietedOrder s o))
      ∧ s.quietLines = State.postAll { s with
          orm := { s.orm with table := s.orm.table.map (quietedOrder s) }
          lines := s.lines.map quietedLine
          picks := n } ends := by
  obtain ⟨ps, hps⟩ : ∃ ps, ps = allPhases.filter fun p => (s.line p).inCarrier := ⟨_, rfl⟩
  obtain ⟨t, ht⟩ : ∃ t, t = s.mapLines Line.withQuiet := ⟨_, rfl⟩
  have hperm := freeOrder_perm ps t.picks
  have hnodup : (freeOrder ps t.picks).1.Nodup :=
    hperm.nodup_iff.mpr (hps ▸ (show allPhases.Nodup by decide).filter _)
  have hdist : ({ t with picks := (freeOrder ps t.picks).2 } : State).orm.TagsDistinct := by
    rw [ht]
    exact hd
  have hlinet : ∀ q, t.line q = (s.line q).withQuiet := fun q => by rw [ht, State.line_mapLines]
  obtain ⟨lines, ends, hfold, hlines, hends⟩ := State.abortSlots_eq hnodup hdist
  have horder : ∀ o, abortedAll t.line (freeOrder ps t.picks).1 s.now o = quietedOrder s o := fun o => by
    rw [quietedOrder_eq, ← hps, abortedAll_perm _ hperm]
    exact abortedAll_congr (fun q _ => by rw [hlinet]; rfl) s.now o
  have hall : lines = s.lines.map quietedLine := Tri.ext_get fun q => by
    have hmem : q ∈ (freeOrder ps t.picks).1 ↔ (s.line q).inCarrier = true := by
      rw [hperm.mem_iff, hps, List.mem_filter, and_iff_right (mem_allPhases q)]
    rw [hlines, Tri.get_map, quietedLine_eq]
    simp only [hmem]
    show (if _ then abortedLine (t.line q) else t.line q) = _
    rw [hlinet]
    rfl
  have hnow : t.now = s.now := by rw [ht]; rfl
  have htable : t.orm.table = s.orm.table := by rw [ht]; rfl
  refine ⟨ends, (freeOrder ps t.picks).2, ?_, ?_⟩
  · refine hends.trans (List.Perm.of_eq ?_)
    show t.orm.table.flatMap (fun o => endNotices o (abortedAll t.line _ t.now o)) = _
    rw [htable, hnow]
    exact List.flatMap_congr fun o _ => by rw [horder]
  · have hquiet : s.quietLines = (freeOrder ps t.picks).1.foldl (fun s p => s.abortSlot p)
        { t with picks := (freeOrder ps t.picks).2 } := by
      rw [hps, ht]
      rfl
    rw [hquiet, hfold, hall]
    refine congrArg (fun u => State.postAll u ends) ?_
    have hmap : t.orm.table.map (abortedAll t.line (freeOrder ps t.picks).1 t.now) = s.orm.table.map (quietedOrder s) := by
      rw [htable, hnow]
      exact List.map_congr_left fun o _ => horder o
    show ({ withTable t (t.orm.table.map (abortedAll t.line (freeOrder ps t.picks).1 t.now)) with
      picks := (freeOrder ps t.picks).2, lines := s.lines.map quietedLine } : State) = _
    rw [hmap, ht]
    rfl

/-! ### Loss and return of a phase (R134, R135) -/

theorem withLine_modLine (s : State) (p : Phase) (f : Line → Line) (l : Line) : withLine (s.modLine p f) p l = withLine s p l := by
  cases p <;> rfl

theorem withMains_zero (s : State) (p : Phase) (m : Mains) : withMains s p m 0 = s.setMains p m := by
  rw [withMains, Nat.max_zero]
  rfl

theorem exec_phaseLost (p : Phase) (s : State) : exec (.phaseLost p) s = .next (s.loseIfPresent p).pump := rfl
theorem exec_phaseReturn (p : Phase) (s : State) : exec (.phaseReturn p) s = .next (s.returnIfDue p).pump := rfl
theorem exec_zeroCrossing (p : Phase) (t : Nat) (s : State) : exec (.zeroCrossing p t) s = .next (s.edge p t).pump := rfl

theorem Line.inSlot_eq_false {l : Line} : l.inSlot = false ↔ l.segment = .none := by
  rw [Line.inSlot, decide_eq_false_iff_not, not_not]

/-- The state at the loss of a phase, before its line controller takes it. -/
theorem State.lossMoment_setMains {s : State} {p : Phase} {last : Nat} (h : (s.mains p).lastCrossing = some last) (m : Mains) :
    (s.lossMoment p).setMains p m = withMains s p m (last + 25000) := by
  rw [State.lossMoment, h]
  rfl

theorem State.losePhase_idle {s : State} {p : Phase} {last : Nat} (hlast : (s.mains p).lastCrossing = some last)
    (hseg : (s.line p).segment = .none) :
    s.losePhase p = (withLine (withMains s p (s.mains p).lose (last + 25000)) p
      { s.line p with
        causes := { (s.line p).causes with lost := true }
        waiting := []
        cuts := (s.line p).cuts + 1
        staged := none }).post (.phase p .lost (s.mains p).period) := by
  have hslot : ¬((withMains s p (s.mains p).lose (last + 25000)).line p).inSlot = true := by
    rw [Bool.not_eq_true]
    exact Line.inSlot_eq_false.mpr hseg
  rw [State.losePhase_eq, State.lossMoment_setMains hlast, State.loseLine, if_neg hslot, State.modLine_modLine,
    State.modLine_eq]
  rfl

theorem State.losePhase_slot {s : State} (hd : s.orm.TagsDistinct) {p : Phase} {last : Nat}
    (hlast : (s.mains p).lastCrossing = some last) (hseg : (s.line p).segment ≠ .none) :
    s.losePhase p = (State.postAll
      (withLine (withMains (withTable s (s.orm.table.map (abortedOn (s.line p) p s.now))) p (s.mains p).lose (last + 25000)) p
        (abortedLine { s.line p with
          causes := { (s.line p).causes with lost := true }, waiting := [], cuts := (s.line p).cuts + 1 }))
      (closingNotices s p)).post (.phase p .lost (s.mains p).period) := by
  have hslot : ((withMains s p (s.mains p).lose (last + 25000)).line p).inSlot = true := by
    rw [← Bool.not_eq_false, Line.inSlot_eq_false]
    exact hseg
  rw [State.losePhase_eq, State.lossMoment_setMains hlast, State.loseLine, if_pos hslot]
  obtain ⟨u, hu⟩ : ∃ u, u = (withMains s p (s.mains p).lose (last + 25000)).modLine p fun l =>
    { l.cutReception with causes := { l.causes with lost := true } } := ⟨_, rfl⟩
  have hline : u.line p = { (s.line p).cutReception with causes := { (s.line p).causes with lost := true } } := by
    rw [hu, State.line_modLine_same]
    rfl
  have horm : u.orm = s.orm := by rw [hu]; rfl
  have hnow : u.now = s.now := by rw [hu]; rfl
  have haborted : abortedOn (u.line p) p u.now = abortedOn (s.line p) p s.now := by
    rw [hnow, hline]
    exact abortedOn_congr rfl p s.now
  have hnotices : closingNotices u p = closingNotices s p := by
    rw [closingNotices_eq, closingNotices_eq, horm, haborted]
  have habort := State.abortSlot_eq (s := u) (horm ▸ hd) p
  rw [haborted, hnotices, horm, hline] at habort
  rw [← hu, habort, hu]
  refine congrArg (fun t => State.post (State.postAll t _) _) ?_
  exact withLine_modLine
    (withTable (withMains s p (s.mains p).lose (last + 25000)) (s.orm.table.map (abortedOn (s.line p) p s.now))) p
    (fun l => { l.cutReception with causes := { l.causes with lost := true } })
    (abortedLine { s.line p with
      causes := { (s.line p).causes with lost := true }, waiting := [], cuts := (s.line p).cuts + 1 })

theorem State.returnPhase_eq (s : State) (p : Phase) :
    s.returnPhase p
      = (withLine (withMains s p { s.mains p with presence := .present, period := (s.mains p).history.sum / 16 } 0) p
          { s.line p with causes := { (s.line p).causes with lost := false } }).post
            (.phase p .present ((s.mains p).history.sum / 16)) := by
  rw [withMains_zero, State.returnPhase, State.modLine_eq]
  rfl

theorem Mains.lostBefore_iff (m : Mains) (t : Nat) :
    m.lostBefore t = true ↔ m.presence = .present ∧ ∃ last, m.lastCrossing = some last ∧ last + 25000 < t := by
  unfold Mains.lostBefore
  rw [Bool.and_eq_true, decide_eq_true_iff]
  refine and_congr_right fun _ => ?_
  cases m.lastCrossing with
  | none => simp
  | some last =>
    simp only [Option.some.injEq, exists_eq_left']
    exact decide_eq_true_iff

/-- Settles O40, by the parts of the loss: a line without a slot, and one with a slot to abort. -/
theorem phasesAreLostAndReturn : Obligations.PhasesAreLostAndReturn := by
  intro s p m l hm hl
  subst hm hl
  have hpresent : (s.mains p).presence = .present → s.loseIfPresent p = s.losePhase p := fun h => if_pos h
  refine ⟨fun h => ?_, fun last h hlast hseg => ?_, fun last h hlast hseg hd => ?_, fun last t u h hlast ht hu => ?_,
    fun h hcount => ?_, fun h => ?_⟩
  · have hnot : ¬(s.mains p).presence = .present := by rw [h]; decide
    rw [exec_phaseLost, State.loseIfPresent, if_neg hnot]
  · rw [exec_phaseLost, hpresent h, State.losePhase_idle hlast hseg]
    rfl
  · rw [exec_phaseLost, hpresent h, State.losePhase_slot hd.tags hlast hseg]
    rfl
  · rw [exec_phaseLost, hpresent h] at hu
    cases hu
    have hbefore : (s.mains p).lostBefore t = true := (Mains.lostBefore_iff _ t).mpr ⟨h, last, hlast, ht⟩
    have hafter : ¬((s.losePhase p).pump.mains p).lostBefore t = true := by
      rw [Mains.lostBefore_iff, State.mains_pump, State.losePhase_mains, if_pos rfl]
      exact fun hp => by cases hp.1
    rw [exec_zeroCrossing, exec_zeroCrossing, State.edge, State.edge, if_pos hbefore, if_neg hafter]
  · have hdue : (s.mains p).returnDue = true := decide_eq_true ⟨h, hcount⟩
    rw [exec_phaseReturn, State.returnIfDue, if_pos hdue, State.returnPhase_eq]
  · have hdue : ¬(s.mains p).returnDue = true := by
      rw [Mains.returnDue, decide_eq_true_iff]
      rintro ⟨hlost, hcount⟩
      rcases h with h | h
      · rw [h] at hlost
        exact absurd hlost (by decide)
      · exact h hcount
    rw [exec_phaseReturn, State.returnIfDue, if_neg hdue]

/-! ### QUIET (R140) -/

theorem exec_quietAssert (t : Nat) (s : State) : exec (.quietAssert t) s = .next (s.assertQuiet t).pump := rfl
theorem exec_quietInputRelease (t : Nat) (s : State) : exec (.quietInputRelease t) s = .next (s.releaseInput t).pump := rfl
theorem exec_quietReleaseTimeout (s : State) : exec .quietReleaseTimeout s = .next s.releaseQuiet.pump := rfl

/-- The state at an assertion of QUIET_IN, but for the line controllers. -/
def State.asserted (s : State) (t : Nat) : State :=
  { s with mtb := { s.mtb with timebase := max s.mtb.timebase t, quietIn := true, quiet := true, releaseEnd := none } }

/-- An assertion before which no release falls. -/
theorem State.assertQuiet_of_noRelease {s : State} {t : Nat} (h : ∀ e ∈ s.mtb.releaseEnd, t ≤ e) :
    s.assertQuiet t = if s.mtb.quiet then s.asserted t else (s.asserted t).quietLines.post (.quiet true) := by
  unfold State.assertQuiet
  cases hend : s.mtb.releaseEnd with
  | none => rfl
  | some e =>
    have hlater : ¬e < t := Nat.not_lt.mpr (h e hend)
    simp only [if_neg hlater]
    rfl

theorem State.assertQuiet_of_release {s : State} {e t : Nat} (hend : s.mtb.releaseEnd = some e) (h : e < t) :
    s.assertQuiet t = s.releaseQuiet.pump.assertQuiet t := by
  have hnone : s.releaseQuiet.pump.mtb.releaseEnd = none := by
    show s.releaseQuiet.mtb.releaseEnd = none
    rw [State.releaseQuiet, hend]
    rfl
  rw [State.assertQuiet_of_noRelease (s := s.releaseQuiet.pump) (by rw [hnone]; exact fun _ h => by cases h), State.assertQuiet,
    hend]
  simp only [if_pos h]
  rfl

/-- Settles O41, by the aborts that QUIET brings, and the timer's cases. -/
theorem quietIsConditioned : Obligations.QuietIsConditioned := by
  intro s t
  refine ⟨fun hq hend hd => ?_, fun e u hend he hu => ?_, fun hq hend => ?_, fun hq hend => ?_, fun hq hend => ?_, fun hq => ?_,
    fun e hend => ?_, fun hend => ?_⟩
  · have hdist : (s.asserted t).orm.TagsDistinct := hd.tags
    obtain ⟨ends, n, hends, hquiet⟩ := State.quietLines_eq hdist
    refine ⟨ends, n, hends, ?_⟩
    rw [exec_quietAssert, State.assertQuiet_of_noRelease (by rw [hend]; exact fun _ h => by cases h), hq, if_neg (by decide),
      hquiet]
    have hmtb : (s.asserted t).mtb = { s.mtb with timebase := max s.mtb.timebase t, quietIn := true, quiet := true } :=
      congrArg (fun r => { s.mtb with timebase := max s.mtb.timebase t, quietIn := true, quiet := true, releaseEnd := r })
        hend.symm
    exact congrArg (fun b => Host.Outcome.next (((State.postAll { s with
      orm := { s.orm with table := s.orm.table.map (quietedOrder s) }
      lines := s.lines.map quietedLine
      mtb := b
      picks := n } ends).post (.quiet true)).pump)) hmtb
  · rw [exec_quietReleaseTimeout] at hu
    cases hu
    rw [exec_quietAssert, exec_quietAssert, State.assertQuiet_of_release hend he]
  · rw [exec_quietAssert, State.assertQuiet_of_noRelease hend, hq, if_pos rfl]
    exact congrArg (fun q => Host.Outcome.next (State.pump { s with
      mtb := { s.mtb with timebase := max s.mtb.timebase t, quietIn := true, quiet := q, releaseEnd := none } })) hq.symm
  · rw [exec_quietInputRelease, State.releaseInput, hq, hend]
    rfl
  · rw [exec_quietInputRelease, State.releaseInput, hq]
    cases hr : s.mtb.releaseEnd with
    | none => exact absurd hr hend
    | some e =>
      exact congrArg (fun r => Host.Outcome.next (State.pump { s with
        mtb := { s.mtb with timebase := max s.mtb.timebase t, quietIn := false, releaseEnd := r } })) hr.symm
  · rw [exec_quietInputRelease, State.releaseInput, hq]
    rfl
  · rw [exec_quietReleaseTimeout, State.releaseQuiet, hend]
    rfl
  · rw [exec_quietReleaseTimeout, State.releaseQuiet, hend]

end Sys2Proof.Machine
end

section
/-! PROOF. Crossings and received frames: what an edge counts, the move it brings at once, and how the frames taken there are judged
(R53, R88, R89, R131 to R135). -/

namespace Sys2Proof.Machine

/-! ### Crossings (R131 to R133) -/

theorem joinHistory_eq (h : List Nat) (i : Nat) : joinHistory h i = historyWith h i := by
  unfold joinHistory historyWith
  rw [List.drop_one]
  split
  next hlen => exact (if_pos hlen).symm
  next hlen => exact (if_neg hlen).symm

theorem Mains.isGlitch_iff (m : Mains) (t : Nat) :
    m.isGlitch t = true ↔ ∃ last, m.lastCrossing = some last ∧ t - last < 8000 := by
  unfold Mains.isGlitch Mains.intervalAt
  cases m.lastCrossing with
  | none => simp
  | some last =>
    simp only [Option.map_some, Option.some.injEq, exists_eq_left']
    exact decide_eq_true_iff

theorem inRange_of_le {last t : Nat} (h : last + 8000 ≤ t) : inRange (t - last) = true ↔ t - last ≤ 12500 := by
  rw [inRange_iff]
  exact and_iff_right (Nat.le_sub_of_add_le' h)

/-- An edge before which no loss falls. -/
theorem State.edge_of_notLost {s : State} {p : Phase} {t : Nat} (h : (s.mains p).lostBefore t = false) :
    s.edge p t = if (s.mains p).isGlitch t then s.advanceTo t else (s.advanceTo t).acceptCrossing p t := by
  rw [State.edge, h]
  rfl

theorem State.edge_lost {s : State} {p : Phase} {t : Nat} (hlost : (s.mains p).presence = .lost)
    (hg : (s.mains p).isGlitch t = false) :
    s.edge p t = (withMains s p ((s.mains p).countReturn t ((s.mains p).intervalAt t)) t).returnIfDue p := by
  have hbefore : (s.mains p).lostBefore t = false := by
    rw [← Bool.not_eq_true, Mains.lostBefore_iff]
    exact fun h => by cases hlost.symm.trans h.1
  rw [State.edge_of_notLost hbefore, hg, if_neg (by decide), State.acceptCrossing]
  simp only [State.mains_advanceTo, hlost]
  rfl

theorem Mains.countReturn_inRange {m : Mains} {last t : Nat} (hlast : m.lastCrossing = some last) (h1 : last + 8000 ≤ t)
    (h2 : t ≤ last + 12500) : m.countReturn t (m.intervalAt t) = returningMains m last t := by
  have hin : inRange (t - last) = true := (inRange_of_le h1).mpr (by omega)
  simp only [Mains.countReturn, Mains.intervalAt, hlast, Option.map_some, hin, if_true, joinHistory_eq]
  rfl

theorem Mains.not_isGlitch {m : Mains} {last t : Nat} (hlast : m.lastCrossing = some last) (h : last + 8000 ≤ t) :
    m.isGlitch t = false := by
  rw [← Bool.not_eq_true, Mains.isGlitch_iff]
  rintro ⟨l, hl, hlt⟩
  cases hlast.symm.trans hl
  omega

theorem withMains_twice (s : State) (p : Phase) (m n : Mains) (t : Nat) : withMains (withMains s p m t) p n 0 = withMains s p n t := by
  rw [withMains_zero]
  cases p <;> rfl

/-- Settles O36, by the glitch, and the three ways in which a LOST phase counts an edge. -/
theorem crossingsAreJudged : Obligations.CrossingsAreJudged := by
  intro s p t m hm
  subst hm
  refine ⟨fun last hlast ht => ?_, fun last hlost hlast h1 h2 hcount => ?_, fun last period hlost hlast h1 h2 hcount hper => ?_,
    fun hlost hout => ?_⟩
  · have hbefore : (s.mains p).lostBefore t = false := by
      rw [← Bool.not_eq_true, Mains.lostBefore_iff]
      rintro ⟨-, l, hl, hlt⟩
      cases hlast.symm.trans hl
      omega
    have hg : (s.mains p).isGlitch t = true := (Mains.isGlitch_iff _ t).mpr ⟨last, hlast, by omega⟩
    rw [exec_zeroCrossing, State.edge_of_notLost hbefore, if_pos hg]
    rfl
  · have hdue : ¬((withMains s p (returningMains (s.mains p) last t) t).mains p).returnDue = true := by
      rw [show (withMains s p (returningMains (s.mains p) last t) t).mains p = returningMains (s.mains p) last t from
        State.mains_setMains_same (s.advanceTo t) p _, Mains.returnDue, decide_eq_true_iff]
      exact fun h => hcount (Nat.succ_injective h.2)
    rw [exec_zeroCrossing, State.edge_lost hlost (Mains.not_isGlitch hlast h1), Mains.countReturn_inRange hlast h1 h2,
      State.returnIfDue, if_neg hdue]
  · have hmains : (withMains s p (returningMains (s.mains p) last t) t).mains p = returningMains (s.mains p) last t :=
      State.mains_setMains_same (s.advanceTo t) p _
    have hdue : ((withMains s p (returningMains (s.mains p) last t) t).mains p).returnDue = true := by
      rw [hmains, Mains.returnDue, decide_eq_true_iff]
      exact ⟨hlost, congrArg (· + 1) hcount⟩
    rw [exec_zeroCrossing, State.edge_lost hlost (Mains.not_isGlitch hlast h1), Mains.countReturn_inRange hlast h1 h2,
      State.returnIfDue, if_pos hdue, State.returnPhase_eq, hmains, withMains_twice, hper]
    rfl
  · have hg : (s.mains p).isGlitch t = false := by
      rw [← Bool.not_eq_true, Mains.isGlitch_iff]
      rintro ⟨l, hl, hlt⟩
      rcases hout with h | ⟨last, hlast, h⟩
      · cases h.symm.trans hl
      · cases hlast.symm.trans hl
        omega
    have hcount : (s.mains p).countReturn t ((s.mains p).intervalAt t)
        = { s.mains p with lastCrossing := some t, returnCount := 0 } := by
      rcases hout with h | ⟨last, hlast, h⟩
      · simp only [Mains.countReturn, Mains.intervalAt, h, Option.map_none]
      · have hin : ¬inRange (t - last) = true := by
          rw [inRange_of_le (by omega)]
          omega
        simp only [Mains.countReturn, Mains.intervalAt, hlast, Option.map_some, if_neg hin]
    have hdue : ¬((withMains s p { s.mains p with lastCrossing := some t, returnCount := 0 } t).mains p).returnDue = true := by
      rw [show (withMains s p { s.mains p with lastCrossing := some t, returnCount := 0 } t).mains p
        = { s.mains p with lastCrossing := some t, returnCount := 0 } from State.mains_setMains_same (s.advanceTo t) p _,
        Mains.returnDue, decide_eq_true_iff]
      exact fun h => by cases h.2
    rw [exec_zeroCrossing, State.edge_lost hlost hg, hcount, State.returnIfDue, if_neg hdue]

/-! ### The line controller after a gap (R75) -/

/-- How a gap leaves a line controller that stands as `l` once its slot has ended: without a staged frame, and with a slot in GUARD
that begins with the frame staged or with one composed there. -/
def Line.Gapped (l : Line) (guard : Nat) (hc : Hc) (k : Line) : Prop :=
  k = { l with staged := none }
    ∨ ∃ (f : Frame) (x : Option Nat) (y : Option Place), (l.staged = some f ∨ f.guard = guard)
        ∧ k = { l with segment := .guard, onLine := some ⟨f, hc, x, y⟩, staged := none }

theorem State.orderFrame_guard (s : State) (p : Phase) (k : Nat) (o : Order) (step : Step) :
    (s.orderFrame p k o step).guard = s.params.guard := by
  cases step <;> rfl

theorem State.compose_outside (s : State) (p : Phase) (k : Nat) (c : Choice) :
    (∀ q, (s.compose p k c).1.line q = s.line q) ∧ (s.compose p k c).1.mtb = s.mtb
      ∧ ∀ f ∈ (s.compose p k c).2, f.guard = s.params.guard := by
  unfold State.compose
  split
  · exact ⟨fun _ => rfl, rfl, fun f hf => absurd hf (Option.not_mem_none f)⟩
  · exact ⟨fun _ => rfl, rfl, fun f hf => by cases hf; rfl⟩
  · dsimp only
    split
    next tag step _ o _ =>
      refine ⟨fun _ => rfl, rfl, fun f hf => ?_⟩
      cases hf
      exact (s.takeService p tag).orderFrame_guard p k o step
    · exact ⟨fun _ => rfl, rfl, fun f hf => absurd hf (Option.not_mem_none f)⟩
  · exact ⟨fun _ => rfl, rfl, fun f hf => absurd hf (Option.not_mem_none f)⟩

theorem State.judgeStaged_line (s : State) (p : Phase) (answered : Option Work) (c : Choice) :
    (s.line p).Gapped s.params.guard (s.mains p).hc ((s.judgeStaged p answered c).line p) := by
  obtain ⟨hline, hmtb, hguard⟩ := (s.modLine p Line.discardStaged).compose_outside p 0 c
  have hcomposed : (s.line p).Gapped s.params.guard (s.mains p).hc
      ((match (s.modLine p Line.discardStaged).compose p 0 c with
        | (s1, some f) => s1.beginSlot p f
        | (s1, none) => s1).line p) := by
    generalize (s.modLine p Line.discardStaged).compose p 0 c = r at hline hmtb hguard
    obtain ⟨s1, f⟩ := r
    have hstaged : s1.line p = (s.line p).discardStaged := (hline p).trans (s.line_modLine_same p _)
    have hhc : (s1.mains p).hc = (s.mains p).hc := by rw [State.mains, hmtb]; rfl
    cases f with
    | none => exact .inl hstaged
    | some f =>
      refine .inr ⟨f, s1.startAllowance f, s1.placeBefore p f, .inr (hguard f rfl), ?_⟩
      rw [State.beginSlot_line, hstaged, hhc]
      rfl
  unfold State.judgeStaged
  dsimp only
  split
  next f hf =>
    split
    · exact .inr ⟨f, _, _, .inl hf, s.beginSlot_line p f⟩
    · exact hcomposed
  · exact hcomposed

theorem State.gap_line (s : State) (p : Phase) {reply : Option LineReply} (hm : ∀ r ∈ reply, r.margin ≤ 63) :
    ((s.endSlot p reply).line p).takeHold.Gapped s.params.guard (s.mains p).hc ((s.gap p reply).line p) := by
  obtain ⟨u, hu⟩ : ∃ u, u = (s.endSlot p reply).modLine p Line.takeHold := ⟨_, rfl⟩
  have houtside : OutsideLine p s u := by
    rw [hu]
    exact (s.endSlot_outsideLine p hm).trans (.modLine p _ _)
  have hline : u.line p = ((s.endSlot p reply).line p).takeHold := by rw [hu, State.line_modLine_same]
  have hidle : (u.line p).Idle := by
    rw [hline]
    exact Line.takeHold_idle (State.endSlot_idle p reply)
  obtain ⟨hacts, hlines, -⟩ := State.selectSettled_acts (u.orm.table.length + 1) p u hidle
  have hall := houtside.trans hacts.outside
  have h := (State.selectSettled (u.orm.table.length + 1) p u).1.judgeStaged_line p (s.answeredWork p reply)
    (State.selectSettled (u.orm.table.length + 1) p u).2
  rw [State.mains, hall.mtb, hall.params, State.line, hlines] at h
  rw [← hline, State.gap, ← hu]
  exact h

theorem Line.takeHold_counts (l : Line) : l.takeHold.waiting = l.waiting ∧ l.takeHold.stats = l.stats
    ∧ l.takeHold.staged = l.staged ∧ l.takeHold.segment = l.segment ∧ l.takeHold.cuts = l.cuts := by
  unfold Line.takeHold
  split <;> exact ⟨rfl, rfl, rfl, rfl, rfl⟩

theorem Line.Gapped.counts {l k : Line} {guard : Nat} {hc : Hc} (h : l.Gapped guard hc k) :
    k.waiting = l.waiting ∧ k.stats = l.stats ∧ k.cuts = l.cuts := by
  obtain rfl | ⟨f, x, y, -, rfl⟩ := h <;> exact ⟨rfl, rfl, rfl⟩

theorem State.endSlot_counts (s : State) (p : Phase) {reply : Option LineReply} (hm : ∀ r ∈ reply, r.margin ≤ 63) :
    ((s.endSlot p reply).line p).waiting = (s.line p).waiting ∧ ((s.endSlot p reply).line p).stats = (s.line p).stats
      ∧ ((s.endSlot p reply).line p).cuts = (s.line p).cuts := by
  cases hon : (s.line p).onLine with
  | none =>
    have he : s.endSlot p reply = s := by simp only [State.endSlot, hon]
    rw [he]
    exact ⟨rfl, rfl, rfl⟩
  | some ol =>
    rw [State.endSlot_line hon hm]
    exact ⟨rfl, rfl, rfl⟩

/-- A gap leaves the waiting frames and the statistics. -/
theorem State.gap_counts (s : State) (p : Phase) {reply : Option LineReply} (hm : ∀ r ∈ reply, r.margin ≤ 63) :
    ((s.gap p reply).line p).waiting = (s.line p).waiting ∧ ((s.gap p reply).line p).stats = (s.line p).stats
      ∧ ((s.gap p reply).line p).cuts = (s.line p).cuts := by
  obtain ⟨hw, hst, hcut⟩ := (s.gap_line p hm).counts
  obtain ⟨hw', hst', -, -, hcut'⟩ := ((s.endSlot p reply).line p).takeHold_counts
  obtain ⟨hw'', hst'', hcut''⟩ := s.endSlot_counts p hm
  exact ⟨hw.trans (hw'.trans hw''), hst.trans (hst'.trans hst''), hcut.trans (hcut'.trans hcut'')⟩

theorem State.stage_counts (s : State) (p : Phase) (k : Nat) (c : Choice) :
    ((s.stage p k c).line p).waiting = (s.line p).waiting ∧ ((s.stage p k c).line p).stats = (s.line p).stats := by
  obtain ⟨hline, -, -⟩ := s.compose_outside p k c
  unfold State.stage
  generalize s.compose p k c = r at hline
  obtain ⟨s1, f⟩ := r
  have h : s1.line p = s.line p := hline p
  cases f with
  | none => exact ⟨congrArg Line.waiting h, congrArg Line.stats h⟩
  | some f =>
    dsimp only
    rw [State.line_modLine_same, h]
    exact ⟨rfl, rfl⟩

theorem State.move_waiting (s : State) (p : Phase) (ol : OnLine) (m : Move) :
    ((s.move p ol m).line p).waiting = (s.line p).waiting := by
  have hstage : ∀ (u : State) (k : Nat), ((u.stagingPoint p ol k).line p).waiting = (u.line p).waiting :=
    fun u k => (u.stage_counts p k _).1
  cases m with
  | guardEnd =>
    show ((s.endGuard p ol).line p).waiting = _
    unfold State.endGuard
    dsimp only
    split
    · rw [hstage, State.line_modLine_same]
    · rw [State.line_modLine_same]
  | sendComplete =>
    show ((s.endSend p ol).line p).waiting = _
    unfold State.endSend
    dsimp only
    split
    · rw [(State.gap_counts _ p (reply := none) (by simp)).1, State.line_modLine_same]
      rfl
    · split
      · rw [State.modLine_modLine, State.line_modLine_same]
        rfl
      · rw [hstage, State.modLine_modLine, State.line_modLine_same]
        rfl
  | relayEnd =>
    show ((s.endRelay p ol).line p).waiting = _
    unfold State.endRelay
    rw [hstage, State.line_modLine_same]
  | plannedEnd => exact (s.gap_counts p (by simp)).1

theorem State.takeMove_waiting (s : State) (p : Phase) : ((s.takeMove p).line p).waiting = (s.line p).waiting := by
  unfold State.takeMove
  split
  · exact s.move_waiting p _ _
  · rfl

theorem State.takeFrame_waiting (s : State) (p : Phase) (f : RxFrame) : ((s.takeFrame p f).line p).waiting = (s.line p).waiting := by
  unfold State.takeFrame
  split
  · rfl
  · split
    · rw [State.line_modLine_same]; rfl
    · rw [State.line_modLine_same]; rfl
    · rfl
    · rw [State.line_modLine_same]; rfl
    next r hr =>
      rw [(State.gap_counts _ p (by simpa using (judgeFrame_accepted hr).1)).1, State.line_modLine_same]
      rfl

theorem State.idleCrossing_waiting {s : State} {p : Phase} (h : (s.line p).segment = .none) :
    ((s.idleCrossing p).line p).waiting = (s.line p).waiting := by
  obtain ⟨-, hlines, -⟩ := State.selectSettled_acts (s.orm.table.length + 1) p s (.inr h)
  have hline : ((State.selectSettled (s.orm.table.length + 1) p s).1).line p = s.line p := State.line_of_lines hlines p
  unfold State.idleCrossing
  split
  · split
    · exact (s.gap_counts p (by simp)).1
    · rw [hline]
  · rw [(State.stage_counts _ p 1 _).1, hline]

theorem State.takeWaiting_waiting (s : State) (p : Phase) : ((s.takeWaiting p).line p).waiting = [] :=
  State.forEachFree_induct (P := fun t => (t.line p).waiting = []) _ _ _ (fun _ _ h => h)
    (fun u f _ h => (u.takeFrame_waiting p f).trans h) (by rw [State.line_modLine_same])

theorem State.deliver_waiting (s : State) (p : Phase) : ((s.deliver p).line p).waiting = [] := by
  unfold State.deliver
  dsimp only
  split
  · rw [State.takeMove_waiting, State.takeWaiting_waiting]
  next h =>
    have hseg : (s.line p).segment = .none := Line.inSlot_eq_false.mp (by simpa using h)
    rw [State.idleCrossing_waiting (State.takeWaiting_segment_none hseg), State.takeWaiting_waiting]

/-! ### An accepted crossing and the move it brings (R72, R132) -/

theorem Mains.count_eq {m : Mains} {last t : Nat} (hlast : m.lastCrossing = some last) (h : last + 8000 ≤ t) :
    m.count t (m.intervalAt t) = crossedMains m last t := by
  unfold Mains.count crossedMains Mains.intervalAt
  rw [hlast]
  simp only [Option.map_some, joinHistory_eq]
  by_cases hin : inRange (t - last) = true
  · rw [if_pos hin, if_pos ((inRange_of_le h).mp hin)]
    rfl
  · rw [if_neg hin, if_neg fun hle => hin ((inRange_of_le h).mpr hle)]

theorem State.edge_crossing {s : State} {p : Phase} {last t : Nat} (h : CrossingAt s p last t) :
    s.edge p t = (withMains s p (crossedMains (s.mains p) last t) t).deliver p := by
  obtain ⟨hpresent, hlast, h1, h2⟩ := h
  have hbefore : (s.mains p).lostBefore t = false := by
    rw [← Bool.not_eq_true, Mains.lostBefore_iff]
    rintro ⟨-, l, hl, hlt⟩
    cases hlast.symm.trans hl
    omega
  rw [State.edge_of_notLost hbefore, Mains.not_isGlitch hlast h1, if_neg (by decide), State.acceptCrossing]
  simp only [State.mains_advanceTo, hpresent, Mains.count_eq hlast h1]
  rfl

theorem State.exec_crossing {s : State} {p : Phase} {last t : Nat} (h : CrossingAt s p last t) :
    exec (.zeroCrossing p t) s = .next ((withMains s p (crossedMains (s.mains p) last t) t).deliver p).pump := by
  rw [exec_zeroCrossing, State.edge_crossing h]

theorem withMains_line (s : State) (p q : Phase) (m : Mains) (t : Nat) : (withMains s p m t).line q = s.line q := rfl

theorem withMains_mains (s : State) (p : Phase) (m : Mains) (t : Nat) : (withMains s p m t).mains p = m :=
  State.mains_setMains_same (s.advanceTo t) p m

/-- With no frame waiting none is taken. -/
theorem State.takeWaiting_none {s : State} {p : Phase} (h : (s.line p).waiting = []) : s.takeWaiting p = s := by
  have hsame : s.modLine p (fun l => { l with waiting := [] }) = s := State.modLine_self (by rw [← h])
  unfold State.takeWaiting
  rw [hsame, h]
  rfl

/-- A segment's crossing brings only the move of that segment. -/
theorem State.takeMove_eq {s : State} {p : Phase} {m : Move}
    (h : ∀ m' ol, s.dueMove p = some (m', ol) → m' = m) : s.takeMove p = s.takeMoveIf p m := by
  unfold State.takeMove State.takeMoveIf
  split
  next m' ol hdue =>
    cases h m' ol hdue
    exact (if_pos rfl).symm
  · rfl

/-- The move that a segment's last crossing brings. -/
def Segment.move : Segment → Option Move
  | .none => .none
  | .guard => some .guardEnd
  | .send => some .sendComplete
  | .relay => some .relayEnd
  | .listen => some .plannedEnd

theorem State.dueMove_move {s : State} {p : Phase} {m : Move} {ol : OnLine} (h : s.dueMove p = some (m, ol)) :
    (s.line p).segment.move = some m := by
  obtain ⟨-, hseg⟩ := State.dueMove_segment h
  cases m <;> simp only [hseg.1, Segment.move]

theorem State.takeMove_of_segment {s : State} {p : Phase} {m : Move} (h : (s.line p).segment.move = some m) :
    s.takeMove p = s.takeMoveIf p m :=
  State.takeMove_eq fun _ _ hdue => Option.some.inj ((State.dueMove_move hdue).symm.trans h)

theorem State.deliver_slot {s : State} {p : Phase} {m : Move} (hw : (s.line p).waiting = [])
    (h : (s.line p).segment.move = some m) : s.deliver p = s.takeMoveIf p m := by
  have hslot : (s.line p).inSlot = true := by
    rw [← Bool.not_eq_false, Line.inSlot_eq_false]
    intro hn
    rw [hn] at h
    cases h
  unfold State.deliver
  rw [State.takeWaiting_none hw]
  dsimp only
  rw [if_pos hslot, State.takeMove_of_segment h]

theorem State.deliver_idle {s : State} {p : Phase} (hw : (s.line p).waiting = []) (h : (s.line p).segment = .none) :
    s.deliver p = s.idleCrossing p := by
  have hslot : ¬(s.line p).inSlot = true := by
    rw [Bool.not_eq_true]
    exact Line.inSlot_eq_false.mpr h
  unfold State.deliver
  rw [State.takeWaiting_none hw]
  dsimp only
  rw [if_neg hslot]

/-- Selection names nothing on a blocked line, nor with no order and no refresh. -/
theorem State.select_nothing {s : State} {p : Phase}
    (h : (s.line p).causes ≠ ⟨false, false, false, false⟩ ∨ (s.orm.table = [] ∧ s.queue p = [])) :
    s.select p none = .nothing := by
  unfold State.select
  rcases h with h | ⟨ht, hq⟩
  · have hblocked : (!(s.line p).causes.isEmpty || (s.line p).holdPending) = true := by
      rw [Bool.or_eq_true, Bool.not_eq_true', Bool.eq_false_iff, ne_eq, Causes.isEmpty_iff_eq]
      exact .inl h
    exact if_pos hblocked
  · have hcand : s.candidates p none = [] := by rw [State.candidates, ht]; rfl
    have hqueue : s.queueFor p none = [] := hq
    dsimp only
    rw [hqueue, hcand]
    split <;> rfl

theorem State.selectSettled_of_nothing {s : State} {p : Phase} (h : s.select p none = .nothing) (n : Nat) :
    State.selectSettled n p s = (s, .nothing) := by
  cases n with
  | zero => rfl
  | succ n => rw [State.selectSettled, h]

/-- Settles O37, by the crossing as counted, and the segments' moves. -/
theorem crossingsAreCounted : Obligations.CrossingsAreCounted := by
  intro s p last t m hcross hm
  subst hm
  obtain ⟨u, hu⟩ : ∃ u, u = withMains s p (crossedMains (s.mains p) last t) t := ⟨_, rfl⟩
  have hexec : exec (.zeroCrossing p t) s = .next (u.deliver p).pump := hu ▸ State.exec_crossing hcross
  rw [hexec, ← hu]
  have hline : u.line p = s.line p := by rw [hu]; rfl
  refine ⟨⟨_, rfl, (u.deliver_acts p).outside.mtb, u.deliver_waiting p⟩, fun hw => ?_⟩
  have hwu : (u.line p).waiting = [] := by rw [hline, hw]
  have hmove : ∀ m, (s.line p).segment.move = some m → u.deliver p = u.takeMoveIf p m := fun m h =>
    State.deliver_slot hwu (by rw [hline, h])
  refine ⟨fun h => ?_, fun h => ?_, fun h => ?_, fun h => ?_, fun h hstaged hidle => ?_⟩
  · rw [hmove .guardEnd (by rw [h]; rfl)]
    rfl
  · rw [hmove .sendComplete (by rw [h]; rfl)]
    rfl
  · rw [hmove .relayEnd (by rw [h]; rfl)]
    rfl
  · rw [hmove .plannedEnd (by rw [h]; rfl)]
    rfl
  · have hnone : u.select p none = .nothing := State.select_nothing (by rw [hline, hu]; exact hidle)
    have hst : (u.line p).staged = none := by rw [hline, hstaged]
    have hcrossing : u.idleCrossing p = u := by
      simp only [State.idleCrossing, hst, State.selectSettled_of_nothing hnone]
      rfl
    rw [State.deliver_idle hwu (by rw [hline, h]), hcrossing]

end Sys2Proof.Machine
end

section
/-! PROOF. The phases are independent: what an event of one phase leaves of the others and of the shared state (R46, R70). -/

namespace Sys2Proof.Machine

open Relation (ReflTransGen)

/-! ### The progress on another phase, and the directory's items -/

/-- The tags of the records, each with its progress on a phase. -/
def Orm.progressOn (m : Orm) (q : Phase) : List (Tag × Progress) := m.table.map fun o => (o.tag, o.progress.get q)

/-- An entry but for its miss count, health and margin. -/
def entryItems (e : Nat × House) : Nat × Addr × Phase × BitVec 16 × List Nat × Nat :=
  (e.1, e.2.address, e.2.phase, e.2.groups, e.2.route, e.2.refCount)

/-- What an event of another phase leaves of the phase progress and the directory. -/
structure KeepsPhase (q : Phase) (s t : State) : Prop where
  progress : t.orm.progressOn q = s.orm.progressOn q
  houses : t.dir.houses.map entryItems = s.dir.houses.map entryItems

theorem KeepsPhase.refl (q : Phase) (s : State) : KeepsPhase q s s := ⟨rfl, rfl⟩

theorem KeepsPhase.trans {q : Phase} {s t u : State} (h : KeepsPhase q s t) (k : KeepsPhase q t u) : KeepsPhase q s u :=
  ⟨k.progress.trans h.progress, k.houses.trans h.houses⟩

theorem KeepsPhase.of_same {q : Phase} {s t : State} (ho : t.orm = s.orm) (hd : t.dir = s.dir) : KeepsPhase q s t :=
  ⟨by rw [ho], by rw [hd]⟩

theorem KeepsPhase.modLine (q : Phase) (s : State) (p : Phase) (f : Line → Line) : KeepsPhase q s (s.modLine p f) := ⟨rfl, rfl⟩

theorem KeepsPhase.setQueue (q : Phase) (s : State) (p : Phase) (l : List QueueEntry) : KeepsPhase q s (s.setQueue p l) := ⟨rfl, rfl⟩

theorem KeepsPhase.modOrder (s : State) (tag : Tag) {q : Phase} {f : Order → Order}
    (hf : ∀ o, (f o).tag = o.tag ∧ (f o).progress.get q = o.progress.get q) : KeepsPhase q s (s.modOrder tag f) := by
  refine ⟨?_, rfl⟩
  simp only [Orm.progressOn, State.modOrder, List.map_map]
  refine List.map_congr_left fun o _ => ?_
  simp only [Function.comp_apply]
  split
  · rw [(hf o).1, (hf o).2]
  · rfl

theorem KeepsPhase.enterFinal (s : State) (tag : Tag) (st : OrderState) {q : Phase} : KeepsPhase q s (s.enterFinal tag st) :=
  (KeepsPhase.modOrder s tag (f := fun o => { o with state := st, closing := none, finishedAt := some s.now })
    fun _ => ⟨rfl, rfl⟩).trans (.of_same rfl rfl)

theorem Order.modProgress_get_ne (o : Order) {p q : Phase} (h : q ≠ p) (f : Progress → Progress) :
    (o.modProgress p f).progress.get q = o.progress.get q := Tri.get_set_ne _ _ h

theorem KeepsPhase.modProgress (s : State) (tag : Tag) {p q : Phase} (h : q ≠ p) (f : Progress → Progress) :
    KeepsPhase q s (s.modProgress tag p f) :=
  .modOrder s tag fun o => ⟨rfl, o.modProgress_get_ne h f⟩

theorem Order.serve_get_ne (o : Order) (d : Dir) {p q : Phase} (h : q ≠ p) : (o.serve d p).progress.get q = o.progress.get q := by
  unfold Order.serve
  split
  · exact o.modProgress_get_ne h fun pp => { o.firstSelected d p pp with stage := .serving }
  · exact o.modProgress_get_ne h _
  · rfl

theorem Order.pauseOn_get_ne (o : Order) {p q : Phase} (h : q ≠ p) : (o.pauseOn p).progress.get q = o.progress.get q := by
  unfold Order.pauseOn
  split
  · exact o.modProgress_get_ne h _
  · rfl

theorem State.takeService_keepsPhase (s : State) {p q : Phase} (h : q ≠ p) (tag : Tag) : KeepsPhase q s (s.takeService p tag) := by
  refine ⟨?_, rfl⟩
  simp only [Orm.progressOn, State.takeService_table, List.map_map]
  refine List.map_congr_left fun o _ => ?_
  simp only [Function.comp_apply, Order.passService_tag]
  unfold Order.passService
  split
  · rw [o.serve_get_ne _ h]
  · rw [o.pauseOn_get_ne h]

theorem Order.recordMiss_progress (o : Order) (m : Miss) : (o.recordMiss m).progress = o.progress := by
  unfold Order.recordMiss
  split <;> rfl

theorem Order.fillResult_progress (o : Order) (r : LineReply) : (o.fillResult r).progress = o.progress := by
  unfold Order.fillResult
  split <;> rfl

theorem Dir.modify_items (d : Dir) (i : Nat) {f : House → House} (hf : House.HealthOnly f) :
    (d.modify i f).houses.map entryItems = d.houses.map entryItems := by
  simp only [Dir.modify, List.map_map]
  refine List.map_congr_left fun e _ => ?_
  obtain ⟨m, margin, -, -, he⟩ := hf e.2
  simp only [Function.comp_apply]
  split
  · rw [entryItems, he]
    rfl
  · rfl

theorem StandingAct.keepsPhase {s t : State} (h : StandingAct s t) (q : Phase) : KeepsPhase q s t := by
  cases h with
  | post n => exact .of_same rfl rfl
  | mark => exact .modOrder s _ fun _ => ⟨rfl, rfl⟩
  | standing => exact .of_same rfl rfl

theorem OrderAct.keepsPhase {p q : Phase} (hq : q ≠ p) {tag : Tag} {s t : State} (h : OrderAct p tag s t) : KeepsPhase q s t := by
  cases h with
  | standing h => exact h.keepsPhase q
  | serve => exact s.takeService_keepsPhase hq tag
  | progress | done => exact .modProgress s tag hq _
  | miss reason m =>
    refine .modOrder s tag fun o => ⟨Order.recordMiss_tag _ _, ?_⟩
    rw [Order.missOn, Order.recordMiss_progress]
    exact o.modProgress_get_ne hq _
  | filled r => exact .modOrder s tag fun o => ⟨o.fillResult_tag r, by rw [o.fillResult_progress]⟩
  | complete => exact .enterFinal s tag _
  | house i hf => exact ⟨rfl, s.dir.modify_items i hf⟩

theorem OrderActs.keepsPhase {p q : Phase} (hq : q ≠ p) {tag : Tag} {s t : State} (h : OrderActs p tag s t) : KeepsPhase q s t :=
  acts_induct (KeepsPhase.refl q) KeepsPhase.trans (OrderAct.keepsPhase hq) h

theorem State.clearInFlight_keepsPhase (s : State) (tag : Tag) {p q : Phase} (hq : q ≠ p) :
    KeepsPhase q s (s.clearInFlight tag p) := by
  refine (KeepsPhase.modProgress s tag hq fun pp => { pp with inFlight := false }).trans ?_
  obtain he | ⟨o, reason, -, -, -, -, he⟩ := (s.modProgress tag p fun pp => { pp with inFlight := false }).closingEnd_cases tag
  · exact .of_same (congrArg State.orm he) (congrArg State.dir he)
  · rw [State.clearInFlight, he]
    exact .enterFinal _ tag _

theorem State.endSlot_keepsPhase (s : State) {p q : Phase} (hq : q ≠ p) {reply : Option LineReply} (hm : ∀ r ∈ reply, r.margin ≤ 63) :
    KeepsPhase q s (s.endSlot p reply) := by
  cases hon : (s.line p).onLine with
  | none =>
    have he : s.endSlot p reply = s := by simp only [State.endSlot, hon]
    rw [he]
    exact .refl q s
  | some ol =>
    rw [State.endSlot_eq hon]
    obtain ⟨tag, u, -, h, he⟩ | ⟨g, -, he⟩ := s.settledSlot_cases p ol hm <;> rw [he]
    · exact ((h.keepsPhase hq).trans (u.clearInFlight_keepsPhase tag hq)).trans (.modLine q _ p _)
    · exact (KeepsPhase.setQueue q s p _).trans (.modLine q _ p _)

theorem State.beginSlot_keepsPhase (s : State) {p q : Phase} (hq : q ≠ p) (f : Frame) : KeepsPhase q s (s.beginSlot p f) := by
  unfold State.beginSlot
  dsimp only
  split
  · exact (KeepsPhase.modLine q s p _).trans (.modProgress _ _ hq _)
  · exact .of_same rfl rfl

theorem LineAct.keepsPhase {p q : Phase} (hq : q ≠ p) {s t : State} (h : LineAct p s t) : KeepsPhase q s t := by
  cases h with
  | settle _ _ h => exact h.keepsPhase hq
  | serve => exact s.takeService_keepsPhase hq _
  | beginSlot => exact s.beginSlot_keepsPhase hq _
  | endSlot _ hm =>
    exact ((KeepsPhase.modLine q s p _).trans (State.endSlot_keepsPhase _ hq hm)).trans (.modLine q _ p _)
  | pick | stage | discard | hold | toSend | toQuiet | stats | waiting => exact .of_same rfl rfl

theorem LineActs.keepsPhase {p q : Phase} (hq : q ≠ p) {s t : State} (h : LineActs p s t) : KeepsPhase q s t :=
  acts_induct (KeepsPhase.refl q) KeepsPhase.trans (LineAct.keepsPhase hq) h

theorem State.abortSlot_keepsPhase (s : State) {p q : Phase} (hq : q ≠ p) : KeepsPhase q s (s.abortSlot p) := by
  obtain h | ⟨tag, -, h⟩ := s.abortSlot_cases p <;> rw [h]
  · exact .of_same rfl rfl
  · exact ((KeepsPhase.modLine q s p _).trans (.modProgress _ tag hq _)).trans
      (State.clearInFlight_keepsPhase _ tag hq)

theorem State.losePhase_keepsPhase (s : State) {p q : Phase} (hq : q ≠ p) : KeepsPhase q s (s.losePhase p) := by
  have hmoment : KeepsPhase q s ((s.lossMoment p).setMains p (s.mains p).lose) := by
    obtain ⟨n, hn⟩ := s.lossMoment_eq p
    rw [hn]
    exact .of_same rfl rfl
  have hline : ∀ u : State, KeepsPhase q u (u.loseLine p) := fun u => by
    unfold State.loseLine
    dsimp only
    split
    · exact (KeepsPhase.modLine q u p _).trans (State.abortSlot_keepsPhase _ hq)
    · exact .of_same rfl rfl
  rw [State.losePhase_eq]
  exact (hmoment.trans (hline _)).trans (.of_same rfl rfl)

/-! ### Events of one phase -/

/-- Everything that an event of phase `p` leaves as it stands. -/
structure OutsidePhase (p : Phase) (s t : State) : Prop where
  line : ∀ q, q ≠ p → t.line q = s.line q
  mains : ∀ q, q ≠ p → t.mains q = s.mains q
  queue : ∀ q, q ≠ p → t.queue q = s.queue q
  orders : ∀ q, q ≠ p → KeepsPhase q s t
  tagCounter : t.orm.tagCounter = s.orm.tagCounter
  seqCounter : t.orm.seqCounter = s.orm.seqCounter
  floor : t.orm.floor = s.orm.floor
  clock : t.mtb.clock = s.mtb.clock
  quiet : t.mtb.quiet = s.mtb.quiet ∧ t.mtb.quietIn = s.mtb.quietIn ∧ t.mtb.releaseEnd = s.mtb.releaseEnd
  scs : t.scs = s.scs
  params : t.params = s.params
  pending : t.pending = s.pending
  freezes : t.dir.freezes = s.dir.freezes
  link : t.rlc.receiver = s.rlc.receiver ∧ t.rlc.processing = s.rlc.processing ∧ t.rlc.holding = s.rlc.holding

theorem OutsidePhase.refl (p : Phase) (s : State) : OutsidePhase p s s :=
  ⟨fun _ _ => rfl, fun _ _ => rfl, fun _ _ => rfl, fun q _ => .refl q s, rfl, rfl, rfl, rfl, ⟨rfl, rfl, rfl⟩, rfl, rfl, rfl, rfl,
    ⟨rfl, rfl, rfl⟩⟩

theorem OutsidePhase.trans {p : Phase} {s t u : State} (h : OutsidePhase p s t) (k : OutsidePhase p t u) : OutsidePhase p s u where
  line q hq := (k.line q hq).trans (h.line q hq)
  mains q hq := (k.mains q hq).trans (h.mains q hq)
  queue q hq := (k.queue q hq).trans (h.queue q hq)
  orders q hq := (h.orders q hq).trans (k.orders q hq)
  tagCounter := k.tagCounter.trans h.tagCounter
  seqCounter := k.seqCounter.trans h.seqCounter
  floor := k.floor.trans h.floor
  clock := k.clock.trans h.clock
  quiet := ⟨k.quiet.1.trans h.quiet.1, k.quiet.2.1.trans h.quiet.2.1, k.quiet.2.2.trans h.quiet.2.2⟩
  scs := k.scs.trans h.scs
  params := k.params.trans h.params
  pending := k.pending.trans h.pending
  freezes := k.freezes.trans h.freezes
  link := ⟨k.link.1.trans h.link.1, k.link.2.1.trans h.link.2.1, k.link.2.2.trans h.link.2.2⟩

theorem LineActs.outsidePhase {p : Phase} {s t : State} (h : LineActs p s t) : OutsidePhase p s t :=
  have o := h.outside
  { line := o.line
    mains := fun q _ => by rw [State.mains, o.mtb]; rfl
    queue := o.queue
    orders := fun _ hq => h.keepsPhase hq
    tagCounter := o.tagCounter
    seqCounter := o.seqCounter
    floor := o.floor
    clock := by rw [o.mtb]
    quiet := by rw [o.mtb]; exact ⟨rfl, rfl, rfl⟩
    scs := o.scs
    params := o.params
    pending := o.requests.pending
    freezes := o.freezes
    link := ⟨o.requests.receiver, o.requests.processing, o.holding⟩ }

theorem OutsidePhase.withMains (s : State) (p : Phase) (m : Mains) (t : Nat) : OutsidePhase p s (withMains s p m t) where
  line _ _ := rfl
  mains _ hq := State.mains_setMains_ne (s.advanceTo t) m hq
  queue _ _ := rfl
  orders _ _ := .of_same rfl rfl
  tagCounter := rfl
  seqCounter := rfl
  floor := rfl
  clock := rfl
  quiet := ⟨rfl, rfl, rfl⟩
  scs := rfl
  params := rfl
  pending := rfl
  freezes := rfl
  link := ⟨rfl, rfl, rfl⟩

theorem OutsidePhase.advanceTo (s : State) (p : Phase) (t : Nat) : OutsidePhase p s (s.advanceTo t) :=
  ⟨fun _ _ => rfl, fun _ _ => rfl, fun _ _ => rfl, fun _ _ => .of_same rfl rfl, rfl, rfl, rfl, rfl, ⟨rfl, rfl, rfl⟩, rfl, rfl, rfl, rfl,
    ⟨rfl, rfl, rfl⟩⟩

theorem OutsidePhase.pump (s : State) (p : Phase) : OutsidePhase p s s.pump where
  line _ _ := rfl
  mains _ _ := rfl
  queue _ _ := rfl
  orders _ _ := .of_same rfl rfl
  tagCounter := rfl
  seqCounter := rfl
  floor := rfl
  clock := rfl
  quiet := ⟨rfl, rfl, rfl⟩
  scs := rfl
  params := rfl
  pending := rfl
  freezes := rfl
  link := by
    unfold State.pump Rlc.choose
    dsimp only
    split
    · exact ⟨rfl, rfl, rfl⟩
    · split
      · exact ⟨rfl, rfl, rfl⟩
      · split <;> exact ⟨rfl, rfl, rfl⟩

theorem State.losePhase_outsidePhase (s : State) (p : Phase) : OutsidePhase p s (s.losePhase p) :=
  have o := s.losePhase_outsideMains p
  have hmtb : (s.losePhase p).mtb.clock = s.mtb.clock ∧ (s.losePhase p).mtb.quiet = s.mtb.quiet
      ∧ (s.losePhase p).mtb.quietIn = s.mtb.quietIn ∧ (s.losePhase p).mtb.releaseEnd = s.mtb.releaseEnd := by
    obtain ⟨n, hn⟩ := s.lossMoment_eq p
    rw [State.losePhase_mtb, hn]
    exact ⟨rfl, rfl, rfl, rfl⟩
  { line := fun q hq => by rw [State.losePhase_line, if_neg hq]
    mains := fun q hq => by rw [State.losePhase_mains, if_neg hq]
    queue := fun q _ => by rw [State.queue, o.rfs]; rfl
    orders := fun _ hq => s.losePhase_keepsPhase hq
    tagCounter := o.tagCounter
    seqCounter := o.seqCounter
    floor := o.floor
    clock := hmtb.1
    quiet := hmtb.2
    scs := o.scs
    params := o.params
    pending := o.requests.pending
    freezes := by rw [o.dir]
    link := ⟨o.requests.receiver, o.requests.processing, o.holding⟩ }

theorem State.returnIfDue_outsidePhase (s : State) (p : Phase) : OutsidePhase p s (s.returnIfDue p) := by
  obtain ⟨he, -⟩ | ⟨-, he⟩ := s.returnIfDue_cases p <;> rw [he]
  · exact .refl p s
  · have o := s.returnPhase_outsideMains p
    rw [State.returnPhase_eq] at o ⊢
    refine (OutsidePhase.withMains s p { s.mains p with presence := .present, period := (s.mains p).history.sum / 16 } 0).trans ?_
    exact ⟨fun q hq => Tri.get_set_ne _ _ hq, fun _ _ => rfl, fun _ _ => rfl, fun _ _ => .of_same rfl rfl, rfl, rfl, rfl, rfl,
      ⟨rfl, rfl, rfl⟩, rfl, rfl, rfl, rfl, ⟨o.requests.receiver, o.requests.processing, o.holding⟩⟩

theorem State.edge_outsidePhase (s : State) (p : Phase) (t : Nat) : OutsidePhase p s (s.edge p t) := by
  obtain ⟨u, hu⟩ : ∃ u, u = if (s.mains p).lostBefore t then (s.losePhase p).pump else s := ⟨_, rfl⟩
  have hlost : OutsidePhase p s u := by
    rw [hu]
    split
    · exact (s.losePhase_outsidePhase p).trans (.pump _ p)
    · exact .refl p s
  have haccept : ∀ u : State, OutsidePhase p u (u.acceptCrossing p t) := fun u => by
    have hset : ∀ m, OutsidePhase p u (u.setMains p m) := fun m => withMains_zero u p m ▸ .withMains u p m 0
    unfold State.acceptCrossing
    dsimp only
    split
    · exact (hset _).trans (LineActs.outsidePhase (State.deliver_acts _ p))
    · exact (hset _).trans (State.returnIfDue_outsidePhase _ p)
  have hedge : s.edge p t
      = if ((u.advanceTo t).mains p).isGlitch t then u.advanceTo t else (u.advanceTo t).acceptCrossing p t := by
    rw [hu]
    rfl
  rw [hedge]
  split
  · exact hlost.trans (.advanceTo _ p t)
  · exact (hlost.trans (.advanceTo _ p t)).trans (haccept _)

theorem exec_outsidePhase {c : Instr} {p : Phase} {s t : State} (hc : EventOn c p) (h : exec c s = .next t) : OutsidePhase p s t := by
  have hline : ∀ u, LineActs p s u → (.next u.pump : Host.Outcome State Fault Refusal) = .next t → OutsidePhase p s t :=
    fun u hu he => by
      cases he
      exact hu.outsidePhase.trans (.pump u p)
  have hother : ∀ u, OutsidePhase p s u → (.next u.pump : Host.Outcome State Fault Refusal) = .next t → OutsidePhase p s t :=
    fun u hu he => by
      cases he
      exact hu.trans (.pump u p)
  rcases hc with rfl | ⟨n, rfl⟩ | rfl | rfl | rfl | rfl | rfl | rfl | ⟨f, rfl⟩ | ⟨f, rfl⟩
  · exact hline _ (s.holdTakesEffect_acts p) h
  · exact hother _ (s.edge_outsidePhase p n) h
  · exact hother _ (s.returnIfDue_outsidePhase p) h
  · refine hother (s.loseIfPresent p) ?_ h
    unfold State.loseIfPresent
    split
    · exact s.losePhase_outsidePhase p
    · exact .refl p s
  · exact hline _ (s.takeMoveIf_acts p .guardEnd) h
  · exact hline _ (s.takeMoveIf_acts p .sendComplete) h
  · exact hline _ (s.takeMoveIf_acts p .relayEnd) h
  · exact hline _ (s.takeMoveIf_acts p .plannedEnd) h
  · exact hline _ (s.takeFrame_acts p f) h
  · exact hline _ (s.frameCompleted_acts p f) h

/-- Settles O47, by the parts that an event of one phase leaves. -/
theorem phasesAreIndependent : Obligations.PhasesAreIndependent := by
  intro c p q s t hc hq h
  have o := exec_outsidePhase hc h
  have k := o.orders q hq
  obtain ⟨hquiet, hquietIn, hrelease⟩ := o.quiet
  exact ⟨o.line q hq, o.mains q hq, o.queue q hq, k.progress, o.tagCounter, o.seqCounter, o.floor, o.clock, hquiet, hquietIn,
    hrelease, o.scs, o.params, o.pending, o.freezes, k.houses, o.link⟩

end Sys2Proof.Machine
end

section
/-! PROOF. Frames taken from the line: the judgement of R89, and the frames that wait for a crossing (R53, R88 to R91). -/

namespace Sys2Proof.Machine

/-! ### The judgement of a frame (R89) -/

theorem kindCode_eq (b : Byte) : kindCode b = b.toNat / 16 := by
  have hb := b.isLt
  rw [kindCode, BitVec.extractLsb'_toNat, Nat.shiftRight_eq_div_pow]
  omega

theorem bump_eq (n : Nat) : bump n = countUp n := rfl

theorem Line.listening_iff (l : Line) (hc : Hc) (ol : OnLine) (hon : l.onLine = some ol) :
    l.listening hc = true ↔ l.segment = .listen ∧ ol.frame.replyLen ≠ none
      ∧ ol.frame.guard + ol.frame.carrier + ol.frame.hops * (ol.frame.carrier + 1) < (hc - ol.start).toNat
      ∧ (hc - ol.start).toNat ≤ ol.frame.planned := by
  unfold Line.listening
  rw [hon]
  simp only [Bool.and_eq_true, decide_eq_true_iff, Frame.isBroadcast, Bool.not_eq_true', Option.isNone_eq_false_iff,
    Option.isSome_iff_ne_none, and_assoc]
  rfl

theorem Content.replyKind_cases {c : Content} {k : Nat} (h : c.replyKind = some k) : k = 9 ∨ k = 10 := by
  cases c <;> simp_all [Content.replyKind]

theorem State.discards_iff (s : State) (p : Phase) (f : RxFrame) :
    s.discards p f = true ↔ (s.mains p).presence = .lost ∨ f.cuts ≠ (s.line p).cuts := decide_eq_true_iff

/-- The reply that an awaited frame is, by its kind (Table 11-12). -/
def replyOf (f : RxFrame) : LineReply :=
  if (byteAt f.bytes 0).toNat / 16 = 9 then shortReply f.bytes else longReply f.bytes

theorem judgeFrame_of_awaited {s : State} {p : Phase} {ol : OnLine} {f : RxFrame} (h : Awaited s p ol f) :
    judgeFrame s.scs (s.line p) (s.mains p).hc f = .accepted (replyOf f) := by
  obtain ⟨-, -, hcrc, hscs, hcode, hon, hseg, hreply, hkind, hreplyKind, haddr, hafter, hbefore⟩ := h
  have hlisten : (s.line p).listening (s.mains p).hc = true :=
    (Line.listening_iff _ _ ol hon).mpr ⟨hseg, hreply, hafter, hbefore⟩
  have hown : ¬(1 ≤ kindCode (byteAt f.bytes 0) ∧ kindCode (byteAt f.bytes 0) ≤ 6) := by
    rw [kindCode_eq]
    omega
  have hforeign : ¬(s.scs.state ≠ .written ∨ word24 f.bytes 1 ≠ s.scs.code) := by
    rw [not_or, not_not, not_not]
    exact ⟨hscs, hcode⟩
  have hstray : ¬(!(s.line p).listening (s.mains p).hc
      || decide (ol.frame.content.replyKind ≠ some (kindCode (byteAt f.bytes 0)))) = true := by
    rw [hlisten, kindCode_eq, hreplyKind]
    simp
  have haddress : ¬ol.frame.content.address ≠ some (word24 f.bytes 4) := not_not.mpr haddr
  unfold judgeFrame
  dsimp only
  rw [hcrc, if_neg (by decide), if_neg hforeign, if_neg hown, hon]
  dsimp only
  rw [if_neg hstray, if_neg haddress, kindCode_eq, replyOf]
  split <;> rfl

/-- A frame that passes the checks before it is awaited or stray. -/
theorem judgeFrame_late {s : State} {p : Phase} {f : RxFrame} (hpresent : (s.mains p).presence = .present)
    (hcuts : f.cuts = (s.line p).cuts) (hcrc : f.crcGood = true) (hscs : s.scs.state = .written)
    (hcode : word24 f.bytes 1 = s.scs.code)
    (hkind : (byteAt f.bytes 0).toNat / 16 = 0 ∨ 6 < (byteAt f.bytes 0).toNat / 16) :
    judgeFrame s.scs (s.line p) (s.mains p).hc f = .stray ∨ ∃ ol, Awaited s p ol f := by
  have hown : ¬(1 ≤ kindCode (byteAt f.bytes 0) ∧ kindCode (byteAt f.bytes 0) ≤ 6) := by
    rw [kindCode_eq]
    omega
  have hforeign : ¬(s.scs.state ≠ .written ∨ word24 f.bytes 1 ≠ s.scs.code) := by
    rw [not_or, not_not, not_not]
    exact ⟨hscs, hcode⟩
  unfold judgeFrame
  dsimp only
  rw [hcrc, if_neg (by decide), if_neg hforeign, if_neg hown]
  cases hon : (s.line p).onLine with
  | none => exact .inl rfl
  | some ol =>
    dsimp only
    by_cases hstray : (!(s.line p).listening (s.mains p).hc
        || decide (ol.frame.content.replyKind ≠ some (kindCode (byteAt f.bytes 0)))) = true
    · exact .inl (if_pos hstray)
    · rw [if_neg hstray]
      by_cases haddr : ol.frame.content.address = some (word24 f.bytes 4)
      · simp only [Bool.or_eq_true, Bool.not_eq_true', decide_eq_true_iff, not_or, Bool.not_eq_false, not_not] at hstray
        obtain ⟨hlisten, hreplyKind⟩ := hstray
        obtain ⟨hseg, hreply, hafter, hbefore⟩ := (Line.listening_iff _ _ ol hon).mp hlisten
        rw [kindCode_eq] at hreplyKind
        exact .inr ⟨ol, hpresent, hcuts, hcrc, hscs, hcode, hon, hseg, hreply, Content.replyKind_cases hreplyKind, hreplyKind,
          haddr, hafter, hbefore⟩
      · exact .inl (if_pos haddr)

theorem exec_lineFrameTaken (p : Phase) (f : RxFrame) (s : State) : exec (.lineFrameTaken p f) s = .next (s.takeFrame p f).pump := rfl
theorem exec_frontEndFrameComplete (p : Phase) (f : RxFrame) (s : State) :
    exec (.frontEndFrameComplete p f) s = .next (s.frameCompleted p f).pump := rfl

/-- What a taken frame does, by its judgement. -/
def State.takeJudged (s : State) (p : Phase) (f : RxFrame) : FrameVerdict → State
  | .crcError => s.modLine p fun l => l.countStats fun st => { st with crcErrors := bump st.crcErrors }
  | .foreign => s.modLine p fun l => l.countStats fun st => { st with foreign := bump st.foreign }
  | .echo => s
  | .stray => s.modLine p fun l => l.countStats fun st => { st with stray := bump st.stray }
  | .accepted r =>
    (s.modLine p fun l => l.countStats fun st =>
      { st with repliesAccepted := bump st.repliesAccepted, quality := some f.quality }).gap p (some r)

theorem State.takeFrame_of_kept {s : State} {p : Phase} {f : RxFrame} (hpresent : (s.mains p).presence = .present)
    (hcuts : f.cuts = (s.line p).cuts) :
    s.takeFrame p f = s.takeJudged p f (judgeFrame s.scs (s.line p) (s.mains p).hc f) := by
  have hkept : ¬s.discards p f = true := by
    rw [State.discards_iff, hpresent, hcuts]
    simp
  exact if_neg hkept

/-- A frame that is not awaited is counted at most. -/
theorem State.takeFrame_counted {s : State} {p : Phase} {f : RxFrame} (h : ∀ ol, ¬Awaited s p ol f) :
    ∃ stats : Stats, s.takeFrame p f = withLine s p { s.line p with stats := stats } := by
  have hsame : s = withLine s p { s.line p with stats := (s.line p).stats } := (withLine_self s p).symm
  by_cases hkept : (s.mains p).presence = .lost ∨ f.cuts ≠ (s.line p).cuts
  · exact ⟨(s.line p).stats, (if_pos ((State.discards_iff s p f).mpr hkept)).trans hsame⟩
  · obtain ⟨hpresent, hcuts⟩ := not_or.mp hkept
    have hpresent : (s.mains p).presence = .present := by
      cases hp : (s.mains p).presence with
      | lost => exact absurd hp hpresent
      | present => rfl
    rw [State.takeFrame_of_kept hpresent (not_not.mp hcuts)]
    cases hr : judgeFrame s.scs (s.line p) (s.mains p).hc f with
    | crcError =>
      rw [State.takeJudged]
      exact ⟨_, s.modLine_eq p _⟩
    | foreign =>
      rw [State.takeJudged]
      exact ⟨_, s.modLine_eq p _⟩
    | echo => exact ⟨_, hsame⟩
    | stray =>
      rw [State.takeJudged]
      exact ⟨_, s.modLine_eq p _⟩
    | accepted r =>
      exfalso
      have hcrc : f.crcGood = true := by
        by_contra hbad
        rw [judgeFrame, if_pos (by simpa using hbad)] at hr
        cases hr
      have hscs : ¬(s.scs.state ≠ .written ∨ word24 f.bytes 1 ≠ s.scs.code) := fun hbad => by
        rw [judgeFrame, hcrc, if_neg (by decide), if_pos hbad] at hr
        cases hr
      have hkind : ¬(1 ≤ kindCode (byteAt f.bytes 0) ∧ kindCode (byteAt f.bytes 0) ≤ 6) := fun hbad => by
        rw [judgeFrame, hcrc, if_neg (by decide), if_neg hscs, if_pos hbad] at hr
        cases hr
      rw [kindCode_eq] at hkind
      obtain ⟨hstate, hcode⟩ := not_or.mp hscs
      rcases judgeFrame_late hpresent (not_not.mp hcuts) hcrc (not_not.mp hstate) (not_not.mp hcode) (by omega) with hs | ⟨ol, ho⟩
      · cases hs.symm.trans hr
      · exact h ol ho

/-! ### An awaited frame ends its slot (R90) -/

theorem State.takeFrame_awaited {s : State} {p : Phase} {ol : OnLine} {f : RxFrame} (h : Awaited s p ol f) :
    s.takeFrame p f = (s.modLine p fun l => l.countStats fun st =>
      { st with repliesAccepted := bump st.repliesAccepted, quality := some f.quality }).gap p (some (replyOf f)) := by
  have hjudge := judgeFrame_of_awaited h
  obtain ⟨hpresent, hcuts, -⟩ := h
  rw [State.takeFrame_of_kept hpresent hcuts, hjudge]
  rfl

theorem replyOf_margin (f : RxFrame) : (replyOf f).margin ≤ 63 := by
  unfold replyOf
  split <;> exact marginOf_le _

/-- How the line controller stands after an awaited frame: its slot has ended, and a slot may have begun at once. -/
structure Line.Answered (l k : Line) (f : RxFrame) (guard : Nat) (hc : Hc) : Prop where
  stats : k.stats = { l.stats with repliesAccepted := countUp l.stats.repliesAccepted, quality := some f.quality }
  cuts : k.cuts = l.cuts
  slot : (k.segment = .none ∧ k.onLine = none)
    ∨ ∃ x : OnLine, k.segment = .guard ∧ k.onLine = some x ∧ x.start = hc ∧ (l.staged = some x.frame ∨ x.frame.guard = guard)

theorem State.takeFrame_answered {s : State} {p : Phase} {ol : OnLine} {f : RxFrame} (h : Awaited s p ol f) :
    (s.line p).Answered ((s.takeFrame p f).line p) f s.params.guard (s.mains p).hc := by
  obtain ⟨u, hu⟩ : ∃ u, u = s.modLine p fun l => l.countStats fun st =>
    { st with repliesAccepted := bump st.repliesAccepted, quality := some f.quality } := ⟨_, rfl⟩
  have hline : u.line p = (s.line p).countStats fun st =>
      { st with repliesAccepted := bump st.repliesAccepted, quality := some f.quality } := by
    rw [hu, State.line_modLine_same]
  have hon : (u.line p).onLine = some ol := by
    obtain ⟨-, -, -, -, -, hon, -⟩ := h
    rw [hline]
    exact hon
  have hm : ∀ r ∈ some (replyOf f), r.margin ≤ 63 := by simpa using replyOf_margin f
  have hgap := u.gap_line p hm
  obtain ⟨-, hstats, hcuts⟩ := u.gap_counts p hm
  rw [State.endSlot_line hon hm] at hgap
  obtain ⟨ended, hended⟩ : ∃ k, k = ({ u.line p with segment := .none, txEnable := false, onLine := none } : Line).takeHold :=
    ⟨_, rfl⟩
  have hfields : ended.segment = .none ∧ ended.onLine = none ∧ ended.staged = (s.line p).staged := by
    obtain ⟨-, -, hstaged, hseg, -⟩ := Line.takeHold_counts ({ u.line p with segment := .none, txEnable := false, onLine := none })
    rw [← hended] at hstaged hseg
    refine ⟨hseg, ?_, hstaged.trans (by rw [hline]; rfl)⟩
    rw [hended, Line.takeHold_onLine]
  obtain ⟨hseg, hnone, hstaged⟩ := hfields
  have hparams : u.params = s.params ∧ u.mains p = s.mains p := by
    rw [hu]
    exact ⟨rfl, rfl⟩
  rw [← hended, hparams.1, hparams.2] at hgap
  rw [State.takeFrame_awaited h, ← hu]
  refine ⟨hstats.trans (by rw [hline]; rfl), hcuts.trans (by rw [hline]; rfl), ?_⟩
  rcases hgap with hk | ⟨x, y, z, hx, hk⟩
  · rw [hk]
    exact .inl ⟨hseg, hnone⟩
  · rw [hk]
    exact .inr ⟨⟨x, (s.mains p).hc, y, z⟩, rfl, rfl, rfl, hx.imp (hstaged.symm.trans ·) id⟩

/-- A slot that begins at a crossing with a guard time makes no move there. -/
theorem State.takeMove_answered {s : State} {p : Phase} {l : Line} {f : RxFrame} {guard : Nat}
    (h : l.Answered (s.line p) f guard (s.mains p).hc) (hguard : guard ≠ 0) (hstaged : ∀ x ∈ l.staged, x.guard ≠ 0) :
    s.takeMove p = s := by
  have hdue : s.dueMove p = none := by
    unfold State.dueMove
    rcases h.slot with ⟨-, hon⟩ | ⟨x, hseg, hon, hstart, hx⟩
    · simp only [hon]
    · have hlater : ¬x.offset (s.mains p).hc = x.frame.sendAt := by
        rw [OnLine.offset, hstart, BitVec.sub_self]
        intro h0
        rcases hx with hx | hx
        · exact hstaged x.frame hx h0.symm
        · exact hguard (hx ▸ h0.symm)
      simp only [hon, hseg, Frame.moveAfter, if_neg hlater]
  rw [State.takeMove, hdue]

/-- Neither a line without a slot nor one in GUARD changes its statistics by a move. -/
theorem State.takeMove_stats {s : State} {p : Phase} (h : (s.line p).segment = .none ∨ (s.line p).segment = .guard) :
    ((s.takeMove p).line p).stats = (s.line p).stats := by
  unfold State.takeMove
  split
  next m ol hdue =>
    have hmove := State.dueMove_move hdue
    rcases h with h | h <;> rw [h] at hmove <;> cases hmove
    show ((s.endGuard p ol).line p).stats = _
    unfold State.endGuard
    dsimp only
    split
    · exact ((State.stage_counts _ p _ _).2).trans (by rw [State.line_modLine_same])
    · rw [State.line_modLine_same]
  · rfl

/-! ### Waiting frames (R88, R91) -/

theorem State.takeWaiting_one {s : State} {p : Phase} {f : RxFrame} (h : (s.line p).waiting = [f]) :
    s.takeWaiting p = (withLine s p { s.line p with waiting := [] }).takeFrame p f := by
  rw [State.takeWaiting, h, State.modLine_eq]
  rfl

theorem State.takeWaiting_two {s : State} {p : Phase} {f f' : RxFrame} (h : (s.line p).waiting = [f, f']) :
    ∃ (n : Nat) (x y : RxFrame), ((x = f ∧ y = f') ∨ (x = f' ∧ y = f))
      ∧ s.takeWaiting p
        = (({ withLine s p { s.line p with waiting := [] } with picks := n } : State).takeFrame p x).takeFrame p y := by
  have hperm := freeOrder_perm [f, f'] s.picks
  rw [State.takeWaiting, h, State.modLine_eq]
  rcases hr : freeOrder [f, f'] s.picks with ⟨xs, n⟩
  rw [hr] at hperm
  have hfold : State.forEachFree (withLine s p { s.line p with waiting := [] }) [f, f'] (fun s f => s.takeFrame p f)
      = xs.foldl (fun s f => s.takeFrame p f) { withLine s p { s.line p with waiting := [] } with picks := n } := by
    unfold State.forEachFree
    show (freeOrder [f, f'] s.picks).1.foldl _ { withLine s p { s.line p with waiting := [] } with
      picks := (freeOrder [f, f'] s.picks).2 } = _
    rw [hr]
  obtain hx | hx := List.perm_pair.mp hperm
  · have hx : xs = [f, f'] := hx
    exact ⟨n, f, f', .inl ⟨rfl, rfl⟩, by rw [hfold, hx]; rfl⟩
  · have hx : xs = [f', f] := hx
    exact ⟨n, f', f, .inr ⟨rfl, rfl⟩, by rw [hfold, hx]; rfl⟩

/-- Of two awaited frames the second judged is stray. -/
theorem State.takeFrame_second {s : State} {p : Phase} {ol : OnLine} {x y : RxFrame} (hx : Awaited s p ol x)
    (hy : Awaited s p ol y) :
    ((((s.takeFrame p x).takeFrame p y).line p).segment = .none ∨ (((s.takeFrame p x).takeFrame p y).line p).segment = .guard)
      ∧ (((s.takeFrame p x).takeFrame p y).line p).stats
        = { (s.line p).stats with
            repliesAccepted := countUp (s.line p).stats.repliesAccepted
            quality := some x.quality
            stray := countUp (s.line p).stats.stray } := by
  have hans := State.takeFrame_answered hx
  have hout := (s.takeFrame_acts p x).outside
  obtain ⟨hpresent, hcuts, hcrc, hscs, hcode, -, -, -, hkind, -⟩ := hy
  obtain ⟨u, hu⟩ : ∃ u, u = s.takeFrame p x := ⟨_, rfl⟩
  rw [← hu] at hans hout ⊢
  have hmains : u.mains p = s.mains p := by rw [State.mains, hout.mtb]; rfl
  have hstray : judgeFrame u.scs (u.line p) (u.mains p).hc y = .stray := by
    rcases judgeFrame_late (s := u) (p := p) (f := y) (by rw [hmains]; exact hpresent) (by rw [hans.cuts]; exact hcuts) hcrc
      (by rw [hout.scs]; exact hscs) (by rw [hout.scs]; exact hcode) (by omega) with h | ⟨ol', h⟩
    · exact h
    · obtain ⟨-, -, -, -, -, hon, hseg, -⟩ := h
      rcases hans.slot with ⟨hnone, -⟩ | ⟨_, hguard, -⟩
      · cases hseg.symm.trans hnone
      · cases hseg.symm.trans hguard
  have htaken := State.takeFrame_of_kept (s := u) (p := p) (f := y) (by rw [hmains]; exact hpresent)
    (by rw [hans.cuts]; exact hcuts)
  rw [hstray] at htaken
  have hline : (u.takeFrame p y).line p = (u.line p).countStats fun st => { st with stray := bump st.stray } := by
    rw [htaken, State.takeJudged, State.line_modLine_same]
  rw [hline]
  refine ⟨hans.slot.imp And.left fun ⟨_, h, _⟩ => h, ?_⟩
  rw [Line.countStats, hans.stats]
  rfl

theorem withMains_withLine_twice (s : State) (p : Phase) (m : Mains) (t : Nat) (k l : Line) :
    withLine (withMains (withLine s p k) p m t) p l = withMains (withLine s p l) p m t := by
  cases p <;> rfl

theorem withLine_line (s : State) (p : Phase) (l : Line) : (withLine s p l).line p = l := Tri.get_set_same _ _ _

theorem withLine_injective {s : State} {p : Phase} {k l : Line} (h : (withLine s p k).pump = (withLine s p l).pump) : k = l := by
  have hline := congrArg (fun u : State => u.line p) h
  rwa [State.line_pump, State.line_pump, withLine_line, withLine_line] at hline

/-- Settles O44, by the judgement of one frame, and the frames that wait for a crossing. -/
theorem framesAreJudged : Obligations.FramesAreJudged := by
  intro s p f l kind hl hkind
  subst hl hkind
  refine ⟨fun h => ?_, fun hpresent hcuts => ⟨?_, fun hcrc => ?_, fun hcrc hscs => ?_, fun hcrc hstate hcode h1 h6 => ?_,
    fun hcrc hstate hcode hk hno => ?_⟩, fun last t u hcross hu => ?_⟩
  · have hdiscards : s.discards p f = true := (State.discards_iff s p f).mpr h
    rw [exec_lineFrameTaken, exec_frontEndFrameComplete, State.takeFrame, State.frameCompleted, if_pos hdiscards]
    exact ⟨rfl, by rw [if_pos hdiscards]⟩
  · have hkept : ¬s.discards p f = true := by
      rw [State.discards_iff, hpresent, hcuts]
      simp
    rw [exec_frontEndFrameComplete, State.frameCompleted, if_neg hkept, State.modLine_eq]
  · have hjudge : judgeFrame s.scs (s.line p) (s.mains p).hc f = .crcError := by
      rw [judgeFrame, hcrc]
      rfl
    rw [exec_lineFrameTaken, State.takeFrame_of_kept hpresent hcuts, hjudge, State.takeJudged]
    exact congrArg (fun u => Host.Outcome.next (State.pump u)) (s.modLine_eq p _)
  · have hjudge : judgeFrame s.scs (s.line p) (s.mains p).hc f = .foreign := by
      rw [judgeFrame, hcrc, if_neg (by decide), if_pos hscs]
    rw [exec_lineFrameTaken, State.takeFrame_of_kept hpresent hcuts, hjudge, State.takeJudged]
    exact congrArg (fun u => Host.Outcome.next (State.pump u)) (s.modLine_eq p _)
  · have hforeign : ¬(s.scs.state ≠ .written ∨ word24 f.bytes 1 ≠ s.scs.code) := by
      rw [not_or, not_not, not_not]
      exact ⟨hstate, hcode⟩
    have hown : 1 ≤ kindCode (byteAt f.bytes 0) ∧ kindCode (byteAt f.bytes 0) ≤ 6 := by
      rw [kindCode_eq]
      exact ⟨h1, h6⟩
    have hjudge : judgeFrame s.scs (s.line p) (s.mains p).hc f = .echo := by
      rw [judgeFrame, hcrc, if_neg (by decide), if_neg hforeign, if_pos hown]
    rw [exec_lineFrameTaken, State.takeFrame_of_kept hpresent hcuts, hjudge]
    rfl
  · have hjudge : judgeFrame s.scs (s.line p) (s.mains p).hc f = .stray :=
      (judgeFrame_late hpresent hcuts hcrc hstate hcode hk).resolve_right fun ⟨ol, h⟩ => hno ol h
    rw [exec_lineFrameTaken, State.takeFrame_of_kept hpresent hcuts, hjudge, State.takeJudged]
    exact congrArg (fun u => Host.Outcome.next (State.pump u)) (s.modLine_eq p _)
  · obtain ⟨v, hv⟩ : ∃ v, v = withMains s p (crossedMains (s.mains p) last t) t := ⟨_, rfl⟩
    have huv : u = withLine v p { s.line p with waiting := [] } := by rw [hu, hv]; rfl
    have hline : v.line p = s.line p := by rw [hv]; rfl
    have hlineu : u.line p = { s.line p with waiting := [] } := by rw [huv, withLine_line]
    have hexec : exec (.zeroCrossing p t) s = .next (v.deliver p).pump := by rw [State.exec_crossing hcross, hv]
    have hinSlot : ∀ {ol : OnLine} {x : RxFrame}, Awaited u p ol x → (v.line p).inSlot = true := fun {ol x} h => by
      obtain ⟨-, -, -, -, -, -, hseg, -⟩ := h
      rw [hlineu] at hseg
      rw [← Bool.not_eq_false, Line.inSlot_eq_false, hline]
      exact fun h => by cases h.symm.trans hseg
    refine ⟨fun stats hw hno htaken => ?_, fun ol hw ha hparams hstaged => ?_, fun ol f' hw ha ha' => ?_⟩
    · obtain ⟨stats', hcounted⟩ := State.takeFrame_counted hno
      rw [exec_lineFrameTaken, hcounted] at htaken
      have hsame : ({ u.line p with stats := stats' } : Line) = { s.line p with waiting := [], stats := stats } :=
        withLine_injective (Host.Outcome.next.inj htaken)
      have hfirst : v.takeWaiting p = withMains (withLine s p { s.line p with waiting := [], stats := stats }) p
          (crossedMains (s.mains p) last t) t := by
        rw [State.takeWaiting_one (f := f) (by rw [hline, hw]), hline, ← huv, hcounted, hsame, hu]
        exact withMains_withLine_twice s p _ t _ _
      have hcross' : CrossingAt (withLine s p { s.line p with waiting := [], stats := stats }) p last t := hcross
      have hwaiting : ((withMains (withLine s p { s.line p with waiting := [], stats := stats }) p
          (crossedMains (s.mains p) last t) t).line p).waiting = [] := by
        rw [withMains_line, withLine_line]
      have hslot : ((withMains (withLine s p { s.line p with waiting := [], stats := stats }) p
          (crossedMains (s.mains p) last t) t).line p).inSlot = (v.line p).inSlot := by
        rw [withMains_line, withLine_line, hline]
        rfl
      have hsecond := State.exec_crossing hcross'
      have hmains : (withLine s p { s.line p with waiting := [], stats := stats }).mains p = s.mains p := rfl
      rw [hmains] at hsecond
      rw [hexec, hsecond, State.deliver, State.deliver, State.takeWaiting_none hwaiting, hfirst, hslot]
    · have hfirst : v.takeWaiting p = u.takeFrame p f := by
        rw [State.takeWaiting_one (f := f) (by rw [hline, hw]), hline, ← huv]
      have hans := State.takeFrame_answered ha
      have hmains : (u.takeFrame p f).mains p = u.mains p := by
        rw [State.mains, (u.takeFrame_acts p f).outside.mtb]
        rfl
      have hguard : u.params.guard ≠ 0 := by
        rw [hu]
        exact Nat.one_le_iff_ne_zero.mp hparams.1.1
      rw [← hmains] at hans
      have hrest := State.takeMove_answered hans hguard (by rw [hlineu]; exact hstaged)
      rw [hexec, exec_lineFrameTaken, State.deliver, hfirst, if_pos (hinSlot ha), hrest]
    · obtain ⟨n, x, y, hxy, hfirst⟩ := State.takeWaiting_two (s := v) (p := p) (f := f) (f' := f') (by rw [hline, hw])
      rw [hline, ← huv] at hfirst
      have hawaited : ∀ z, z = f ∨ z = f' → Awaited { u with picks := n } p ol z := fun z hz => by
        rcases hz with rfl | rfl
        · exact ha
        · exact ha'
      have hx : x = f ∨ x = f' := hxy.imp And.left And.left
      have hy : y = f ∨ y = f' := by tauto
      obtain ⟨hseg, hstats⟩ := State.takeFrame_second (hawaited x hx) (hawaited y hy)
      have hfinal := State.takeMove_stats hseg
      rw [hstats] at hfinal
      have hlinen : ({ u with picks := n } : State).line p = { s.line p with waiting := [] } := hlineu
      rw [hlinen] at hfinal
      refine ⟨_, hexec, ?_⟩
      rw [State.line_pump, State.deliver, hfirst, if_pos (hinSlot ha), hfinal]
      exact ⟨rfl, rfl, hx.imp (fun h => by rw [h]) fun h => by rw [h]⟩

end Sys2Proof.Machine
end

section
/-! PROOF. Members, sweeps and next steps: what the directory gives a sweep, and what an order has to do next (R29, R94, R98, R99,
R111). -/

namespace Sys2Proof.Machine

/-! ### Members (R29) -/

theorem State.isMember_iff (s : State) (g : Fin 16) (p : Phase) (i : Nat) : s.dir.isMember g p i = true ↔ MemberAt s g p i := by
  unfold Dir.isMember MemberAt State.house
  cases s.dir.get i with
  | none => simp
  | some h =>
    simp only [Option.some.injEq, exists_eq_left']
    exact h.isMember_iff g p

theorem State.mem_members {s : State} (hd : s.dir.Sound) (g : Fin 16) (p : Phase) (j : Nat) :
    j ∈ s.dir.members g p ↔ MemberAt s g p j := by
  rw [Dir.members, List.mem_map]
  constructor
  · rintro ⟨⟨i, h⟩, he, rfl⟩
    obtain ⟨hmem, hm⟩ := List.mem_filter.mp he
    obtain ⟨hp, hg⟩ := (h.isMember_iff g p).mp hm
    exact ⟨h, hd.get_eq_some_iff.mpr hmem, hp, hg⟩
  · rintro ⟨h, hi, hp, hg⟩
    exact ⟨(j, h), List.mem_filter.mpr ⟨hd.get_eq_some_iff.mp hi, (h.isMember_iff g p).mpr ⟨hp, hg⟩⟩, rfl⟩

theorem membersOn_eq (s : State) (g : Fin 16) (p : Phase) : membersOn s g p = (s.dir.members g p).length := by
  rw [membersOn, Dir.members, List.length_map, List.countP_eq_length_filter]
  refine congrArg List.length (List.filter_congr fun e _ => ?_)
  rw [Bool.eq_iff_iff, House.isMember_iff, Bool.and_eq_true, decide_eq_true_iff]

/-! ### The cursor (R98 to R100) -/

/-- What a first member that is looked for stands for as a cursor. -/
def cursorOf : Option Nat → Cursor
  | some j => .at j
  | none => .atEnd

theorem Dir.cursorBeyond_eq (d : Dir) (g : Fin 16) (p : Phase) (dirn : Direction) (i : Nat) :
    d.cursorBeyond g p dirn i = cursorOf (d.firstBeyond g p dirn i) := by
  unfold Dir.cursorBeyond cursorOf
  split <;> simp_all

/-- The first member beyond an index is a member there, and no member lies between; there may be none. -/
theorem State.cursorBeyond_spec {s : State} (hd : s.dir.Sound) (g : Fin 16) (p : Phase) (dirn : Direction) (i : Nat) :
    CursorBeyond s g p dirn i (s.dir.cursorBeyond g p dirn i) := by
  have hmem := fun j => State.mem_members hd g p j
  rw [Dir.cursorBeyond_eq]
  cases dirn with
  | ascending =>
    show CursorBeyond s g p .ascending i (cursorOf (((s.dir.members g p).filter fun j => decide (i < j)).min?))
    cases hmin : ((s.dir.members g p).filter fun j => decide (i < j)).min? with
    | none =>
      rw [List.min?_eq_none_iff, List.filter_eq_nil_iff] at hmin
      exact fun k hk hb => hmin k ((hmem k).mpr hk) (decide_eq_true (p := i < k) hb)
    | some j =>
      obtain ⟨hj, hleast⟩ := List.min?_eq_some_iff.mp hmin
      obtain ⟨hjm, hji⟩ := List.mem_filter.mp hj
      refine ⟨(hmem j).mp hjm, of_decide_eq_true (p := i < j) hji, fun k hk hb => ?_⟩
      exact (Nat.eq_or_lt_of_le (hleast k (List.mem_filter.mpr ⟨(hmem k).mpr hk, decide_eq_true (p := i < k) hb⟩))).imp Eq.symm id
  | descending =>
    show CursorBeyond s g p .descending i (cursorOf (((s.dir.members g p).filter fun j => decide (j < i)).max?))
    cases hmax : ((s.dir.members g p).filter fun j => decide (j < i)).max? with
    | none =>
      rw [List.max?_eq_none_iff, List.filter_eq_nil_iff] at hmax
      exact fun k hk hb => hmax k ((hmem k).mpr hk) (decide_eq_true (p := k < i) hb)
    | some j =>
      obtain ⟨hj, hmost⟩ := List.max?_eq_some_iff.mp hmax
      obtain ⟨hjm, hji⟩ := List.mem_filter.mp hj
      refine ⟨(hmem j).mp hjm, of_decide_eq_true (p := j < i) hji, fun k hk hb => ?_⟩
      exact Nat.eq_or_lt_of_le (hmost k (List.mem_filter.mpr ⟨(hmem k).mpr hk, decide_eq_true (p := k < i) hb⟩))

theorem Beyond.irrefl {dirn : Direction} {i j : Nat} (h : Beyond dirn i j) : ¬Beyond dirn j i := by
  cases dirn <;> exact fun h' => Nat.lt_asymm h h'

theorem CursorBeyond.unique {s : State} {g : Fin 16} {p : Phase} {dirn : Direction} {i : Nat} {c c' : Cursor}
    (h : CursorBeyond s g p dirn i c) (h' : CursorBeyond s g p dirn i c') : c = c' := by
  cases c with
  | atEnd =>
    cases c' with
    | atEnd => rfl
    | _ j => exact absurd h'.2.1 (h j h'.1)
  | _ j =>
    cases c' with
    | atEnd => exact absurd h.2.1 (h' j h.1)
    | _ k =>
      obtain ⟨hj, hji, hfirst⟩ := h
      obtain ⟨hk, hki, hfirst'⟩ := h'
      rcases hfirst k hk hki with rfl | hjk
      · rfl
      · rcases hfirst' j hj hji with rfl | hkj
        · rfl
        · exact absurd hkj hjk.irrefl

theorem State.cursorBeyond_iff {s : State} (hd : s.dir.Sound) {g : Fin 16} {p : Phase} {dirn : Direction} {i : Nat} {c : Cursor} :
    CursorBeyond s g p dirn i c ↔ s.dir.cursorBeyond g p dirn i = c :=
  ⟨fun h => (s.cursorBeyond_spec hd g p dirn i).unique h, fun h => h ▸ s.cursorBeyond_spec hd g p dirn i⟩

/-! ### The next step (R94, R99, R111) -/

theorem OrderBody.group_eq_none {b : OrderBody} : b.group = none ↔ ∃ i, b = .query i := by
  cases b <;> simp [OrderBody.group]

theorem nextStep_group {d : Dir} {p : Phase} {o : Order} {pp : Progress} {g : Fin 16} (ha : pp.stage.active = true)
    (hg : o.body.group = some g) :
    nextStep d p o pp
      = if pp.repeatsSent < o.repeatCount then some (.slot (.repeatNo (pp.repeatsSent + 1)))
        else if o.policy = .none then none
        else sweepStep d p g o.direction pp := by
  unfold nextStep
  rw [if_pos ha]
  cases hb : o.body <;> rw [hb] at hg <;> cases hg <;> rfl

theorem nextStep_query {d : Dir} {p : Phase} {o : Order} {pp : Progress} {t : Nat} (ha : pp.stage.active = true)
    (hb : o.body = .query t) : nextStep d p o pp = queryStep d p t pp := by
  unfold nextStep
  rw [if_pos ha, hb]

/-- The next step of a sweep whose cursor stands at an index. -/
theorem sweepStep_at {d : Dir} {p : Phase} {g : Fin 16} {dirn : Direction} {pp : Progress} {i : Nat} (hc : pp.cursor = .at i) :
    sweepStep d p g dirn pp
      = if d.isMember g p i then some (.slot (.attempt i (pp.attempts + 1)))
        else match d.cursorBeyond g p dirn i with
          | .at j => some (.slot (.attempt j 1))
          | .atEnd => some .close := by
  unfold sweepStep
  rw [hc]
  dsimp only
  split
  · rfl
  · rw [Dir.cursorBeyond_eq]
    cases d.firstBeyond g p dirn i <;> rfl

/-- The next step of a query whose visit has not ended. -/
theorem queryStep_at {s : State} {p : Phase} {t : Nat} {pp : Progress} (hc : pp.cursor ≠ .atEnd) :
    queryStep s.dir p t pp = match s.house t with
      | some h => if h.phase = p then some (.slot (.query t (pp.attempts + 1))) else some .vacant
      | none => some .vacant := by
  unfold queryStep
  cases hcur : pp.cursor with
  | atEnd => exact absurd hcur hc
  | _ i => rfl

theorem HasStep.nextStep_eq {s : State} (hd : s.dir.Sound) {p : Phase} {o : Order} {pp : Progress} {st : NextStep}
    (ha : pp.stage.active = true) (h : HasStep s p o pp st) : nextStep s.dir p o pp = some st := by
  match st, h with
  | .slot (.repeatNo n), ⟨hg, hlt, hn⟩ =>
    obtain ⟨g, hg⟩ := Option.ne_none_iff_exists'.mp hg
    rw [nextStep_group ha hg, if_pos hlt, hn]
  | .slot (.attempt i n), ⟨g, c, ⟨hg, hle, hpol, hcur⟩, hwhere⟩ =>
    have hpolicy : ¬o.policy = .none := by rw [hpol]; decide
    rw [nextStep_group ha hg, if_neg (Nat.not_lt.mpr hle), if_neg hpolicy, sweepStep_at hcur]
    rcases hwhere with ⟨hm, rfl, rfl⟩ | ⟨hm, hb, rfl⟩
    · rw [if_pos ((s.isMember_iff g p _).mpr hm)]
    · rw [if_neg fun h => hm ((s.isMember_iff g p _).mp h), (State.cursorBeyond_iff hd).mp hb]
  | .slot (.query i n), ⟨hb, hcur, ⟨h, hi, hp⟩, hn⟩ =>
    rw [nextStep_query ha hb, queryStep_at hcur, hi]
    simp only [hp, if_true, hn]
  | .close, ⟨g, c, ⟨hg, hle, hpol, hcur⟩, hm, hb⟩ =>
    have hpolicy : ¬o.policy = .none := by rw [hpol]; decide
    rw [nextStep_group ha hg, if_neg (Nat.not_lt.mpr hle), if_neg hpolicy, sweepStep_at hcur,
      if_neg fun h => hm ((s.isMember_iff g p _).mp h), (State.cursorBeyond_iff hd).mp hb]
  | .vacant, ⟨i, hb, hcur, hno⟩ =>
    rw [nextStep_query ha hb, queryStep_at hcur]
    cases hi : s.house i with
    | none => rfl
    | some h => exact if_neg (hno h hi)

theorem hasStep_of_nextStep {s : State} (hd : s.dir.Sound) {p : Phase} {o : Order} {pp : Progress} {st : NextStep}
    (ha : pp.stage.active = true) (h : nextStep s.dir p o pp = some st) : HasStep s p o pp st := by
  cases hg : o.body.group with
  | some g =>
    rw [nextStep_group ha hg] at h
    by_cases hlt : pp.repeatsSent < o.repeatCount
    · rw [if_pos hlt] at h
      cases h
      exact ⟨by rw [hg]; exact Option.some_ne_none g, hlt, rfl⟩
    · rw [if_neg hlt] at h
      have hpol : o.policy = .all := by
        cases hp : o.policy with
        | none => rw [if_pos hp] at h; cases h
        | all => rfl
      rw [if_neg (by rw [hpol]; decide)] at h
      cases hcur : pp.cursor with
      | atEnd => rw [sweepStep, hcur] at h; cases h
      | _ i =>
        have hsweep : SweepsAt o pp g i := ⟨hg, Nat.not_lt.mp hlt, hpol, hcur⟩
        rw [sweepStep_at hcur] at h
        by_cases hm : s.dir.isMember g p i = true
        · rw [if_pos hm] at h
          cases h
          exact ⟨g, i, hsweep, .inl ⟨(s.isMember_iff g p i).mp hm, rfl, rfl⟩⟩
        · have hno : ¬MemberAt s g p i := fun h => hm ((s.isMember_iff g p i).mpr h)
          rw [if_neg hm] at h
          have hb := s.cursorBeyond_spec hd g p o.direction i
          cases hc : s.dir.cursorBeyond g p o.direction i with
          | atEnd =>
            rw [hc] at h hb
            cases h
            exact ⟨g, i, hsweep, hno, hb⟩
          | _ j =>
            rw [hc] at h hb
            cases h
            exact ⟨g, i, hsweep, .inr ⟨hno, hb, rfl⟩⟩
  | none =>
    obtain ⟨t, hb⟩ := OrderBody.group_eq_none.mp hg
    rw [nextStep_query ha hb] at h
    by_cases hcur : pp.cursor = .atEnd
    · rw [queryStep, hcur] at h
      cases h
    · rw [queryStep_at hcur] at h
      cases hi : s.house t with
      | none =>
        rw [hi] at h
        cases h
        exact ⟨t, hb, hcur, fun h hh => by cases hi.symm.trans hh⟩
      | some x =>
        rw [hi] at h
        dsimp only at h
        by_cases hp : x.phase = p
        · rw [if_pos hp] at h
          cases h
          exact ⟨hb, hcur, ⟨x, hi, hp⟩, rfl⟩
        · rw [if_neg hp] at h
          cases h
          exact ⟨t, hb, hcur, fun h hh => by cases hi.symm.trans hh; exact hp⟩

theorem hasStep_iff {s : State} (hd : s.dir.Sound) {p : Phase} {o : Order} {pp : Progress} {st : NextStep}
    (ha : pp.stage.active = true) : HasStep s p o pp st ↔ nextStep s.dir p o pp = some st :=
  ⟨HasStep.nextStep_eq hd ha, hasStep_of_nextStep hd ha⟩

end Sys2Proof.Machine
end

section
/-! PROOF. Selection and settling: what selection names is the first order by priority, service and admission, and the steps that need no
slot are settled on the way (R73, R74, R76, R99, R112). -/

namespace Sys2Proof.Machine

/-! ### Eligibility and candidates (R26, R74) -/

theorem Stage.active_iff (x : Stage) : x.active = true ↔ x = .queued ∨ x = .serving ∨ x = .paused := by
  cases x <;> simp [Stage.active]

theorem State.eligible_iff (s : State) (p : Phase) (o : Order) : s.eligible p o = true ↔ EligibleOn s p o := by
  have heff : (match o.effective with
      | none => true
      | some e => decide (e ≤ s.now + s.params.lead)) = true ↔ ∀ e ∈ o.effective, e ≤ s.now + s.params.lead := by
    cases o.effective <;> simp
  unfold State.eligible EligibleOn
  rw [Bool.and_eq_true, Bool.and_eq_true, Bool.and_eq_true, OrderState.live_iff, Stage.active_iff, decide_eq_true_iff, and_assoc,
    and_assoc]
  exact and_congr_right fun _ => and_congr_right fun _ => and_congr_right fun _ => heff

/-- An order is a candidate with its next step: it is eligible and has that step. -/
def CandidateOn (s : State) (p : Phase) (o : Order) (st : NextStep) : Prop :=
  EligibleOn s p o ∧ HasStep s p o (o.progress.get p) st

theorem EligibleOn.active {s : State} {p : Phase} {o : Order} (h : EligibleOn s p o) : (o.progress.get p).stage.active = true :=
  (Stage.active_iff _).mpr h.2.1

theorem State.mem_candidates_iff {s : State} (hd : s.dir.Sound) {p : Phase} {o : Order} {st : NextStep} :
    (o, st) ∈ s.candidates p none ↔ o ∈ s.orm.table ∧ CandidateOn s p o st := by
  constructor
  · intro h
    obtain ⟨ho, hel, hst⟩ := State.mem_candidates h
    have hel := (s.eligible_iff p o).mp hel
    exact ⟨ho, hel, hasStep_of_nextStep hd hel.active hst⟩
  · rintro ⟨ho, hel, hst⟩
    refine List.mem_filterMap.mpr ⟨o, ho, ?_⟩
    have hnext : nextStep s.dir p o (s.progressFor p none o) = some st := hst.nextStep_eq hd hel.active
    rw [if_pos ((s.eligible_iff p o).mpr hel), hnext]
    rfl

/-! ### The best candidate (R74) -/

theorem Order.servesOn_iff (o : Order) (p : Phase) : o.servesOn p = true ↔ (o.progress.get p).stage = .serving := decide_eq_true_iff

theorem Order.beats_iff (x y : Order) (p : Phase) : x.beats y p = true ↔ Before p x y := by
  unfold Order.beats Before
  rw [Bool.or_eq_true, Bool.and_eq_true, Bool.or_eq_true, Bool.and_eq_true, Bool.not_eq_true', Bool.eq_false_iff, ne_eq,
    Order.servesOn_iff, Order.servesOn_iff, decide_eq_true_iff, decide_eq_true_iff, seqOlder, decide_eq_true_iff]

/-- At most one record has the service of the phase. -/
def OneServes (s : State) (p : Phase) : Prop :=
  ∀ x ∈ s.orm.table, ∀ y ∈ s.orm.table, x.servesOn p = true → y.servesOn p = true → x.tag = y.tag

theorem Orm.Distinct.oneServes {s : State} (h : s.orm.Distinct) (p : Phase) : OneServes s p := by
  intro x hx y hy hxs hys
  by_contra hne
  have hxy : x ≠ y := fun he => hne (congrArg Order.tag he)
  obtain ⟨-, -, hserve⟩ := h.apart hx hy hxy
  exact eachPhase_iff.mp hserve p ⟨hxs, hys⟩

/-- Of two orders of which not both have the service, at most one is before the other. -/
theorem Before.asymm {p : Phase} {x y : Order} (h : Before p x y) (hone : ¬(x.servesOn p = true ∧ y.servesOn p = true)) :
    ¬Before p y x := by
  rw [Order.servesOn_iff, Order.servesOn_iff] at hone
  intro h'
  rcases h with h | ⟨hp, h⟩
  · rcases h' with h' | ⟨hp', -⟩
    · omega
    · omega
  · rcases h' with h' | ⟨-, h'⟩
    · omega
    · rcases h with hx | ⟨hy, h1, h2⟩
      · rcases h' with hy | ⟨hx', -⟩
        · exact hone ⟨hx, hy⟩
        · exact hx' hx
      · rcases h' with hy' | ⟨-, h1', h2'⟩
        · exact hy hy'
        · bv_omega

theorem bestCandidate_none {p : Phase} {l : List (Order × NextStep)} (h : bestCandidate p l = none) : l = [] := by
  cases l with
  | nil => rfl
  | cons c l =>
    unfold bestCandidate at h
    split at h
    · cases h
    · split at h <;> cases h

/-- A candidate that is before every other is the best. -/
theorem bestCandidate_eq {p : Phase} {l : List (Order × NextStep)} {c : Order × NextStep} (hc : c ∈ l)
    (hone : ∀ y ∈ l, y.1.tag = c.1.tag → y = c) (hbest : ∀ y ∈ l, y.1.tag ≠ c.1.tag → Before p c.1 y.1)
    (hlast : ∀ y ∈ l, y.1.tag ≠ c.1.tag → ¬Before p y.1 c.1) : bestCandidate p l = some c := by
  induction l with
  | nil => cases hc
  | cons x l ih =>
    have hrest : c ∈ l → bestCandidate p l = some c := fun h =>
      ih h (fun y hy => hone y (List.mem_cons_of_mem _ hy)) (fun y hy => hbest y (List.mem_cons_of_mem _ hy))
        fun y hy => hlast y (List.mem_cons_of_mem _ hy)
    unfold bestCandidate
    cases hb : bestCandidate p l with
    | none =>
      have hnil := bestCandidate_none hb
      rw [hnil, List.mem_singleton] at hc
      rw [hc]
    | some d =>
      dsimp only
      by_cases hx : x.1.tag = c.1.tag
      · have hxc := hone x List.mem_cons_self hx
        by_cases hbeats : d.1.beats x.1 p = true
        · have hd : d ∈ x :: l := List.mem_cons_of_mem _ (bestCandidate_mem hb)
          rw [if_pos hbeats]
          by_cases hdt : d.1.tag = c.1.tag
          · rw [hone d hd hdt]
          · exact absurd (hxc ▸ (d.1.beats_iff x.1 p).mp hbeats) (hlast d hd hdt)
        · rw [if_neg hbeats, hxc]
      · have hcl : c ∈ l := (List.mem_cons.mp hc).resolve_left fun h => hx (h ▸ rfl)
        have hdc : d = c := Option.some.inj (hb.symm.trans (hrest hcl))
        have hbeats : d.1.beats x.1 p = true := (d.1.beats_iff x.1 p).mpr (hdc ▸ hbest x List.mem_cons_self hx)
        rw [if_pos hbeats, hdc]

/-! ### Selection (R73) -/

theorem openLine_iff (l : Line) : OpenLine l ↔ l.causes.isEmpty = true ∧ l.holdPending = false := by
  rw [Causes.isEmpty_iff_eq]
  rfl

theorem State.urgent_iff (s : State) (e : QueueEntry) (rest : List QueueEntry) : s.urgent (e :: rest) = true ↔ UrgentHead s e rest := by
  show (decide (4 ≤ rest.length + 1) || decide (s.params.refreshPeriod / 2 ≤ s.now - e.queuedAt)) = true ↔ _
  rw [Bool.or_eq_true, decide_eq_true_iff, decide_eq_true_iff]
  rfl

/-- What selection names on an open line. -/
theorem State.select_of_open {s : State} {p : Phase} (h : OpenLine (s.line p)) :
    s.select p none = match s.urgent (s.queue p), s.queue p, bestCandidate p (s.candidates p none) with
      | true, e :: _, _ => .refresh e.group
      | _, _, some (o, st) => .order o.tag st
      | _, e :: _, none => .refresh e.group
      | _, [], none => .nothing := by
  obtain ⟨hcauses, hhold⟩ := (openLine_iff _).mp h
  have hopen : ¬(!(s.line p).causes.isEmpty || (s.line p).holdPending) = true := by
    rw [hcauses, hhold]
    decide
  exact if_neg hopen

theorem State.select_of_closed {s : State} {p : Phase} (h : ¬OpenLine (s.line p)) : s.select p none = .nothing := by
  refine s.select_blocked p none ?_
  rw [openLine_iff, not_and_or, Bool.not_eq_true, Bool.not_eq_false] at h
  exact h

/-- What selection names is what R73 and R74 say. -/
theorem State.select_names {s : State} {p : Phase} (htags : s.orm.TagsDistinct) (hone : OneServes s p) (hd : s.dir.Sound)
    {named : Choice → Prop} (h : named (s.select p none)) :
    SelectionNames s p (CandidateOn s p) (s.queue p) named := by
  have hnone : (∀ o ∈ s.orm.table, ∀ st, ¬CandidateOn s p o st) → bestCandidate p (s.candidates p none) = none := fun hno => by
    have hempty : s.candidates p none = [] := List.eq_nil_iff_forall_not_mem.mpr fun ⟨o, st⟩ hmem => by
      obtain ⟨ho, hcand⟩ := (State.mem_candidates_iff hd).mp hmem
      exact hno o ho st hcand
    rw [hempty]
    rfl
  refine ⟨fun hclosed => ?_, fun hopen hno hq => ?_, fun e rest hopen hq hwhy => ?_, fun o st hopen hurgent ho hcand hbest => ?_⟩
  · rwa [State.select_of_closed hclosed] at h
  · rw [State.select_of_open hopen, hnone hno, hq] at h
    exact h
  · rw [State.select_of_open hopen, hq] at h
    by_cases hu : UrgentHead s e rest
    · rw [(s.urgent_iff e rest).mpr hu] at h
      exact h
    · rw [hnone (hwhy.resolve_left hu)] at h
      split at h <;> simp_all
  · have hb : bestCandidate p (s.candidates p none) = some (o, st) := by
      have hpair : ∀ y ∈ s.candidates p none, y.1 ∈ s.orm.table ∧ CandidateOn s p y.1 y.2 := fun y hy =>
        (State.mem_candidates_iff hd).mp hy
      refine bestCandidate_eq ((State.mem_candidates_iff hd).mpr ⟨ho, hcand⟩) (fun y hy hyt => ?_)
        (fun y hy hyt => hbest y.1 (hpair y hy).1 hyt y.2 (hpair y hy).2) fun y hy hyt => ?_
      · obtain ⟨hym, hyc⟩ := hpair y hy
        have hyo : y.1 = o := htags.eq_of_tag hym ho hyt
        have hst : y.2 = st := by
          have h1 := hyc.2.nextStep_eq hd hyc.1.active
          have h2 := hcand.2.nextStep_eq hd hcand.1.active
          rw [hyo] at h1
          exact Option.some.inj (h1.symm.trans h2)
        exact Prod.ext hyo hst
      · exact (hbest y.1 (hpair y hy).1 hyt y.2 (hpair y hy).2).asymm fun hs =>
          hyt (hone o ho y.1 (hpair y hy).1 hs.1 hs.2).symm
    rw [State.select_of_open hopen, hb] at h
    cases hq : s.queue p with
    | nil =>
      rw [hq] at h
      exact h
    | cons e rest =>
      have hu : s.urgent (e :: rest) = false := by
        rw [← Bool.not_eq_true, s.urgent_iff]
        exact hurgent e rest hq
      rw [hq, hu] at h
      exact h

end Sys2Proof.Machine
end

section
/-! PROOF. Service, outcomes and settling as changes of one record, and what selection names once the steps that need no slot are
settled (R74, R76, R98, R99, R106, R112). -/

namespace Sys2Proof.Machine

/-! ### The first member of a sweep (R98) -/

/-- The first member at or beyond an index. -/
theorem State.firstFrom_spec {s : State} (hd : s.dir.Sound) (g : Fin 16) (p : Phase) (dirn : Direction) (i : Nat) :
    CursorFrom s g p dirn i (cursorOf (s.dir.firstFrom g p dirn i)) := by
  have hmem := fun j => State.mem_members hd g p j
  cases dirn with
  | ascending =>
    show CursorFrom s g p .ascending i (cursorOf (((s.dir.members g p).filter fun j => decide (i ≤ j)).min?))
    cases hmin : ((s.dir.members g p).filter fun j => decide (i ≤ j)).min? with
    | none =>
      rw [List.min?_eq_none_iff, List.filter_eq_nil_iff] at hmin
      exact fun k hk => Nat.lt_of_not_le fun hle => hmin k ((hmem k).mpr hk) (decide_eq_true hle)
    | some j =>
      obtain ⟨hj, hleast⟩ := List.min?_eq_some_iff.mp hmin
      obtain ⟨hjm, hji⟩ := List.mem_filter.mp hj
      refine ⟨(hmem j).mp hjm, Nat.not_lt.mpr (of_decide_eq_true hji), fun k hk hb => ?_⟩
      have hik : i ≤ k := Nat.not_lt.mp hb
      exact (Nat.eq_or_lt_of_le (hleast k (List.mem_filter.mpr ⟨(hmem k).mpr hk, decide_eq_true hik⟩))).imp Eq.symm id
  | descending =>
    show CursorFrom s g p .descending i (cursorOf (((s.dir.members g p).filter fun j => decide (j ≤ i)).max?))
    cases hmax : ((s.dir.members g p).filter fun j => decide (j ≤ i)).max? with
    | none =>
      rw [List.max?_eq_none_iff, List.filter_eq_nil_iff] at hmax
      exact fun k hk => Nat.lt_of_not_le fun hle => hmax k ((hmem k).mpr hk) (decide_eq_true hle)
    | some j =>
      obtain ⟨hj, hmost⟩ := List.max?_eq_some_iff.mp hmax
      obtain ⟨hjm, hji⟩ := List.mem_filter.mp hj
      refine ⟨(hmem j).mp hjm, Nat.not_lt.mpr (of_decide_eq_true hji), fun k hk hb => ?_⟩
      have hki : k ≤ i := Nat.not_lt.mp hb
      exact Nat.eq_or_lt_of_le (hmost k (List.mem_filter.mpr ⟨(hmem k).mpr hk, decide_eq_true hki⟩))

theorem CursorFrom.unique {s : State} {g : Fin 16} {p : Phase} {dirn : Direction} {i : Nat} {c c' : Cursor}
    (h : CursorFrom s g p dirn i c) (h' : CursorFrom s g p dirn i c') : c = c' := by
  cases c with
  | atEnd =>
    cases c' with
    | atEnd => rfl
    | _ j => exact absurd (h j h'.1) h'.2.1
  | _ j =>
    cases c' with
    | atEnd => exact absurd (h' j h.1) h.2.1
    | _ k =>
      obtain ⟨hj, hji, hfirst⟩ := h
      obtain ⟨hk, hki, hfirst'⟩ := h'
      rcases hfirst k hk hki with rfl | hjk
      · rfl
      · rcases hfirst' j hj hji with rfl | hkj
        · rfl
        · exact absurd hkj hjk.irrefl

/-- The index itself is the first member, where it is one. -/
theorem CursorFrom.of_member {s : State} {g : Fin 16} {p : Phase} {dirn : Direction} {i : Nat} (h : MemberAt s g p i) :
    CursorFrom s g p dirn i (.at i) := by
  refine ⟨h, ?_, fun k _ hk => ?_⟩
  · cases dirn <;> exact Nat.lt_irrefl i
  · cases dirn
    · exact (Nat.eq_or_lt_of_le (Nat.not_lt.mp hk)).imp Eq.symm id
    · exact Nat.eq_or_lt_of_le (Nat.not_lt.mp hk)

/-- Otherwise the first member lies beyond the index. -/
theorem CursorBeyond.from {s : State} {g : Fin 16} {p : Phase} {dirn : Direction} {i : Nat} {c : Cursor}
    (hno : ¬MemberAt s g p i) (h : CursorBeyond s g p dirn i c) : CursorFrom s g p dirn i c := by
  have hside : ∀ k, MemberAt s g p k → ¬Beyond dirn k i → Beyond dirn i k := fun k hk hb => by
    have hne : k ≠ i := fun he => hno (he ▸ hk)
    cases dirn
    · exact Nat.lt_of_le_of_ne (Nat.not_lt.mp hb) hne.symm
    · exact Nat.lt_of_le_of_ne (Nat.not_lt.mp hb) hne
  cases c with
  | atEnd =>
    intro k hk
    by_contra hb
    exact h k hk (hside k hk hb)
  | _ j =>
    obtain ⟨hj, hji, hfirst⟩ := h
    exact ⟨hj, hji.irrefl, fun k hk hb => hfirst k hk (hside k hk hb)⟩

/-- A sweep that begins: expected, and the first cursor. -/
theorem Progress.beginSweep_eq {s : State} (hd : s.dir.Sound) {p : Phase} {g : Fin 16} {dirn : Direction} {pp : Progress} {i : Nat}
    {c : Cursor} (hcur : pp.cursor = .at i) (hc : CursorFrom s g p dirn i c) :
    pp.beginSweep s.dir p g dirn = { pp with expected := membersOn s g p, cursor := c, attempts := 0 } := by
  rw [← (s.firstFrom_spec hd g p dirn i).unique hc, membersOn_eq]
  unfold Progress.beginSweep
  rw [hcur]
  dsimp only
  cases s.dir.firstFrom g p dirn i <;> rfl

/-! ### Service (R76) -/

theorem Dir.onPhase_iff (s : State) (p : Phase) (i : Nat) : s.dir.onPhase p i = true ↔ (s.house i).map House.phase = some p := by
  unfold Dir.onPhase State.house
  cases s.dir.get i <;> simp

theorem pauseOn_eq (o : Order) (p : Phase) : o.pauseOn p = setAside p o := by
  unfold Order.pauseOn setAside
  by_cases h : (o.progress.get p).stage = .serving
  · rw [if_pos ((o.servesOn_iff p).mpr h), if_pos h]
    rfl
  · rw [if_neg fun hs => h ((o.servesOn_iff p).mp hs), if_neg h]

theorem setAside_tag (o : Order) (p : Phase) : (setAside p o).tag = o.tag := by rw [← pauseOn_eq, Order.pauseOn_tag]

theorem servedFor_tag (s : State) (p : Phase) (next : NextStep) (o : Order) : (servedFor s p next o).tag = o.tag := by
  unfold servedFor
  dsimp only
  split <;> rfl

/-- The progress with which an order's first selection on a phase for a step begins (R98, R111). -/
def begunFor (s : State) (p : Phase) (next : NextStep) (o : Order) : Progress :=
  match o.body, next with
  | .query i, _ => { o.progress.get p with expected := if (s.house i).map House.phase = some p then 1 else 0 }
  | .band g _, .slot (.attempt i _) | .relay g _ _, .slot (.attempt i _) =>
    if o.repeatCount = 0 then { o.progress.get p with expected := membersOn s g p, cursor := .at i, attempts := 0 }
    else o.progress.get p
  | .band g _, .close | .relay g _ _, .close =>
    if o.repeatCount = 0 then { o.progress.get p with expected := membersOn s g p, cursor := .atEnd, attempts := 0 }
    else o.progress.get p
  | _, _ => o.progress.get p

theorem servedFor_queued {s : State} {p : Phase} {o : Order} (next : NextStep) (h : (o.progress.get p).stage = .queued) :
    servedFor s p next o = { withProgress o p { begunFor s p next o with stage := .serving } with
      state := if o.state = .waiting then .running else o.state } := if_pos h

theorem servedFor_other {s : State} {p : Phase} {o : Order} (next : NextStep) (h : (o.progress.get p).stage ≠ .queued) :
    servedFor s p next o = withProgress o p { o.progress.get p with stage := .serving } := if_neg h

/-- The sweep of a selected order begins at the step's member, or at its close. -/
theorem sweep_begun {s : State} (hd : s.dir.Sound) {p : Phase} {o : Order} {g : Fin 16} (hg : o.body.group = some g)
    {next : NextStep} {c : Cursor} (hst : HasStep s p o (o.progress.get p) next)
    (hnext : (∃ i n, next = .slot (.attempt i n) ∧ c = .at i) ∨ (next = .close ∧ c = .atEnd)) :
    (o.progress.get p).beginSweep s.dir p g o.direction
      = { o.progress.get p with expected := membersOn s g p, cursor := c, attempts := 0 } := by
  rcases hnext with ⟨i, n, rfl, rfl⟩ | ⟨rfl, rfl⟩
  · obtain ⟨g', k, ⟨hg', -, -, hcur⟩, hwhere⟩ := hst
    cases hg.symm.trans hg'
    rcases hwhere with ⟨hm, rfl, -⟩ | ⟨hno, hb, -⟩
    · exact Progress.beginSweep_eq hd hcur (.of_member hm)
    · exact Progress.beginSweep_eq hd hcur (hb.from hno)
  · obtain ⟨g', k, ⟨hg', -, -, hcur⟩, hno, hb⟩ := hst
    cases hg.symm.trans hg'
    exact Progress.beginSweep_eq hd hcur (hb.from hno)

theorem firstSelected_eq {s : State} (hd : s.dir.Sound) {p : Phase} {o : Order} {next : NextStep}
    (hst : HasStep s p o (o.progress.get p) next) : o.firstSelected s.dir p (o.progress.get p) = begunFor s p next o := by
  have hrepeat : ∀ n, next = .slot (.repeatNo n) → o.repeatCount ≠ 0 := by
    rintro n rfl h
    obtain ⟨-, hlt, -⟩ := hst
    omega
  have hgroup : ∀ g, o.body.group = some g → o.firstSelected s.dir p (o.progress.get p)
      = (if o.repeatCount = 0 then (o.progress.get p).beginSweep s.dir p g o.direction else o.progress.get p) →
      (∀ i, o.body ≠ .query i) → (∀ i n, next = .slot (.attempt i n) → begunFor s p next o
        = if o.repeatCount = 0 then { o.progress.get p with expected := membersOn s g p, cursor := .at i, attempts := 0 }
          else o.progress.get p) →
      (next = .close → begunFor s p next o
        = if o.repeatCount = 0 then { o.progress.get p with expected := membersOn s g p, cursor := .atEnd, attempts := 0 }
          else o.progress.get p) →
      (∀ n, next = .slot (.repeatNo n) → begunFor s p next o = o.progress.get p) →
      o.firstSelected s.dir p (o.progress.get p) = begunFor s p next o := by
    intro g hg hfirst hquery hattempt hclose hno
    rw [hfirst]
    match next, hst, hrepeat, hattempt, hclose, hno with
    | .slot (.repeatNo n), _, hrepeat, _, _, hno => rw [hno n rfl, if_neg (hrepeat n rfl)]
    | .slot (.attempt i n), hst, _, hattempt, _, _ => rw [hattempt i n rfl, sweep_begun hd hg hst (.inl ⟨i, n, rfl, rfl⟩)]
    | .slot (.query i n), hst, _, _, _, _ => exact absurd hst.1 (hquery i)
    | .close, hst, _, _, hclose, _ => rw [hclose rfl, sweep_begun hd hg hst (.inr ⟨rfl, rfl⟩)]
    | .vacant, ⟨i, hb, _⟩, _, _, _, _ => exact absurd hb (hquery i)
  cases hb : o.body with
  | query t =>
    have hon := Dir.onPhase_iff s p t
    have hexpected : (if s.dir.onPhase p t = true then 1 else 0) = if (s.house t).map House.phase = some p then 1 else 0 := by
      simp only [hon]
    unfold Order.firstSelected begunFor
    rw [hb]
    exact congrArg (fun n => { o.progress.get p with expected := n }) hexpected
  | band g b =>
    refine hgroup g (by rw [hb]; rfl) (by unfold Order.firstSelected; rw [hb]) (fun i h => by rw [hb] at h; cases h) ?_ ?_ ?_
    all_goals
      intros
      subst_vars
      unfold begunFor
      rw [hb]
  | relay g v r =>
    refine hgroup g (by rw [hb]; rfl) (by unfold Order.firstSelected; rw [hb]) (fun i h => by rw [hb] at h; cases h) ?_ ?_ ?_
    all_goals
      intros
      subst_vars
      unfold begunFor
      rw [hb]

/-- The order that takes service is served for its next step. -/
theorem serve_eq {s : State} (hd : s.dir.Sound) {p : Phase} {o : Order} {next : NextStep}
    (ha : (o.progress.get p).stage.active = true) (hst : HasStep s p o (o.progress.get p) next) :
    o.serve s.dir p = servedFor s p next o := by
  rcases (Stage.active_iff _).mp ha with h | h | h
  · rw [servedFor_queued next h, ← firstSelected_eq hd hst, Order.serve, h]
    rfl
  · have hsame : o.modProgress p (fun pp => { pp with stage := .serving }) = o := Order.modProgress_self (by rw [← h])
    rw [servedFor_other next (by rw [h]; decide), Order.serve, h]
    exact hsame.symm
  · rw [servedFor_other next (by rw [h]; decide), Order.serve, h]
    rfl

theorem State.takeService_eq {s : State} (htags : s.orm.TagsDistinct) (hd : s.dir.Sound) {p : Phase} {o : Order}
    (ho : o ∈ s.orm.table) {next : NextStep} (h : CandidateOn s p o next) :
    s.takeService p o.tag = withTable s (serviceTable s p o.tag next) := by
  refine congrArg (withTable s) (List.map_congr_left fun x hx => ?_)
  by_cases hxo : x.tag = o.tag
  · cases htags.eq_of_tag hx ho hxo
    rw [if_pos rfl, if_pos rfl, serve_eq hd h.1.active h.2]
  · rw [if_neg hxo, if_neg hxo, pauseOn_eq]

/-! ### Outcomes (R5, R106) -/

theorem recordMiss_eq (o : Order) (m : Miss) : o.recordMiss m = missed o m := rfl

/-- A record with an outcome tallied and its miss recorded, before the cursor moves. -/
def recordedOf (s : State) (p : Phase) (i : Nat) (r : Result) (o : Order) : Order :=
  let o1 := o.modProgress p fun pp => pp.tally r
  match r with
  | .confirmed => o1
  | .miss reason => missed o1 ⟨i, ((s.house i).map (·.address)).getD 0, p, reason⟩

theorem recordedOf_tag (s : State) (p : Phase) (i : Nat) (r : Result) (o : Order) : (recordedOf s p i r o).tag = o.tag := by
  cases r with
  | confirmed => rfl
  | miss reason => exact Order.recordMiss_tag _ _

theorem missed_fields (o : Order) (m : Miss) : (missed o m).state = o.state ∧ (missed o m).tag = o.tag
    ∧ (missed o m).progress = o.progress := by
  unfold missed
  split <;> exact ⟨rfl, rfl, rfl⟩

theorem missed_modProgress (o : Order) (m : Miss) (p : Phase) (f : Progress → Progress) :
    (missed o m).modProgress p f = missed (o.modProgress p f) m := by
  unfold missed Order.modProgress
  dsimp only
  split <;> rfl

/-- The outcome is the tally and the miss, the cursor moved on, and the finish at END. -/
theorem outcomeOf_eq (s : State) (o : Order) (p : Phase) (i : Nat) (c : Cursor) (r : Result) :
    outcomeOf s o p i c r
      = if c = .atEnd then
          finishedOn ((recordedOf s p i r o).modProgress p fun pp => { pp with cursor := c, attempts := 0 }) p s.now
        else (recordedOf s p i r o).modProgress p fun pp => { pp with cursor := c, attempts := 0 } := by
  have htwice : (o.modProgress p fun pp => pp.tally r).modProgress p (fun pp => { pp with cursor := c, attempts := 0 })
      = withProgress o p { (o.progress.get p).tally r with cursor := c, attempts := 0 } := by cases p <;> rfl
  cases r with
  | confirmed =>
    have h : (recordedOf s p i .confirmed o).modProgress p (fun pp => { pp with cursor := c, attempts := 0 })
        = withProgress o p { (o.progress.get p).tally .confirmed with cursor := c, attempts := 0 } := htwice
    rw [h]
    rfl
  | miss reason =>
    have h : (recordedOf s p i (.miss reason) o).modProgress p (fun pp => { pp with cursor := c, attempts := 0 })
        = missed (withProgress o p { (o.progress.get p).tally (.miss reason) with cursor := c, attempts := 0 })
            ⟨i, ((s.house i).map (·.address)).getD 0, p, reason⟩ := by
      rw [recordedOf, missed_modProgress, htwice]
    rw [h]
    rfl

theorem outcomeOf_tag (s : State) (o : Order) (p : Phase) (i : Nat) (c : Cursor) (r : Result) : (outcomeOf s o p i c r).tag = o.tag := by
  rw [outcomeOf_eq]
  split
  · rw [finishedOn_tag]
    exact recordedOf_tag s p i r o
  · exact recordedOf_tag s p i r o

theorem recordedOf_state (s : State) (p : Phase) (i : Nat) (r : Result) (o : Order) : (recordedOf s p i r o).state = o.state := by
  cases r with
  | confirmed => rfl
  | miss reason => exact (missed_fields _ _).1

/-- No notice of an order that stays in its state. -/
theorem endNotices_of_state {o o' : Order} (h : o'.state = o.state) : endNotices o o' = [] := if_pos h

/-- The cursor moves, and END finishes the work on the phase. -/
theorem State.moveCursorDone_of_tags {s : State} (hd : s.orm.TagsDistinct) {o : Order} (ho : o ∈ s.orm.table) (p : Phase)
    (c : Cursor) {f : Order → Order}
    (hf : f o = if c = .atEnd then finishedOn (o.modProgress p fun pp => { pp with cursor := c, attempts := 0 }) p s.now
      else o.modProgress p fun pp => { pp with cursor := c, attempts := 0 }) :
    s.moveCursorDone p o.tag c = (s.modOrder o.tag f).postAll (endNotices o (f o)) := by
  have hmove : ∀ x : Order, (x.modProgress p fun pp => { pp with cursor := c, attempts := 0 }).tag = x.tag := fun _ => rfl
  have hdist := State.modOrder_tagsDistinct hd o.tag hmove
  have hmem := State.mem_modOrder ho fun x => x.modProgress p fun pp => { pp with cursor := c, attempts := 0 }
  cases c with
  | atEnd =>
    rw [if_pos rfl] at hf
    rw [State.modOrder_congr_of hd ho (g := fun x =>
      finishedOn (x.modProgress p fun pp => { pp with cursor := .atEnd, attempts := 0 }) p s.now) hf, hf]
    refine (State.phaseDone_of_tags hdist hmem p).trans ?_
    exact congrArg (fun t => State.postAll t _) (State.modOrder_modOrder s o.tag _ _ hmove)
  | _ j =>
    rw [if_neg (by nofun)] at hf
    rw [State.modOrder_congr_of hd ho (g := fun x => x.modProgress p fun pp => { pp with cursor := .at j, attempts := 0 }) hf,
      hf]
    exact (congrArg (State.postAll _) (endNotices_of_state rfl)).symm

/-- The directory's part in an outcome: a visit without a reply raises the miss count (R33). -/
def State.afterMiss (s : State) (i : Nat) (r : Result) : State := if r = .miss .noReply then s.houseMissed i else s

theorem State.updateHouse_modOrder (s : State) (i : Nat) (f : House → House) (tag : Tag) (g : Order → Order) :
    (s.modOrder tag g).updateHouse i f = (s.updateHouse i f).modOrder tag g := by
  unfold State.updateHouse
  show (match s.dir.get i with | none => _ | some h => _) = _
  cases s.dir.get i with
  | none => rfl
  | some h =>
    dsimp only
    split <;> rfl

theorem State.afterMiss_modOrder (s : State) (i : Nat) (r : Result) (tag : Tag) (g : Order → Order) :
    (s.modOrder tag g).afterMiss i r = (s.afterMiss i r).modOrder tag g := by
  unfold State.afterMiss
  split
  · exact s.updateHouse_modOrder i _ tag g
  · rfl

theorem State.recordResult_eq (s : State) (p : Phase) (tag : Tag) (i : Nat) (r : Result) :
    s.recordResult p tag i r = (s.afterMiss i r).modOrder tag (recordedOf s p i r) := by
  cases r with
  | confirmed => rfl
  | miss reason =>
    have haddr : s.addressAt i = ((s.house i).map (·.address)).getD 0 :=
      s.addressAt_eq i
    have htwice := State.modOrder_modOrder s tag (fun o => o.modProgress p fun pp => pp.tally (.miss reason))
      (fun o => o.recordMiss ⟨i, ((s.house i).map (·.address)).getD 0, p, reason⟩) fun _ => rfl
    unfold State.recordResult
    dsimp only
    rw [haddr, ← State.afterMiss_modOrder]
    have hsame : (s.modProgress tag p fun pp => pp.tally (.miss reason)).modOrder tag
        (fun o => o.recordMiss ⟨i, ((s.house i).map (·.address)).getD 0, p, reason⟩)
          = s.modOrder tag (recordedOf s p i (.miss reason)) := htwice
    rw [hsame, State.afterMiss]
    by_cases h : reason = .noReply
    · rw [if_pos h, if_pos (congrArg Result.miss h)]
    · rw [if_neg h, if_neg fun he => h (Result.miss.inj he)]

theorem State.afterMiss_now (s : State) (i : Nat) (r : Result) : (s.afterMiss i r).now = s.now := by
  unfold State.afterMiss State.houseMissed State.updateHouse
  split
  · split
    · rfl
    · dsimp only
      split <;> rfl
  · rfl

theorem State.afterMiss_orm (s : State) (i : Nat) (r : Result) : (s.afterMiss i r).orm = s.orm := by
  unfold State.afterMiss
  split
  · exact s.updateHouse_orm i _
  · rfl

/-- An outcome of a visit: the directory's part, the change of the record, and the notice of an order that ends. -/
theorem State.outcome_eq {s : State} (hd : s.orm.TagsDistinct) {o : Order} (ho : o ∈ s.orm.table) (p : Phase) (i : Nat) (c : Cursor)
    (r : Result) :
    (s.recordResult p o.tag i r).moveCursorDone p o.tag c
      = ((s.afterMiss i r).modOrder o.tag fun x => outcomeOf s x p i c r).postAll (endNotices o (outcomeOf s o p i c r)) := by
  obtain ⟨t, ht⟩ : ∃ t, t = s.afterMiss i r := ⟨_, rfl⟩
  have horm : t.orm = s.orm := by rw [ht, State.afterMiss_orm]
  have hnow : t.now = s.now := by rw [ht, State.afterMiss_now]
  have hdist : t.orm.TagsDistinct := horm ▸ hd
  have hmem : o ∈ t.orm.table := horm ▸ ho
  have htag := recordedOf_tag s p i r
  have hmoved := State.moveCursorDone_of_tags (State.modOrder_tagsDistinct hdist o.tag htag)
    (State.mem_modOrder hmem (recordedOf s p i r)) p c (f := fun x =>
      if c = .atEnd then finishedOn (x.modProgress p fun pp => { pp with cursor := c, attempts := 0 }) p s.now
      else x.modProgress p fun pp => { pp with cursor := c, attempts := 0 }) (by rw [← hnow]; rfl)
  have htwice := State.modOrder_modOrder t o.tag (recordedOf s p i r) (fun x =>
      if c = .atEnd then finishedOn (x.modProgress p fun pp => { pp with cursor := c, attempts := 0 }) p s.now
      else x.modProgress p fun pp => { pp with cursor := c, attempts := 0 }) htag
  have hends : endNotices (recordedOf s p i r o) (outcomeOf s o p i c r) = endNotices o (outcomeOf s o p i c r) := by
    rw [endNotices, endNotices, recordedOf_state, htag]
  rw [htag] at hmoved
  rw [State.recordResult_eq, ← ht, hmoved, htwice]
  simp only [← outcomeOf_eq]
  rw [hends]

end Sys2Proof.Machine
end

section
/-! PROOF. The settlings on the way to what selection names, and that no more than one for each active order is needed (R74, R99,
R112). -/

namespace Sys2Proof.Machine

/-! ### One settling (R99, R112) -/

theorem withTable_tagsDistinct {s : State} (hd : s.orm.TagsDistinct) {f : Order → Order} (hf : ∀ o, (f o).tag = o.tag) :
    (withTable s (s.orm.table.map f)).orm.TagsDistinct := by
  refine hd.of_tags ?_
  show (s.orm.table.map f).map (·.tag) = _
  rw [List.map_map]
  exact List.map_congr_left fun o _ => hf o

theorem serviceTable_tag (s : State) (p : Phase) (tag : Tag) (next : NextStep) (x : Order) :
    (if x.tag = tag then servedFor s p next x else setAside p x).tag = x.tag := by
  split
  · exact servedFor_tag s p next x
  · exact setAside_tag x p

theorem mem_serviceTable {s : State} {p : Phase} {o : Order} (ho : o ∈ s.orm.table) (next : NextStep) :
    servedFor s p next o ∈ serviceTable s p o.tag next :=
  List.mem_map.mpr ⟨o, ho, if_pos rfl⟩

/-- A change of the named order after it has taken service. -/
theorem State.modOrder_serviceTable (s : State) (p : Phase) (o : Order) (next : NextStep) (f : Order → Order) :
    (withTable s (serviceTable s p o.tag next)).modOrder o.tag f
      = withTable s (s.orm.table.map fun x => if x.tag = o.tag then f (servedFor s p next x) else setAside p x) := by
  refine congrArg (withTable s) ?_
  show (serviceTable s p o.tag next).map _ = _
  rw [serviceTable, List.map_map]
  refine List.map_congr_left fun x _ => ?_
  rw [Function.comp_apply]
  by_cases hx : x.tag = o.tag
  · rw [if_pos hx, if_pos hx, servedFor_tag, if_pos hx]
  · rw [if_neg hx, if_neg hx, setAside_tag, if_neg hx]

/-- A settling is the change that it makes to the named order, once that has taken service, and the notice of its end. -/
theorem settledState_of {s : State} (hd : s.orm.TagsDistinct) {p : Phase} {o : Order} (ho : o ∈ s.orm.table) {next : NextStep}
    {f : Order → Order} (hf : f (servedFor s p next o) = settledOrder s p next o) :
    ((withTable s (serviceTable s p o.tag next)).modOrder o.tag f).postAll
        (endNotices (servedFor s p next o) (f (servedFor s p next o)))
      = settledState s p o next := by
  rw [State.modOrder_serviceTable, hf, settledState]
  refine congrArg (fun l => (withTable s l).postAll _) (List.map_congr_left fun x hx => ?_)
  by_cases hxo : x.tag = o.tag
  · rw [if_pos hxo, if_pos hxo, hd.eq_of_tag hx ho hxo, hf]
  · rw [if_neg hxo, if_neg hxo]

theorem missed_body (o : Order) (m : Miss) : (missed o m).body = o.body := by
  unfold missed
  split <;> rfl

theorem servedFor_body (s : State) (p : Phase) (next : NextStep) (o : Order) : (servedFor s p next o).body = o.body := by
  unfold servedFor
  dsimp only
  split <;> rfl

theorem settledOrder_group {s : State} {p : Phase} {o : Order} {g : Fin 16} (h : o.body.group = some g) (next : NextStep) :
    settledOrder s p next o
      = finishedOn ((servedFor s p next o).modProgress p fun pp => { pp with cursor := .atEnd, attempts := 0 }) p s.now := by
  unfold settledOrder
  cases hb : o.body with
  | band => rfl
  | relay => rfl
  | query => rw [hb] at h; cases h

theorem settledOrder_query {s : State} {p : Phase} {o : Order} {i : Nat} (h : o.body = .query i) (next : NextStep) :
    settledOrder s p next o = outcomeOf s (servedFor s p next o) p i .atEnd (.miss .vacant) := by
  unfold settledOrder
  rw [h]

/-- The settling of a step that needs no slot. -/
theorem State.settle_eq {s : State} (htags : s.orm.TagsDistinct) (hd : s.dir.Sound) {p : Phase} {o : Order} (ho : o ∈ s.orm.table)
    {next : NextStep} (h : CandidateOn s p o next) (hnext : next.needsSlot = false) :
    s.settle p o.tag next = settledState s p o next := by
  obtain ⟨u, hu⟩ : ∃ u, u = withTable s (serviceTable s p o.tag next) := ⟨_, rfl⟩
  have hservice : s.takeService p o.tag = u := (State.takeService_eq htags hd ho h).trans hu.symm
  have hutags : u.orm.TagsDistinct := hu ▸ withTable_tagsDistinct htags (serviceTable_tag s p o.tag next)
  have huo : servedFor s p next o ∈ u.orm.table := hu ▸ mem_serviceTable ho next
  have hnow : u.now = s.now := by rw [hu]; rfl
  have htag := servedFor_tag s p next o
  cases next with
  | slot step => cases hnext
  | close =>
    obtain ⟨g, c, hsweep, -⟩ := h.2
    have hmoved := State.moveCursorDone_of_tags hutags huo p .atEnd
      (f := fun x => finishedOn (x.modProgress p fun pp => { pp with cursor := .atEnd, attempts := 0 }) p s.now)
      (by rw [if_pos rfl, hnow])
    rw [htag] at hmoved
    unfold State.settle
    rw [hservice]
    dsimp only
    rw [hmoved, hu]
    exact settledState_of htags ho (settledOrder_group hsweep.1 _).symm
  | vacant =>
    obtain ⟨i, hb, -⟩ := h.2
    have hfind := State.findOrder_of_tags hutags huo
    rw [htag] at hfind
    have hbody : (servedFor s p .vacant o).body = .query i := (servedFor_body s p _ o).trans hb
    have hout := State.outcome_eq hutags huo p i .atEnd (.miss .vacant)
    have hsame : ∀ x, outcomeOf u x p i .atEnd (.miss .vacant) = outcomeOf s x p i .atEnd (.miss .vacant) := by
      rw [hu]
      exact fun _ => rfl
    have hafter : u.afterMiss i (.miss .vacant) = u := if_neg (by decide)
    simp only [htag, hsame, hafter] at hout
    unfold State.settle
    rw [hservice]
    dsimp only
    rw [hfind]
    dsimp only
    rw [hbody]
    dsimp only
    rw [hout, hu]
    exact settledState_of htags ho (settledOrder_query hb _).symm

/-! ### What a settling leaves -/

theorem reportedOrder_progress (o : Order) (now : Nat) : (reportedOrder o now).progress = o.progress := by
  unfold reportedOrder
  split <;> rfl

theorem finishedOn_stage {o : Order} {p : Phase} (h : (o.progress.get p).stage = .serving) (now : Nat) :
    ((finishedOn o p now).progress.get p).stage = .done := by
  rw [finishedOn_eq, if_pos (.inl h), reportedOrder_progress]
  exact congrArg Progress.stage (Tri.get_set_same _ _ _)

theorem servedFor_stage (s : State) (p : Phase) (next : NextStep) (o : Order) :
    ((servedFor s p next o).progress.get p).stage = .serving := by
  unfold servedFor
  dsimp only
  split <;> exact congrArg Progress.stage (Tri.get_set_same _ _ _)

theorem recordedOf_progress (s : State) (p : Phase) (i : Nat) (r : Result) (o : Order) :
    (recordedOf s p i r o).progress = (o.modProgress p fun pp => pp.tally r).progress := by
  cases r with
  | confirmed => rfl
  | miss reason => exact (missed_fields _ _).2.2

theorem Progress.tally_stage (pp : Progress) (r : Result) : (pp.tally r).stage = pp.stage := by
  cases r with
  | confirmed => rfl
  | miss reason => cases reason <;> rfl

theorem settledOrder_stage (s : State) (p : Phase) (next : NextStep) (o : Order) :
    ((settledOrder s p next o).progress.get p).stage = .done := by
  have hserve := servedFor_stage s p next o
  have hgroup : ∀ g, o.body.group = some g → ((settledOrder s p next o).progress.get p).stage = .done := fun g hg => by
    rw [settledOrder_group hg]
    refine finishedOn_stage ?_ _
    rw [Order.modProgress, Tri.get_set_same]
    exact hserve
  cases hb : o.body with
  | band g _ => exact hgroup g (by rw [hb]; rfl)
  | relay g _ _ => exact hgroup g (by rw [hb]; rfl)
  | query i =>
    rw [settledOrder_query hb, outcomeOf_eq, if_pos rfl]
    refine finishedOn_stage ((congrArg Progress.stage (Tri.get_set_same _ _ _)).trans ?_) _
    rw [recordedOf_progress]
    refine (congrArg Progress.stage (Tri.get_set_same _ _ _)).trans ?_
    rw [Progress.tally_stage, hserve]

theorem settledOrder_tag (s : State) (p : Phase) (next : NextStep) (o : Order) : (settledOrder s p next o).tag = o.tag := by
  have hgroup : ∀ g, o.body.group = some g → (settledOrder s p next o).tag = o.tag := fun g hg => by
    rw [settledOrder_group hg, finishedOn_tag]
    exact servedFor_tag s p next o
  cases hb : o.body with
  | band g _ => exact hgroup g (by rw [hb]; rfl)
  | relay g _ _ => exact hgroup g (by rw [hb]; rfl)
  | query i => rw [settledOrder_query hb, outcomeOf_tag, servedFor_tag]

theorem setAside_stage (p : Phase) (o : Order) : ((setAside p o).progress.get p).stage ≠ .serving := by
  unfold setAside
  split
  · rw [withProgress, Tri.get_set_same]
    nofun
  · assumption

theorem setAside_active (p : Phase) (o : Order) :
    ((setAside p o).progress.get p).stage.active = (o.progress.get p).stage.active := by
  unfold setAside
  split
  next h =>
    rw [withProgress, Tri.get_set_same, h]
    rfl
  · rfl

/-- A record after a settling on a phase. -/
def settledIn (s : State) (p : Phase) (o : Order) (next : NextStep) (x : Order) : Order :=
  if x.tag = o.tag then settledOrder s p next x else setAside p x

theorem settledState_orm (s : State) (p : Phase) (o : Order) (next : NextStep) :
    (settledState s p o next).orm = { s.orm with table := s.orm.table.map (settledIn s p o next) } := State.postAll_orm _ _

theorem settledIn_tag (s : State) (p : Phase) (o : Order) (next : NextStep) (x : Order) : (settledIn s p o next x).tag = x.tag := by
  unfold settledIn
  split
  · exact settledOrder_tag s p next x
  · exact setAside_tag x p

theorem settledIn_stage (s : State) (p : Phase) (o : Order) (next : NextStep) (x : Order) :
    ((settledIn s p o next x).progress.get p).stage ≠ .serving := by
  unfold settledIn
  split
  · rw [settledOrder_stage]
    nofun
  · exact setAside_stage p x

/-- How many records have an active stage on a phase. -/
def State.activeOn (s : State) (p : Phase) : Nat := s.orm.table.countP fun x => (x.progress.get p).stage.active

theorem activeOn_settled {s : State} {p : Phase} {o : Order} (ho : o ∈ s.orm.table) (ha : (o.progress.get p).stage.active = true)
    (next : NextStep) : (settledState s p o next).activeOn p < s.activeOn p := by
  have hle : ∀ x, ((settledIn s p o next x).progress.get p).stage.active = true → (x.progress.get p).stage.active = true := by
    intro x h
    unfold settledIn at h
    split at h
    · rw [settledOrder_stage] at h
      cases h
    · rwa [setAside_active] at h
  have hself : ((settledIn s p o next o).progress.get p).stage.active = false := by
    rw [settledIn, if_pos rfl, settledOrder_stage]
    rfl
  unfold State.activeOn
  rw [settledState_orm]
  dsimp only
  rw [List.countP_map]
  obtain ⟨l, k, hl⟩ := List.append_of_mem ho
  rw [hl, List.countP_append, List.countP_append, List.countP_cons, List.countP_cons]
  have h1 := List.countP_mono_left (l := l) (p := (fun x : Order => (x.progress.get p).stage.active) ∘ settledIn s p o next)
    (q := fun x => (x.progress.get p).stage.active) fun x _ => hle x
  have h2 := List.countP_mono_left (l := k) (p := (fun x : Order => (x.progress.get p).stage.active) ∘ settledIn s p o next)
    (q := fun x => (x.progress.get p).stage.active) fun x _ => hle x
  simp only [Function.comp_apply, hself, ha, if_true] at h1 h2 ⊢
  simp only [Bool.false_eq_true, if_false]
  omega

/-! ### The settlings on the way (R74) -/

/-- What selection on a phase rests on: tags distinct, one order in service there, and a sound directory. -/
structure Selectable (s : State) (p : Phase) : Prop where
  tags : s.orm.TagsDistinct
  one : OneServes s p
  dir : s.dir.Sound

theorem Selectable.settled {s : State} {p : Phase} (h : Selectable s p) (o : Order) (next : NextStep) :
    Selectable (settledState s p o next) p where
  tags := by
    refine h.tags.of_tags ?_
    rw [settledState_orm, List.map_map]
    exact List.map_congr_left fun x _ => settledIn_tag s p o next x
  one := by
    intro x hx y _ hxs
    rw [settledState_orm] at hx
    obtain ⟨x', -, rfl⟩ := List.mem_map.mp hx
    exact absurd ((Order.servesOn_iff _ p).mp hxs) (settledIn_stage s p o next x')
  dir := by
    have hdir : (settledState s p o next).dir = s.dir := State.postAll_dir _ _
    exact hdir ▸ h.dir

/-- One state comes from another by settlings of what selection names. -/
inductive SettlesTo (p : Phase) : State → State → Prop
  | refl (s : State) : SettlesTo p s s
  | step {s t : State} {o : Order} {next : NextStep} (ho : o ∈ s.orm.table) (hcand : CandidateOn s p o next)
      (hnext : next.needsSlot = false) (hsel : s.select p none = .order o.tag next) (h : SettlesTo p (settledState s p o next) t) :
      SettlesTo p s t

/-- What is named in the end is a frame's work, or nothing. -/
def Choice.NeedsSlot (c : Choice) : Prop := ∀ tag next, c = .order tag next → next.needsSlot = true

theorem SettlesTo.selectable {p : Phase} {s t : State} (h : SettlesTo p s t) (hs : Selectable s p) : Selectable t p := by
  induction h with
  | refl => exact hs
  | step _ _ _ _ _ ih => exact ih (hs.settled _ _)

theorem State.select_candidate {s : State} {p : Phase} (hs : Selectable s p) {tag : Tag} {next : NextStep}
    (h : s.select p none = .order tag next) : ∃ o ∈ s.orm.table, o.tag = tag ∧ CandidateOn s p o next := by
  obtain ⟨o, ho, htag, hel, hst⟩ := State.select_order h
  have hel := (s.eligible_iff p o).mp hel
  exact ⟨o, ho, htag, hel, hasStep_of_nextStep hs.dir hel.active hst⟩

/-- The settlings and the choice in the end are what selection names. -/
theorem SettlesTo.names {p : Phase} {s u : State} (h : SettlesTo p s u) (hs : Selectable s p)
    (hslot : (u.select p none).NeedsSlot) (n : Nat) : Names n p s u (u.select p none) := by
  induction n generalizing s with
  | zero => trivial
  | succ n ih =>
    refine State.select_names hs.tags hs.one hs.dir ?_
    cases h with
    | refl =>
      cases hsel : u.select p none with
      | nothing => exact ⟨rfl, rfl⟩
      | refresh g => exact ⟨rfl, rfl⟩
      | order tag next =>
        have hneeds := hslot tag next hsel
        cases next with
        | slot step => exact ⟨rfl, rfl⟩
        | close => cases hneeds
        | vacant => cases hneeds
    | step ho hcand hnext hsel h =>
      rename_i o next
      rw [hsel]
      have hrest : ∀ o' ∈ s.orm.table, o'.tag = o.tag → Names n p (settledState s p o' next) u (u.select p none) := by
        intro o' ho' htag
        rw [hs.tags.eq_of_tag ho' ho htag]
        exact ih h (hs.settled o next)
      cases next with
      | slot step => cases hnext
      | close => exact hrest
      | vacant => exact hrest

/-- With fuel for each active order, selection ends at what it names. -/
theorem State.selectSettled_settles {p : Phase} (fuel : Nat) {s : State} (hs : Selectable s p) (hfuel : s.activeOn p < fuel) :
    ∃ u, SettlesTo p s u ∧ State.selectSettled fuel p s = (u, u.select p none) ∧ (u.select p none).NeedsSlot := by
  induction fuel generalizing s with
  | zero => omega
  | succ fuel ih =>
    have hstop : (s.select p none).NeedsSlot → State.selectSettled (fuel + 1) p s = (s, s.select p none) := by
      intro hslot
      unfold State.selectSettled
      cases hsel : s.select p none with
      | nothing => rfl
      | refresh g => rfl
      | order tag next =>
        have hneeds := hslot tag next hsel
        cases next with
        | slot step => rfl
        | close => cases hneeds
        | vacant => cases hneeds
    by_cases hslot : (s.select p none).NeedsSlot
    · exact ⟨s, .refl s, hstop hslot, hslot⟩
    · unfold Choice.NeedsSlot at hslot
      push Not at hslot
      obtain ⟨tag, next, hsel, hnext⟩ := hslot
      have hnext : next.needsSlot = false := Bool.eq_false_iff.mpr hnext
      obtain ⟨o, ho, rfl, hcand⟩ := State.select_candidate hs hsel
      obtain ⟨u, hu, heq, hslot⟩ := ih (hs.settled o next) (by have := activeOn_settled ho hcand.1.active next; omega)
      refine ⟨u, .step ho hcand hnext hsel hu, ?_, hslot⟩
      unfold State.selectSettled
      rw [hsel]
      cases next with
      | slot step => cases hnext
      | close =>
        dsimp only
        rw [State.settle_eq hs.tags hs.dir ho hcand hnext, heq]
      | vacant =>
        dsimp only
        rw [State.settle_eq hs.tags hs.dir ho hcand hnext, heq]

theorem State.activeOn_le (s : State) (p : Phase) : s.activeOn p < s.orm.table.length + 1 :=
  Nat.lt_succ_of_le List.countP_le_length

/-! ### What the settlings keep -/

theorem SettlesTo.keeps {α : Type} {f : State → α} (hf : ∀ s table, f (withTable s table) = f s) (hp : ∀ s n, f (s.post n) = f s)
    {p : Phase} {s t : State} (h : SettlesTo p s t) : f t = f s := by
  induction h with
  | refl => rfl
  | step _ _ _ _ _ ih => exact ih.trans ((State.postAll_keeps hp _ _).trans (hf _ _))

theorem SettlesTo.lines {p : Phase} {s t : State} (h : SettlesTo p s t) : t.lines = s.lines := h.keeps (fun _ _ => rfl) fun _ _ => rfl
theorem SettlesTo.dir {p : Phase} {s t : State} (h : SettlesTo p s t) : t.dir = s.dir := h.keeps (fun _ _ => rfl) fun _ _ => rfl

theorem SettlesTo.line {p q : Phase} {s t : State} (h : SettlesTo p s t) : t.line q = s.line q := congrArg (·.get q) h.lines

end Sys2Proof.Machine
end

section
/-! PROOF. The frame of what selection names, staged at an idle crossing or begun at a gap (Table 3-4, R57 to R61, R75, R95, R101, R111,
R125). -/

namespace Sys2Proof.Machine

/-! ### Composed frames (Table 3-4) -/

/-- A frame of an order by the rules of R54 and R56, from its content and its route. -/
theorem State.buildFrame_eq {s : State} {p : Phase} {k : Nat} {work : Work} {step : Step} {content : Content} {target : Option Nat}
    {route : List Nat} {carrier : Nat} {reply : Option Nat} (hhops : content.hopCount = route.length)
    (hcarrier : carrierOf content.size = carrier) (hreply : content.replyCarrier = reply) :
    s.buildFrame p k work step content target route none
      = frameOf s work step content target route carrier reply (s.mains p).hc ((s.mains p).hc + BitVec.ofNat 32 k) := by
  unfold State.buildFrame frameOf
  rw [hhops, hcarrier, hreply]
  cases reply with
  | none => rfl
  | some rr =>
    have hplanned : plannedLength s.params.guard carrier route.length s.params.margin (some rr)
        = s.params.guard + s.params.margin + 1 + carrier + rr + route.length * (carrier + rr + 2) := by
      unfold plannedLength
      ring
    dsimp only
    rw [hplanned]

theorem carrierOf_hops (n h : Nat) : carrierOf (n + 3 * h) = carrierOf n + h := by
  unfold carrierOf
  omega

/-- The frame that an order's step draws is the one of Tables 3-1 and 3-4. -/
theorem State.orderFrame_is {s : State} {p : Phase} {o : Order} {pp : Progress} {step : Step} (h : HasStep s p o pp (.slot step))
    (k : Nat) : IsOrderFrame s p k o step (s.orderFrame p k o step) := by
  have hspan (size hops : Nat) : outboundSpan k s.params.guard (carrierOf size) hops
      = k + s.params.guard + carrierOf size + hops * (carrierOf size + 1) := rfl
  have hdelay (size hops : Nat) := s.delayFor_is p k size hops o
  cases step with
  | refresh => exact h.elim
  | repeatNo n =>
    obtain ⟨hgroup, -⟩ := h
    unfold IsOrderFrame
    cases hb : o.body with
    | query t => exact absurd (by rw [hb]; rfl) hgroup
    | band g b =>
      refine ⟨s.delayFor p k 12 0 o, ?_, ?_⟩
      · have hd := hdelay 12 0
        rw [hspan, Nat.zero_mul, Nat.add_zero] at hd
        exact hd
      · simp only [State.orderFrame, State.repeatContent, hb]
        exact State.buildFrame_eq rfl (show carrierOf 12 = 4 from rfl) rfl
    | relay g v r =>
      refine ⟨s.delayFor p k 14 0 o, ?_, ?_⟩
      · have hd := hdelay 14 0
        rw [hspan, Nat.zero_mul, Nat.add_zero] at hd
        exact hd
      · simp only [State.orderFrame, State.repeatContent, hb, restoreField_eq]
        exact State.buildFrame_eq rfl (show carrierOf 14 = 5 from rfl) rfl
  | attempt i n =>
    obtain ⟨g, c, ⟨hgroup, -⟩, -⟩ := h
    have hroute := s.routeOf_getD i
    have hhops := s.hopsAt_getD i
    have hlength := s.hopsAt_length i
    unfold IsOrderFrame
    cases hb : o.body with
    | query t => rw [hb] at hgroup; cases hgroup
    | band g b =>
      refine ⟨s.delayFor p k (16 + 3 * (s.hopsAt i).length) (s.hopsAt i).length o, (s.hopsAt i).length, ?_, ?_, ?_⟩
      · rw [hlength, hroute]
      · have hd := hdelay (16 + 3 * (s.hopsAt i).length) (s.hopsAt i).length
        rw [hspan, carrierOf_hops] at hd
        exact hd
      · simp only [State.orderFrame, State.addressedContent, hb]
        rw [← hhops, ← hroute, ← s.addressAt_eq]
        exact State.buildFrame_eq hlength (carrierOf_hops 16 (s.hopsAt i).length) rfl
    | relay g v r =>
      refine ⟨s.delayFor p k (18 + 3 * (s.hopsAt i).length) (s.hopsAt i).length o, (s.hopsAt i).length, ?_, ?_, ?_⟩
      · rw [hlength, hroute]
      · have hd := hdelay (18 + 3 * (s.hopsAt i).length) (s.hopsAt i).length
        rw [hspan, carrierOf_hops] at hd
        exact hd
      · simp only [State.orderFrame, State.addressedContent, hb, restoreField_eq]
        rw [← hhops, ← hroute, ← s.addressAt_eq]
        exact State.buildFrame_eq hlength (carrierOf_hops 18 (s.hopsAt i).length) rfl
  | query i n =>
    obtain ⟨hb, -⟩ := h
    have hroute := s.routeOf_getD i
    have hhops := s.hopsAt_getD i
    have hlength := s.hopsAt_length i
    unfold IsOrderFrame
    rw [hb]
    dsimp only
    simp only [State.orderFrame, State.addressedContent, hb]
    rw [← hhops, ← hroute, ← s.addressAt_eq]
    refine State.buildFrame_eq hlength ?_ rfl
    rw [← hlength]
    exact carrierOf_hops 10 (s.hopsAt i).length

/-- The frame of an order that has taken service is the frame it would have drawn before. -/
theorem State.orderFrame_served (s : State) (p : Phase) (k : Nat) (next : NextStep) (o : Order) (step : Step) :
    s.orderFrame p k (servedFor s p next o) step = s.orderFrame p k o step := by
  by_cases h : (o.progress.get p).stage = .queued
  · rw [servedFor_queued next h]
    rfl
  · rw [servedFor_other next h]
    rfl

theorem minutesLeft_remaining (r : Option Nat) (now : Nat) : MinutesLeft r now (remainingMinutes r now) := by
  constructor
  · rintro r rfl h
    simp only [remainingMinutes, if_pos h]
    omega
  · intro h
    cases r with
    | none => rfl
    | some r => exact if_neg (by have := h r rfl; omega)

theorem State.refreshFrame_is (s : State) (p : Phase) (k : Nat) (g : Fin 16) :
    s.refreshFrame p k g = refreshFrameOf s g (remainingMinutes (s.standing g).restoreUntil s.now) (s.mains p).hc
      ((s.mains p).hc + BitVec.ofNat 32 k) := by
  have hcarrier : carrierOf (s.refreshContent g).size = 5 := show carrierOf 15 = 5 from rfl
  unfold State.refreshFrame State.buildFrame
  rw [hcarrier]
  rfl

/-! ### Staging (R57, R61, R76) -/

/-- What selection names in a state, once the steps that need no slot are settled. -/
structure Named (s : State) (p : Phase) (c : Choice) : Prop where
  selectable : Selectable s p
  select : s.select p none = c
  slot : c.NeedsSlot

theorem Named.candidate {s : State} {p : Phase} {tag : Tag} {next : NextStep} (h : Named s p (.order tag next)) :
    ∃ o ∈ s.orm.table, o.tag = tag ∧ CandidateOn s p o next ∧ ∃ step, next = .slot step := by
  obtain ⟨o, ho, htag, hcand⟩ := State.select_candidate h.selectable h.select
  have hneeds := h.slot tag next rfl
  cases next with
  | slot step => exact ⟨o, ho, htag, hcand, step, rfl⟩
  | close => cases hneeds
  | vacant => cases hneeds

theorem State.compose_order {s : State} {p : Phase} (hs : Selectable s p) {o : Order} (ho : o ∈ s.orm.table) {step : Step}
    (h : CandidateOn s p o (.slot step)) (k : Nat) :
    s.compose p k (.order o.tag (.slot step))
      = (withTable s (serviceTable s p o.tag (.slot step)), some (s.orderFrame p k o step)) := by
  have hservice := State.takeService_eq hs.tags hs.dir ho h
  have hfind := State.findOrder_of_tags (withTable_tagsDistinct hs.tags (serviceTable_tag s p o.tag (.slot step)))
    (mem_serviceTable ho (.slot step))
  rw [servedFor_tag] at hfind
  have hfind : (withTable s (serviceTable s p o.tag (.slot step))).findOrder o.tag = some (servedFor s p (.slot step) o) := hfind
  unfold State.compose
  dsimp only
  rw [hservice, hfind]
  dsimp only
  rw [← s.orderFrame_served p k (.slot step) o step]
  rfl

theorem State.stage_stagedBy {s : State} {p : Phase} {c : Choice} (h : Named s p c) (k : Nat) :
    StagedBy p k s c (s.stage p k c) := by
  match c, h with
  | .nothing, _ => rfl
  | .refresh g, _ =>
    refine ⟨_, minutesLeft_remaining _ _, ?_⟩
    rw [← s.refreshFrame_is p k g]
    rfl
  | .order tag next, h =>
    obtain ⟨o, ho, rfl, hcand, step, rfl⟩ := h.candidate
    refine ⟨o, ho, rfl, s.orderFrame p k o step, State.orderFrame_is hcand.2 k, ?_⟩
    unfold State.stage
    rw [State.compose_order h.selectable ho hcand]
    rfl

/-! ### A slot begins (R49, R56, R59) -/

theorem flown_eq (p : Phase) (step : Step) (o : Order) : flown p step o = o.modProgress p fun pp => pp.beginSlot step := by
  unfold flown Order.modProgress withProgress Progress.beginSlot
  cases step with
  | attempt i n =>
    dsimp only
    by_cases h : (o.progress.get p).cursor = .at i
    · rw [if_pos h, if_pos h, ← h]
    · rw [if_neg h, if_neg h]
  | repeatNo _ => rfl
  | query _ _ => rfl
  | refresh => rfl

theorem State.allowanceFor_eq (s : State) (o : Order) (i n : Nat) : s.allowanceFor o i n = visitAllowance s o i n := by
  unfold State.allowanceFor visitAllowance
  cases s.house i with
  | none => exact (if_neg fun h => nomatch h.2).symm
  | some h =>
    dsimp only [Option.map_some]
    simp only [Option.some.injEq]

/-- The slot of an order begins. -/
theorem State.beginSlot_order {s : State} (hd : s.orm.TagsDistinct) {o : Order} (ho : o ∈ s.orm.table) (p : Phase) {f : Frame}
    (hf : f.work = .order o.tag) :
    s.beginSlot p f
      = begunWith (withTable s (s.orm.table.map fun x => if x.tag = o.tag then flown p f.step x else x)) p f
          (startedAllowance s o f.step) (some (placeOn o p)) := by
  have hfind := State.findOrder_of_tags hd ho
  have hallow : s.startAllowance f = startedAllowance s o f.step := by
    unfold State.startAllowance startedAllowance
    rw [hf]
    cases f.step <;> simp only [hfind, Option.map_some, State.allowanceFor_eq]
  have hplace : s.placeBefore p f = some (placeOn o p) := by
    unfold State.placeBefore
    rw [hf]
    dsimp only
    rw [hfind]
    rfl
  unfold State.beginSlot
  rw [hf, hallow, hplace]
  simp only [flown_eq]
  rfl

/-- The slot of a refresh begins. -/
theorem State.beginSlot_refresh (s : State) (p : Phase) {f : Frame} {g : Fin 16} (hf : f.work = .refresh g) :
    s.beginSlot p f = begunWith s p f none none := by
  have hallow : s.startAllowance f = none := by unfold State.startAllowance; rw [hf]
  have hplace : s.placeBefore p f = none := by unfold State.placeBefore; rw [hf]
  unfold State.beginSlot
  rw [hf, hallow, hplace]
  rfl

/-! ### The gap's judgement of the staged frame (R59, R75) -/

theorem begunWith_discarded (s : State) (p : Phase) (table : List Order) (f : Frame) (a : Option Nat) (b : Option Place) :
    begunWith (withTable (s.modLine p Line.discardStaged) table) p f a b = begunWith (withTable s table) p f a b := by
  unfold begunWith
  have hline : (withTable (s.modLine p Line.discardStaged) table).line p = (s.line p).discardStaged := State.line_modLine_same _ _ _
  have htwice := withLine_modLine (withTable s table) p Line.discardStaged
    { s.line p with segment := .guard, onLine := some ⟨f, (s.mains p).hc, a, b⟩, staged := none }
  rw [hline]
  exact htwice

theorem State.judgeStaged_stands {s : State} {p : Phase} {answered : Option Work} {f : Frame} {c : Choice}
    (hstaged : (s.line p).staged = some f) (h : s.stands p answered f c = true) : s.judgeStaged p answered c = s.beginSlot p f := by
  unfold State.judgeStaged
  rw [hstaged]
  exact if_pos h

/-- What is composed afresh where no staged frame stands. -/
theorem State.judgeStaged_falls {s : State} {p : Phase} {answered : Option Work} {c : Choice} {u : State} {f : Option Frame}
    (hstaged : ∀ f, (s.line p).staged = some f → s.stands p answered f c = false)
    (hcomposed : (s.modLine p Line.discardStaged).compose p 0 c = (u, f)) :
    s.judgeStaged p answered c = match f with | some f => u.beginSlot p f | none => u := by
  unfold State.judgeStaged
  simp only [hcomposed]
  cases hst : (s.line p).staged with
  | none => cases f <;> rfl
  | some f' =>
    dsimp only
    rw [hstaged f' hst]
    cases f <;> rfl

/-- Nothing stands where a line controller names nothing. -/
theorem State.judgeStaged_nothing (s : State) (p : Phase) (answered : Option Work) :
    s.judgeStaged p answered .nothing = withLine s p { s.line p with staged := none } := by
  have hfalls : ∀ f, (s.line p).staged = some f → s.stands p answered f .nothing = false := fun f _ => by
    unfold State.stands
    rw [Bool.and_eq_false_iff]
    exact .inr rfl
  exact State.judgeStaged_falls hfalls rfl

theorem State.stands_refresh {s : State} {p : Phase} {answered : Option Work} {f : Frame} {g : Fin 16}
    (hopen : (s.line p).causes.isEmpty = true) :
    s.stands p answered f (.refresh g) = true ↔ f.plannedStart = (s.mains p).hc ∧ answered ≠ some f.work ∧ f.work = .refresh g
      ∧ f.version = some (s.standing g).changeCount := by
  unfold State.stands
  rw [hopen, Bool.and_true, Bool.and_eq_true, Bool.and_eq_true, decide_eq_true_iff, decide_eq_true_iff, and_assoc]
  refine and_congr_right fun _ => and_congr_right fun _ => ?_
  cases f.work with
  | order t => simp
  | refresh g' => simp only [decide_eq_true_iff, Work.refresh.injEq]

theorem State.stands_order {s : State} {p : Phase} {answered : Option Work} {f : Frame} {o : Order} {step : Step}
    (hopen : (s.line p).causes.isEmpty = true) (hfind : s.findOrder o.tag = some o) (hel : EligibleOn s p o) :
    s.stands p answered f (.order o.tag (.slot step)) = true ↔ f.plannedStart = (s.mains p).hc ∧ answered ≠ some f.work
      ∧ f.work = .order o.tag ∧ f.step = step := by
  unfold State.stands
  rw [hopen, Bool.and_true, Bool.and_eq_true, Bool.and_eq_true, decide_eq_true_iff, decide_eq_true_iff, and_assoc]
  refine and_congr_right fun _ => and_congr_right fun _ => ?_
  cases f.work with
  | refresh g' => simp
  | order t =>
    simp only [hfind, (s.eligible_iff p o).mpr hel, Bool.and_true, decide_eq_true_iff, Work.order.injEq]

theorem not_stands {b : Bool} {P Q R S : Prop} (h : b = true ↔ P ∧ Q ∧ R ∧ S) (hno : ¬P ∨ ¬Q ∨ ¬R ∨ ¬S) : b = false := by
  rw [← Bool.not_eq_true, h]
  tauto

/-- The gap's last steps are what R59 and R75 say. -/
theorem State.judgeStaged_gapGives {s : State} {p : Phase} {c : Choice} (h : Named s p c) (answered : Option Work) :
    GapGives p answered s c (s.judgeStaged p answered c) := by
  have hopen : c ≠ .nothing → (s.line p).causes.isEmpty = true := fun hc => (State.select_open h.select hc).1
  match c, h, hopen with
  | .nothing, _, _ =>
    exact s.judgeStaged_nothing p answered
  | .refresh g, _, hopen =>
    have hopen := hopen nofun
    refine ⟨fun f hf hstart hans hwork hversion => ?_, fun hno => ⟨_, minutesLeft_remaining _ _, ?_⟩⟩
    · rw [State.judgeStaged_stands hf ((State.stands_refresh hopen).mpr ⟨hstart, hans, hwork, hversion⟩),
        State.beginSlot_refresh s p hwork]
    · refine (State.judgeStaged_falls (fun f hf => ?_) rfl).trans ?_
      · exact not_stands (State.stands_refresh hopen) ((hno f hf).imp_right fun h => h.imp_left not_not_intro)
      · dsimp only
        rw [State.beginSlot_refresh (g := g) _ p rfl]
        refine (begunWith_discarded s p s.orm.table _ none none).trans ?_
        have hstart : (s.mains p).hc + BitVec.ofNat 32 0 = (s.mains p).hc := BitVec.add_zero _
        rw [State.refreshFrame_is]
        exact congrArg (fun x => begunWith s p (refreshFrameOf s g _ (s.mains p).hc x) none none) hstart
  | .order tag next, h, hopen =>
    obtain ⟨o, ho, rfl, hcand, step, rfl⟩ := h.candidate
    have hopen := hopen nofun
    have htags := h.selectable.tags
    have hstands := fun f => State.stands_order (answered := answered) (f := f) (step := step) hopen
      (State.findOrder_of_tags htags ho) hcand.1
    refine ⟨o, ho, rfl, fun f hf hstart hans hwork hstep => ?_, fun hno =>
      ⟨s.orderFrame p 0 o step, State.orderFrame_is hcand.2 0, ?_⟩⟩
    · rw [State.judgeStaged_stands hf ((hstands f).mpr ⟨hstart, hans, hwork, hstep⟩), State.beginSlot_order htags ho p hwork, hstep]
    · have hs' : Selectable (s.modLine p Line.discardStaged) p := ⟨htags, h.selectable.one, h.selectable.dir⟩
      refine (State.judgeStaged_falls (fun f hf => ?_) (State.compose_order hs' ho hcand 0)).trans ?_
      · exact not_stands (hstands f) ((hno f hf).imp_right fun h => h.imp_left not_not_intro)
      · dsimp only
        have hwork : (s.orderFrame p 0 o step).work = .order (servedFor s p (.slot step) o).tag := by
          rw [servedFor_tag]
          cases step <;> rfl
        have hstep : (s.orderFrame p 0 o step).step = step := by cases step <;> rfl
        have htable := withTable_tagsDistinct (s := s.modLine p Line.discardStaged) htags (serviceTable_tag s p o.tag (.slot step))
        refine (State.beginSlot_order htable (mem_serviceTable ho (.slot step)) p hwork).trans ?_
        have hallow : startedAllowance (withTable (s.modLine p Line.discardStaged) (serviceTable s p o.tag (.slot step)))
            (servedFor s p (.slot step) o) step = startedAllowance s o step := by
          have hretry : (servedFor s p (.slot step) o).retryLimit = o.retryLimit := by
            unfold servedFor
            dsimp only
            split <;> rfl
          unfold startedAllowance visitAllowance
          rw [hretry]
          rfl
        rw [hstep, servedFor_tag]
        refine (begunWith_discarded s p _ _ _ _).trans ?_
        exact congrArg (fun a => begunWith (withTable s ((serviceTable s p o.tag (.slot step)).map fun x =>
          if x.tag = o.tag then flown p step x else x)) p (s.orderFrame p 0 o step) a
            (some (placeOn (servedFor s p (.slot step) o) p))) hallow

/-! ### Selection followed to its end -/

/-- What selection names after its settlings, with the state it is named in. -/
theorem State.selectSettled_named {s : State} {p : Phase} (hs : Selectable s p) :
    ∃ u c, State.selectSettled (s.orm.table.length + 1) p s = (u, c) ∧ SettlesTo p s u ∧ Named u p c ∧ ∀ n, Names n p s u c := by
  obtain ⟨u, hu, heq, hslot⟩ := State.selectSettled_settles _ hs (s.activeOn_le p)
  exact ⟨u, _, heq, hu, ⟨hu.selectable hs, rfl, hslot⟩, hu.names hs hslot⟩

/-- The gap from the state in which the ended slot has been accounted. -/
theorem State.gapFrom_judged {s : State} {p : Phase} (hs : Selectable s p) (answered : Option Work) :
    GapFrom s p answered ((State.selectSettled (s.orm.table.length + 1) p s).1.judgeStaged p answered
      (State.selectSettled (s.orm.table.length + 1) p s).2) := by
  obtain ⟨u, c, heq, -, hnamed, hnames⟩ := State.selectSettled_named hs
  rw [heq]
  exact ⟨u, c, hnames, State.judgeStaged_gapGives hnamed answered⟩

theorem Orm.Distinct.selectable {s : State} (h : s.orm.Distinct) (hd : s.dir.Sound) (p : Phase) : Selectable s p :=
  ⟨h.tags, h.oneServes p, hd⟩

/-- Settles O38, by the settlings of selection and the frame of what it names. -/
theorem idleLineStagesAFrame : Obligations.IdleLineStagesAFrame := by
  intro s p last t hcross hseg hwait hstaged hdist hdir
  obtain ⟨v, hv⟩ : ∃ v, v = withMains s p (crossedMains (s.mains p) last t) t := ⟨_, rfl⟩
  have hs : Selectable v p := hv ▸ Orm.Distinct.selectable (s := withMains s p (crossedMains (s.mains p) last t) t) hdist hdir p
  have hline : v.line p = s.line p := by rw [hv]; rfl
  obtain ⟨u, c, heq, -, hnamed, hnames⟩ := State.selectSettled_named hs
  refine ⟨u.stage p 1 c, ?_, ?_⟩
  · rw [State.exec_crossing hcross, ← hv]
    have hidle : v.deliver p = v.idleCrossing p := State.deliver_idle (by rw [hline]; exact hwait) (by rw [hline]; exact hseg)
    rw [hidle]
    unfold State.idleCrossing
    rw [hline, hstaged]
    dsimp only
    rw [heq]
  · rw [← hv]
    exact ⟨u, c, hnames, State.stage_stagedBy hnamed 1⟩

/-! ### A gap with no slot to end -/

/-- A gap with no slot and no hold pending only judges the staged frame. -/
theorem State.gap_of_empty {s : State} {p : Phase} (hon : (s.line p).onLine = none) (hhold : (s.line p).holdPending = false) :
    s.gap p none = (State.selectSettled (s.orm.table.length + 1) p s).1.judgeStaged p none
      (State.selectSettled (s.orm.table.length + 1) p s).2 := by
  have hend : s.endSlot p none = s := by
    unfold State.endSlot
    rw [hon]
  have htake : s.modLine p Line.takeHold = s := by
    rw [State.modLine_eq, Line.takeHold, if_neg (by rw [hhold]; decide), withLine_self]
  unfold State.gap
  rw [hend, htake]
  rfl

/-- Settles O39, by the gap with no slot to end and its judgement of the staged frame. -/
theorem stagedFrameBegins : Obligations.StagedFrameBegins := by
  intro s p last t m f hcross hm hseg hon hwait hhold hstaged hstart hdist hdir
  obtain ⟨v, hv⟩ : ∃ v, v = withMains s p m t := ⟨_, rfl⟩
  have hs : Selectable v p := hv ▸ Orm.Distinct.selectable (s := withMains s p m t) hdist hdir p
  have hline : v.line p = s.line p := by rw [hv]; rfl
  have hhc : (v.mains p).hc = m.hc := by rw [hv, withMains_mains]
  have hgap : exec (.zeroCrossing p t) s = .next (v.gap p none).pump := by
    rw [State.exec_crossing hcross, ← hm, ← hv, State.deliver_idle (by rw [hline]; exact hwait) (by rw [hline]; exact hseg)]
    unfold State.idleCrossing
    rw [hline, hstaged]
    dsimp only
    rw [if_pos (hstart.trans hhc.symm)]
  have hempty := State.gap_of_empty (by rw [hline]; exact hon) (by rw [hline]; exact hhold)
  refine ⟨⟨v.gap p none, hgap, ?_⟩, fun hcauses => ?_⟩
  · rw [← hv, hempty]
    exact State.gapFrom_judged hs none
  · have hclosed : v.select p none = .nothing := State.select_of_closed fun h => hcauses (hline ▸ h.1)
    rw [hgap, hempty, State.selectSettled_of_nothing hclosed]
    dsimp only
    rw [State.judgeStaged_nothing, hline, hv]

end Sys2Proof.Machine
end

section
/-! PROOF. The accounting of a slot of an order, and the gap that follows it: the directory's part, the change of the order's record, and
the counts that the gap leaves (R33 to R35, R75, R80, R102 to R106, R112). -/

namespace Sys2Proof.Machine

/-! ### The directory's part (R33 to R35) -/

theorem State.updateHouse_eq {s : State} (hd : s.dir.Sound) {i : Nat} {h : House} (hi : s.house i = some h) (f : House → House) :
    s.updateHouse i f = (withHouse s i (f h)).postAll (healthNotices i h (f h)) := by
  have hget : s.dir.get i = some h := hi
  have hdir : s.dir.modify i f = (withHouse s i (f h)).dir := by
    refine congrArg (fun l => { s.dir with houses := l }) (List.map_congr_left fun e he => ?_)
    by_cases hei : e.1 = i
    · have hgete : s.dir.get e.1 = some e.2 := (Dir.Rising.get_iff hd.1).mpr he
      rw [hei, hget] at hgete
      rw [if_pos hei, if_pos hei, hei, Option.some.inj hgete]
    · rw [if_neg hei, if_neg hei]
  unfold State.updateHouse healthNotices
  rw [hget, hdir]
  dsimp only
  split <;> rfl

theorem House.healthOnly_replied {margin : Nat} (hm : margin ≤ 63) :
    House.HealthOnly fun h => { h.withMisses 0 with margin := some margin } :=
  fun _ => ⟨0, some margin, by omega, .inr ⟨margin, hm, rfl⟩, rfl⟩

theorem House.healthOnly_missed : House.HealthOnly fun h => h.withMisses (min (h.missCount + 1) 15) :=
  fun h => ⟨min (h.missCount + 1) 15, h.margin, Nat.min_le_right _ _, .inl rfl, rfl⟩

/-- What a change of miss count, health and margin leaves: soundness, the members of a group, and the addresses. -/
structure SameHouses (s t : State) : Prop where
  sound : s.dir.Sound → t.dir.Sound
  members : ∀ g p, t.dir.members g p = s.dir.members g p
  address : ∀ i, (t.house i).map (·.address) = (s.house i).map (·.address)

theorem SameHouses.of_dir {s t : State} (h : t.dir = s.dir) : SameHouses s t :=
  ⟨fun hd => h ▸ hd, fun g p => by rw [h], fun i => by unfold State.house; rw [h]⟩

theorem SameHouses.trans {s t u : State} (h : SameHouses s t) (h' : SameHouses t u) : SameHouses s u :=
  ⟨h'.sound ∘ h.sound, fun g p => (h'.members g p).trans (h.members g p), fun i => (h'.address i).trans (h.address i)⟩

theorem Dir.members_modify (d : Dir) (i : Nat) {f : House → House} (hf : House.HealthOnly f) (g : Fin 16) (p : Phase) :
    (d.modify i f).members g p = d.members g p := by
  have hkeep : ∀ h, (f h).isMember g p = h.isMember g p := fun h => by
    obtain ⟨m, margin, -, -, he⟩ := hf h
    rw [he]
    rfl
  unfold Dir.members Dir.modify
  dsimp only
  rw [List.filter_map, List.map_map]
  have hfilter : d.houses.filter ((fun e : Nat × House => e.2.isMember g p) ∘ fun e => if e.1 = i then (e.1, f e.2) else e)
      = d.houses.filter fun e => e.2.isMember g p := List.filter_congr fun e _ => by
    rw [Function.comp_apply]
    split
    · exact hkeep e.2
    · rfl
  rw [hfilter]
  refine List.map_congr_left fun e _ => ?_
  rw [Function.comp_apply]
  split <;> rfl

theorem State.updateHouse_same (s : State) (i : Nat) {f : House → House} (hf : House.HealthOnly f) :
    SameHouses s (s.updateHouse i f) := by
  unfold State.updateHouse
  cases hi : s.dir.get i with
  | none => exact .of_dir rfl
  | some h =>
    have hmod : SameHouses s { s with dir := s.dir.modify i f } := by
      refine ⟨fun hd => hd.healthOnly i hf, s.dir.members_modify i hf, fun j => ?_⟩
      show ((s.dir.modify i f).get j).map _ = (s.dir.get j).map _
      rw [Dir.get_modify_eq, Option.map_map]
      refine congrArg (fun g => Option.map g (s.dir.get j)) (funext fun k => ?_)
      rw [Function.comp_apply]
      split
      · obtain ⟨m, margin, -, -, he⟩ := hf k
        rw [he]
      · rfl
    dsimp only
    split
    · exact hmod
    · exact hmod.trans (.of_dir rfl)

theorem State.afterMiss_same (s : State) (i : Nat) (r : Result) : SameHouses s (s.afterMiss i r) := by
  unfold State.afterMiss
  split
  · exact s.updateHouse_same i House.healthOnly_missed
  · exact .of_dir rfl

theorem Dir.cursorBeyond_congr {d e : Dir} {g : Fin 16} {p : Phase} (h : e.members g p = d.members g p) (dirn : Direction) (i : Nat) :
    e.cursorBeyond g p dirn i = d.cursorBeyond g p dirn i := by
  unfold Dir.cursorBeyond Dir.firstBeyond
  rw [h]

theorem outcomeOf_congr {s t : State} {i : Nat} (haddr : (t.house i).map (·.address) = (s.house i).map (·.address))
    (hnow : t.now = s.now) (o : Order) (p : Phase) (c : Cursor) (r : Result) : outcomeOf t o p i c r = outcomeOf s o p i c r := by
  unfold outcomeOf
  rw [haddr, hnow]

/-! ### An attempt (R102 to R106) -/

/-- The outcome does not depend on the attempts counted before it. -/
theorem outcomeOf_attempts (s : State) (o : Order) (p : Phase) (i : Nat) (c : Cursor) (r : Result) (n : Nat) :
    outcomeOf s (o.modProgress p fun pp => { pp with attempts := n }) p i c r = outcomeOf s o p i c r := by
  have htally : ∀ pp : Progress, ({ pp with attempts := n } : Progress).tally r = { pp.tally r with attempts := n } := fun pp => by
    cases r with
    | confirmed => rfl
    | miss reason => cases reason <;> rfl
  have hsame : withProgress (o.modProgress p fun pp => { pp with attempts := n }) p
        { ((o.modProgress p fun pp => { pp with attempts := n }).progress.get p).tally r with cursor := c, attempts := 0 }
      = withProgress o p { (o.progress.get p).tally r with cursor := c, attempts := 0 } := by
    unfold Order.modProgress withProgress
    dsimp only
    rw [Tri.get_set_same, htally]
    have hset : (o.progress.set p { o.progress.get p with attempts := n }).set p
          { ({ (o.progress.get p).tally r with attempts := n } : Progress) with cursor := c, attempts := 0 }
        = o.progress.set p { (o.progress.get p).tally r with cursor := c, attempts := 0 } := by cases p <;> rfl
    rw [hset]
  unfold outcomeOf
  rw [hsame]

/-- The directory's part in the end of an attempt. -/
def State.afterVisit (s : State) (i : Nat) : Option Result → State
  | some r => s.afterMiss i r
  | none => s

theorem State.afterVisit_same (s : State) (i : Nat) (r : Option Result) : SameHouses s (s.afterVisit i r) := by
  cases r with
  | none => exact .of_dir rfl
  | some r => exact s.afterMiss_same i r

/-- An attempt accounted: the directory's part, the change of the order's record, and the notice of its end. -/
theorem State.accountAttempt_eq {s X : State} (hd : s.orm.TagsDistinct) {o : Order} (ho : o ∈ s.orm.table) {p : Phase} {g : Fin 16}
    {i allowance : Nat} {reply : Option LineReply} {c : Cursor} {r : Option Result} (hX : s.accountReply i reply = X)
    (horm : X.orm = s.orm) (hnow : X.now = s.now) (hsame : SameHouses s X) (hc : s.dir.cursorBeyond g p o.direction i = c)
    (hr : (judgeAttempt o.tag reply).result ((o.progress.get p).attempts + 1) allowance = r) :
    s.accountAttempt p o g i allowance reply
      = ((X.afterVisit i r).modOrder o.tag fun x => attempted s x p i c r).postAll (endNotices o (attempted s o p i c r)) := by
  have hXtags : X.orm.TagsDistinct := horm ▸ hd
  have hXo : o ∈ X.orm.table := horm ▸ ho
  unfold State.accountAttempt
  rw [hX]
  dsimp only
  rw [hr]
  cases r with
  | none =>
    dsimp only
    have hstate : endNotices o (attempted s o p i c none) = [] := endNotices_of_state rfl
    rw [hstate, State.postAll_nil]
    exact State.modOrder_congr_of hXtags hXo rfl
  | some r =>
    obtain ⟨s2, hs2⟩ : ∃ s2, s2 = X.modProgress o.tag p fun pp => { pp with attempts := (o.progress.get p).attempts + 1 } := ⟨_, rfl⟩
    obtain ⟨o2, ho2⟩ : ∃ o2, o2 = o.modProgress p fun pp => { pp with attempts := (o.progress.get p).attempts + 1 } := ⟨_, rfl⟩
    have hs2tags : s2.orm.TagsDistinct := by
      rw [hs2]
      exact State.modOrder_tagsDistinct hXtags o.tag fun _ => rfl
    have hs2o : o2 ∈ s2.orm.table := by
      rw [hs2, ho2]
      exact State.mem_modOrder hXo _
    have hs2same : SameHouses s s2 := hsame.trans (.of_dir (by rw [hs2]; rfl))
    have hout : ∀ x, outcomeOf s2 x p i c r = outcomeOf s x p i c r := fun x =>
      outcomeOf_congr (hs2same.address i) (by rw [hs2]; exact hnow) x p c r
    have hcursor : (s2.recordResult p o.tag i r).dir.cursorBeyond g p o.direction i = c := by
      rw [← hc, State.recordResult_eq]
      exact Dir.cursorBeyond_congr ((hs2same.trans (s2.afterMiss_same i r)).members g p) _ _
    have htag : o2.tag = o.tag := by rw [ho2]; rfl
    have hstate : o2.state = o.state := by rw [ho2]; rfl
    have houtcome := State.outcome_eq hs2tags hs2o p i c r
    simp only [htag, hout] at houtcome
    have hattempts : outcomeOf s o2 p i c r = outcomeOf s o p i c r := by rw [ho2, outcomeOf_attempts]
    have hends : endNotices o2 (outcomeOf s o2 p i c r) = endNotices o (outcomeOf s o p i c r) := by
      rw [hattempts, endNotices, endNotices, htag, hstate]
    rw [hends] at houtcome
    dsimp only
    rw [← hs2, hcursor, houtcome, hs2]
    have hmod := State.modOrder_modOrder (X.afterMiss i r) o.tag
      (fun x => x.modProgress p fun pp => { pp with attempts := (o.progress.get p).attempts + 1 })
      (fun x => outcomeOf s x p i c r) fun _ => rfl
    simp only [outcomeOf_attempts] at hmod
    rw [State.modProgress, State.afterMiss_modOrder, hmod]
    rfl

/-- What an attempt's reply determines is what Table 5-2 and R105 say. -/
theorem judgeAttempt_result {tag : Tag} {last : Bool} {attempts allowance : Nat} (hlast : last = decide (allowance ≤ attempts)) :
    (judgeAttempt tag none).result attempts allowance = attemptResult tag last none
      ∧ ∀ status t m, (judgeAttempt tag (some (.short status t m))).result attempts allowance
          = attemptResult tag last (some (status, t)) := by
  have hfailed : ∀ reason, (Verdict.failed reason).result attempts allowance = if last then some (.miss reason) else none := by
    intro reason
    show (if attempts < allowance then none else some (Result.miss reason)) = _
    rw [hlast]
    by_cases h : allowance ≤ attempts
    · rw [if_neg (by omega), decide_eq_true h, if_pos rfl]
    · rw [if_pos (by omega), decide_eq_false h]
      rfl
  refine ⟨hfailed _, fun status t m => ?_⟩
  have hknown : ¬(t ≠ tag ∧ (t = 0 ∨ tagNewer t tag = false)) ↔ t = tag ∨ (t ≠ 0 ∧ Newer t tag) := by
    rw [← tagNewer_iff, ← Bool.not_eq_true]
    tauto
  unfold judgeAttempt attemptResult
  dsimp only
  by_cases hk : t = tag ∨ (t ≠ 0 ∧ Newer t tag)
  · rw [if_neg (hknown.mpr hk)]
    simp only [hk, true_and]
    by_cases h12 : status = 1 ∨ status = 2
    · rw [if_pos h12, if_pos h12]
      rfl
    · rw [if_neg h12, if_neg h12]
      by_cases h3 : status = 3
      · rw [if_pos h3, if_pos h3]
        rfl
      · rw [if_neg h3, if_neg h3]
        by_cases h4 : status = 4
        · rw [if_pos h4, if_pos h4]
          rfl
        · rw [if_neg h4, if_neg h4]
          exact hfailed _
  · rw [if_pos (by rw [← hknown, not_not] at hk; exact hk)]
    simp only [hk, false_and, if_false]
    exact hfailed _

/-! ### The end of an order's slot (R75, R80) -/

/-- A change of one record that the accounting of a slot on a phase may make. -/
structure SlotChange (p : Phase) (f : Order → Order) : Prop where
  tag : ∀ x, (f x).tag = x.tag
  body : ∀ x, (f x).body = x.body
  state : ∀ x, (f x).state = x.state ∨ (f x).state ≠ .closing
  serves : ∀ x, (f x).servesOn p = true → x.servesOn p = true

theorem SlotChange.comp {p : Phase} {f g : Order → Order} (hf : SlotChange p f) (hg : SlotChange p g) :
    SlotChange p fun x => g (f x) where
  tag x := (hg.tag _).trans (hf.tag x)
  body x := (hg.body _).trans (hf.body x)
  state x := by
    rcases hg.state (f x) with h | h
    · rw [h]
      exact hf.state x
    · exact .inr h
  serves x h := hf.serves x (hg.serves _ h)

/-- A change of a progress that gives no service. -/
theorem SlotChange.progress (p : Phase) {f : Progress → Progress} (hf : ∀ pp, (f pp).stage = .serving → pp.stage = .serving) :
    SlotChange p fun o => o.modProgress p f where
  tag _ := rfl
  body _ := rfl
  state _ := .inl rfl
  serves x h := by
    rw [Order.servesOn_iff] at h ⊢
    rw [Order.modProgress, Tri.get_set_same] at h
    exact hf _ h

theorem SlotChange.finishedOn (p : Phase) (now : Nat) : SlotChange p fun x => finishedOn x p now where
  tag x := finishedOn_tag x p now
  body x := by
    rw [finishedOn_eq]
    split
    · unfold reportedOrder
      split <;> rfl
    · rfl
  state x := by
    rw [finishedOn_eq]
    split
    · unfold reportedOrder
      split
      · right
        dsimp only
        split <;> nofun
      · exact .inl rfl
    · exact .inl rfl
  serves x h := by
    rw [Order.servesOn_iff] at h ⊢
    by_cases hst : (x.progress.get p).stage = .serving
    · exact hst
    · rw [finishedOn_eq] at h
      split at h
      · rw [reportedOrder_progress, Order.modProgress, Tri.get_set_same] at h
        cases h
      · exact h

theorem SlotChange.recordedOf (s : State) (p : Phase) (i : Nat) (r : Result) : SlotChange p (recordedOf s p i r) where
  tag := recordedOf_tag s p i r
  body x := by
    cases r with
    | confirmed => rfl
    | miss reason => exact missed_body _ _
  state x := .inl (recordedOf_state s p i r x)
  serves x h := by
    rw [Order.servesOn_iff] at h ⊢
    rwa [recordedOf_progress, Order.modProgress, Tri.get_set_same, Progress.tally_stage] at h

theorem SlotChange.outcomeOf (s : State) (p : Phase) (i : Nat) (c : Cursor) (r : Result) :
    SlotChange p fun x => outcomeOf s x p i c r := by
  have hmoved : SlotChange p fun x => (Machine.recordedOf s p i r x).modProgress p fun pp => { pp with cursor := c, attempts := 0 } :=
    (SlotChange.recordedOf s p i r).comp (.progress p (f := fun pp => { pp with cursor := c, attempts := 0 }) fun _ h => h)
  simp only [outcomeOf_eq]
  by_cases h : c = .atEnd
  · simp only [if_pos h]
    exact hmoved.comp (.finishedOn p s.now)
  · simp only [if_neg h]
    exact hmoved

theorem SlotChange.attempted (s : State) (p : Phase) (i : Nat) (c : Cursor) (r : Option Result) :
    SlotChange p fun x => attempted s x p i c r := by
  cases r with
  | none => exact .progress p (f := fun pp => { pp with attempts := pp.attempts + 1 }) fun _ h => h
  | some r => exact .outcomeOf s p i c r

theorem slotCleared_final {o : Order} (h : o.state ≠ .closing) (p : Phase) (now : Nat) : (slotCleared o p now).state = o.state :=
  (slotCleared_state o p now).resolve_right fun hc => h hc.1

theorem slotCleared_serves (o : Order) (p : Phase) (now : Nat) (h : (slotCleared o p now).servesOn p = true) : o.servesOn p = true := by
  have hprogress : ∀ x : Order, (closedOrder x now).progress = x.progress := fun x => by
    unfold closedOrder
    split
    · split <;> rfl
    · rfl
  rw [Order.servesOn_iff] at h ⊢
  rwa [slotCleared_eq, hprogress, Order.modProgress, Tri.get_set_same] at h

theorem Line.takeHold_ended (l : Line) :
    Line.takeHold { l with segment := .none, txEnable := false, onLine := none } = endedLine l l.stats := by
  unfold Line.takeHold endedLine
  cases h : l.holdPending with
  | true => simp
  | false =>
    simp only [Bool.or_false]
    rfl

/-- The state that the gap's selection starts from, once an order's slot is accounted. -/
theorem State.endSlot_accounted {s Y : State} {p : Phase} {ol : OnLine} {o : Order} {reply : Option LineReply} {F : Order → Order}
    {H : List Notice} (htags : Y.orm.TagsDistinct) (ho : o ∈ Y.orm.table) (hon : (s.line p).onLine = some ol)
    (hwork : ol.frame.work = .order o.tag) (hnow : Y.now = s.now) (hline : Y.line p = s.line p)
    (hF : SlotChange p F) (hacc : s.account p ol reply = (Y.modOrder o.tag F).postAll (H ++ endNotices o (F o))) :
    (s.endSlot p reply).modLine p Line.takeHold
      = accounted Y p (endedLine (s.line p) (s.line p).stats) o.tag F (H ++ endNotices o (slotCleared (F o) p s.now)) := by
  have htags1 := State.modOrder_tagsDistinct htags o.tag hF.tag
  have hmem1 := State.mem_modOrder ho F
  have hclear := State.clearInFlight_of_tags (s := (Y.modOrder o.tag F).postAll (H ++ endNotices o (F o)))
    (by rw [State.postAll_orm]; exact htags1) (by rw [State.postAll_orm]; exact hmem1) p
  have hnow1 : ((Y.modOrder o.tag F).postAll (H ++ endNotices o (F o))).now = s.now := by
    rw [State.postAll_now]
    exact hnow
  have htwice := State.modOrder_modOrder Y o.tag F (fun x => slotCleared x p s.now) hF.tag
  have hends : endNotices o (F o) ++ endNotices (F o) (slotCleared (F o) p s.now) = endNotices o (slotCleared (F o) p s.now) :=
    endNotices_append (hF.tag o) fun h => slotCleared_final ((hF.state o).resolve_left h) p s.now
  have hline1 : (Y.modOrder o.tag fun x => slotCleared (F x) p s.now).line p = s.line p := hline
  rw [hnow1, hF.tag, State.modOrder_postAll, htwice, ← State.postAll_append, List.append_assoc, hends] at hclear
  unfold State.endSlot
  rw [hon]
  dsimp only
  rw [hacc, hwork]
  dsimp only
  rw [hclear, State.modLine_modLine]
  refine (State.postAll_commute (f := fun s => s.modLine p fun l =>
    Line.takeHold { l with segment := .none, txEnable := false, onLine := none }) (fun _ _ => rfl) _ _).trans ?_
  rw [State.modLine_eq, hline1, Line.takeHold_ended, accounted, hnow]
  rfl

/-- The accounted state of an order's slot is one that selection can follow. -/
theorem accounted_selectable {Y : State} {p : Phase} {l : Line} {tag : Tag} {F : Order → Order} {notices : List Notice}
    (hY : Selectable Y p) (hF : SlotChange p F) : Selectable (accounted Y p l tag F notices) p := by
  have htable : (accounted Y p l tag F notices).orm.table
      = Y.orm.table.map fun x => if x.tag = tag then slotCleared (F x) p Y.now else x := by
    rw [accounted, State.postAll_orm]
    rfl
  refine ⟨hY.tags.of_tags ?_, fun x hx y hy hxs hys => ?_, ?_⟩
  · rw [htable, List.map_map]
    refine List.map_congr_left fun x _ => ?_
    rw [Function.comp_apply]
    split
    · rw [slotCleared_tag, hF.tag]
    · rfl
  · have hback : ∀ z ∈ (accounted Y p l tag F notices).orm.table, z.servesOn p = true →
        ∃ z' ∈ Y.orm.table, z'.servesOn p = true ∧ z.tag = z'.tag := fun z hz hzs => by
      rw [htable] at hz
      obtain ⟨z', hz', rfl⟩ := List.mem_map.mp hz
      refine ⟨z', hz', ?_⟩
      split at hzs
      next ht =>
        rw [if_pos ht]
        exact ⟨hF.serves _ (slotCleared_serves _ _ _ hzs), by rw [slotCleared_tag, hF.tag]⟩
      next ht =>
        rw [if_neg ht]
        exact ⟨hzs, rfl⟩
    obtain ⟨x', hx', hxs', hxt⟩ := hback x hx hxs
    obtain ⟨y', hy', hys', hyt⟩ := hback y hy hys
    rw [hxt, hyt]
    exact hY.one x' hx' y' hy' hxs' hys'
  · rw [accounted, State.postAll_dir]
    exact hY.dir

/-! ### The counts that a gap leaves -/

/-- The counts of an order on a phase. -/
def countsOn (o : Order) (p : Phase) : List Miss × Nat × List Nat := (o.misses, o.unlisted, talliesOn o p)

theorem CountsStand.refl (s : State) (p : Phase) (tag : Tag) : CountsStand s s p tag := ⟨rfl, rfl, rfl⟩

theorem CountsStand.trans {s t u : State} {p : Phase} {tag : Tag} (h : CountsStand s t p tag) (h' : CountsStand t u p tag) :
    CountsStand s u p tag := ⟨h'.1.trans h.1, h'.2.1.trans h.2.1, h'.2.2.trans h.2.2⟩

theorem CountsStand.of_map {s t : State} {p : Phase} {tag : Tag} {f : Order → Order} (hdir : t.dir = s.dir)
    (hstats : (t.line p).stats = (s.line p).stats) (htable : t.orm.table = s.orm.table.map f) (htag : ∀ x, (f x).tag = x.tag)
    (hcounts : ∀ x ∈ s.orm.table, x.tag = tag → countsOn (f x) p = countsOn x p) : CountsStand s t p tag := by
  refine ⟨hdir, hstats, ?_⟩
  rw [htable, List.map_map]
  refine List.map_congr_left fun x hx => ?_
  rw [Function.comp_apply, htag]
  by_cases ht : x.tag = tag
  · rw [if_pos ht, if_pos ht]
    exact congrArg some (hcounts x hx ht)
  · rw [if_neg ht, if_neg ht]

theorem countsOn_modProgress {o : Order} {p : Phase} {f : Progress → Progress}
    (hf : ∀ pp, [(f pp).repeatsSent, (f pp).confirmed, (f pp).override, (f pp).notMember, (f pp).noReply, (f pp).rejected, (f pp).vacant]
      = [pp.repeatsSent, pp.confirmed, pp.override, pp.notMember, pp.noReply, pp.rejected, pp.vacant]) :
    countsOn (o.modProgress p f) p = countsOn o p := by
  unfold countsOn talliesOn Order.modProgress
  dsimp only
  rw [Tri.get_set_same, hf]

theorem countsOn_finishedOn (o : Order) (p : Phase) (now : Nat) : countsOn (finishedOn o p now) p = countsOn o p := by
  rw [finishedOn_eq]
  split
  · have hreported : ∀ x : Order, countsOn (reportedOrder x now) p = countsOn x p := fun x => by
      unfold reportedOrder
      split <;> rfl
    rw [hreported]
    exact countsOn_modProgress fun _ => rfl
  · rfl

theorem countsOn_servedFor (s : State) (p : Phase) (next : NextStep) (o : Order) : countsOn (servedFor s p next o) p = countsOn o p := by
  have hset : ∀ pp : Progress, [pp.repeatsSent, pp.confirmed, pp.override, pp.notMember, pp.noReply, pp.rejected, pp.vacant]
      = talliesOn o p → countsOn (withProgress o p pp) p = countsOn o p := fun pp hpp => by
    unfold countsOn talliesOn withProgress
    dsimp only
    rw [Tri.get_set_same, hpp]
    rfl
  by_cases h : (o.progress.get p).stage = .queued
  · rw [servedFor_queued next h]
    refine hset { begunFor s p next o with stage := .serving } ?_
    unfold begunFor
    split
    · rfl
    · split <;> rfl
    · split <;> rfl
    · split <;> rfl
    · split <;> rfl
    · rfl
  · rw [servedFor_other next h]
    exact hset _ rfl

theorem countsOn_setAside (p : Phase) (o : Order) : countsOn (setAside p o) p = countsOn o p := by
  unfold setAside
  split
  · exact countsOn_modProgress (f := fun pp => { pp with stage := .paused }) fun _ => rfl
  · rfl

theorem countsOn_flown (p : Phase) (step : Step) (o : Order) : countsOn (flown p step o) p = countsOn o p := by
  rw [flown_eq]
  refine countsOn_modProgress fun pp => ?_
  unfold Progress.beginSlot
  split
  · split <;> rfl
  · rfl

/-- The order's target stands vacant, or on another phase, with its visit still to come. -/
def VacantStep (s : State) (p : Phase) (o : Order) : Prop := HasStep s p o (o.progress.get p) .vacant

/-- The settlings keep the counts of an order whose target does not stand vacant. -/
theorem SettlesTo.counts {p : Phase} {s t : State} (h : SettlesTo p s t) (htags : Selectable s p) {tag : Tag}
    (hno : ∀ x ∈ s.orm.table, x.tag = tag → ¬VacantStep s p x) : CountsStand s t p tag := by
  induction h with
  | refl => exact .refl _ p tag
  | @step s t o next ho hcand hnext _ _ ih =>
    have horm := settledState_orm s p o next
    have hdir : (settledState s p o next).dir = s.dir := State.postAll_dir _ _
    have hgroup : ∀ x ∈ s.orm.table, x.tag = tag → x.tag = o.tag → ∃ g, x.body.group = some g := fun x hx hxt hxo => by
      cases next with
      | slot step => cases hnext
      | close =>
        obtain ⟨g, _, ⟨hg, -⟩, -⟩ := hcand.2
        exact ⟨g, htags.tags.eq_of_tag hx ho hxo ▸ hg⟩
      | vacant => exact absurd (htags.tags.eq_of_tag hx ho hxo ▸ hcand.2) (hno x hx hxt)
    refine CountsStand.trans (.of_map hdir ?_ (congrArg Orm.table horm) (settledIn_tag s p o next) fun x hx hxt => ?_)
      (ih (htags.settled o next) fun x hx hxt => ?_)
    · have hlines : (settledState s p o next).lines = s.lines := State.postAll_lines _ _
      exact congrArg (fun l : Tri Line => (l.get p).stats) hlines
    · unfold settledIn
      by_cases hxo : x.tag = o.tag
      · obtain ⟨g, hg⟩ := hgroup x hx hxt hxo
        rw [if_pos hxo, settledOrder_group hg, countsOn_finishedOn]
        exact (countsOn_modProgress (f := fun pp => { pp with cursor := .atEnd, attempts := 0 }) fun _ => rfl).trans
          (countsOn_servedFor s p next x)
      · rw [if_neg hxo, countsOn_setAside]
    · rw [horm] at hx
      obtain ⟨x', hx', rfl⟩ := List.mem_map.mp hx
      rw [settledIn_tag] at hxt
      rintro ⟨i, hbody, hcur, hhouse⟩
      have hhouse : ∀ h, s.house i = some h → h.phase ≠ p := fun h hi => hhouse h (by
        unfold State.house
        rw [hdir]
        exact hi)
      unfold settledIn at hbody hcur
      by_cases hxo : x'.tag = o.tag
      · rw [if_pos hxo] at hbody
        obtain ⟨g, hg⟩ := hgroup x' hx' hxt hxo
        have hkeep : (settledOrder s p next x').body = x'.body := by
          rw [settledOrder_group hg]
          exact ((SlotChange.finishedOn p s.now).body _).trans (servedFor_body s p next x')
        rw [hkeep] at hbody
        rw [hbody] at hg
        cases hg
      · rw [if_neg hxo] at hbody hcur
        have hkeep : (setAside p x').body = x'.body ∧ ((setAside p x').progress.get p).cursor = (x'.progress.get p).cursor := by
          unfold setAside
          split
          · refine ⟨rfl, ?_⟩
            rw [withProgress, Tri.get_set_same]
          · exact ⟨rfl, rfl⟩
        rw [hkeep.1] at hbody
        rw [hkeep.2] at hcur
        exact hno x' hx' hxt ⟨i, hbody, hcur, hhouse⟩

/-- What a gap's judgement leaves: a line controller with the same statistics, and records with the same counts. -/
theorem GapGives.counts {p : Phase} {answered : Option Work} {s t : State} {c : Choice} (h : GapGives p answered s c t) (tag : Tag) :
    CountsStand s t p tag := by
  have hbegun : ∀ (F : Order → Order) f a b, (∀ x, (F x).tag = x.tag) → (∀ x, countsOn (F x) p = countsOn x p) →
      t = begunWith (withTable s (s.orm.table.map F)) p f a b → CountsStand s t p tag := by
    rintro F f a b htag hcounts rfl
    exact .of_map rfl (by rw [begunWith, withLine_line]; rfl) rfl htag fun x _ _ => hcounts x
  match c, h with
  | .nothing, h =>
    subst h
    exact .of_map (f := id) rfl (by rw [withLine_line]) (List.map_id _).symm (fun _ => rfl) fun _ _ _ => rfl
  | .refresh g, ⟨hstands, hfalls⟩ =>
    have hself : ∀ f, t = begunWith s p f none none → CountsStand s t p tag := fun f hf =>
      hbegun id f none none (fun _ => rfl) (fun _ => rfl) (by rw [hf, List.map_id]; rfl)
    by_cases hf : ∃ f, (s.line p).staged = some f ∧ f.plannedStart = (s.mains p).hc ∧ answered ≠ some f.work ∧ f.work = .refresh g
        ∧ f.version = some (s.standing g).changeCount
    · obtain ⟨f, hst, h1, h2, h3, h4⟩ := hf
      exact hself f (hstands f hst h1 h2 h3 h4)
    · obtain ⟨minutes, -, ht⟩ := hfalls fun f hst => by
        by_contra hno
        push Not at hno
        exact hf ⟨f, hst, hno⟩
      exact hself _ ht
  | .order tag' (.slot step), ⟨o, ho, htag', hstands, hfalls⟩ =>
    subst htag'
    have htag : ∀ x : Order, (if x.tag = o.tag then flown p step x else x).tag = x.tag := fun x => by
      split
      · rw [flown_eq]
        rfl
      · rfl
    have hcounts : ∀ x : Order, countsOn (if x.tag = o.tag then flown p step x else x) p = countsOn x p := fun x => by
      split
      · exact countsOn_flown p step x
      · rfl
    have hserved : ∀ x : Order, countsOn (if x.tag = o.tag then servedFor s p (.slot step) x else setAside p x) p = countsOn x p :=
      fun x => by
        split
        · exact countsOn_servedFor s p _ x
        · exact countsOn_setAside p x
    by_cases hf : ∃ f, (s.line p).staged = some f ∧ f.plannedStart = (s.mains p).hc ∧ answered ≠ some f.work
        ∧ f.work = .order o.tag ∧ f.step = step
    · obtain ⟨f, hst, h1, h2, h3, h4⟩ := hf
      exact hbegun _ f _ _ htag hcounts (hstands f hst h1 h2 h3 h4)
    · obtain ⟨f, -, ht⟩ := hfalls fun f hst => by
        by_contra hno
        push Not at hno
        exact hf ⟨f, hst, hno⟩
      rw [serviceTable, List.map_map] at ht
      exact hbegun _ f _ _ (fun x => (htag _).trans (serviceTable_tag s p o.tag _ x)) (fun x => (hcounts _).trans (hserved x)) ht
  | .order _ .close, h => exact h.elim
  | .order _ .vacant, h => exact h.elim

/-- The gap that follows an accounted slot, with the counts it leaves. -/
theorem State.gap_of_accounted {s v : State} {p : Phase} {reply : Option LineReply} {answered : Option Work}
    (hv : (s.endSlot p reply).modLine p Line.takeHold = v) (hanswered : s.answeredWork p reply = answered) (hs : Selectable v p) :
    GapFrom v p answered (s.gap p reply)
      ∧ ∀ tag, (∀ x ∈ v.orm.table, x.tag = tag → ¬VacantStep v p x) → CountsStand v (s.gap p reply) p tag := by
  obtain ⟨u, c, heq, hsettles, hnamed, hnames⟩ := State.selectSettled_named hs
  have hgap : s.gap p reply = u.judgeStaged p answered c := by
    unfold State.gap
    rw [hv]
    dsimp only
    rw [heq, hanswered]
  have hgives := State.judgeStaged_gapGives hnamed answered
  rw [hgap]
  exact ⟨⟨u, c, hnames, hgives⟩, fun tag hno => (hsettles.counts hs hno).trans (hgives.counts tag)⟩

end Sys2Proof.Machine
end

section
/-! PROOF. Attempts and queries accounted by their reply or their silence, with the gap that follows (R80, R102 to R106, R111, R112). -/

namespace Sys2Proof.Machine

/-! ### The moments (R49, R90) -/

/-- A row that brings the move due at its crossing. -/
theorem State.takeMoveIf_of_due {s : State} {p : Phase} {m : Move} {ol : OnLine} (h : s.dueMove p = some (m, ol)) :
    s.takeMoveIf p m = s.move p ol m := by
  unfold State.takeMoveIf
  rw [h]
  exact if_pos rfl

theorem State.dueMove_of_offset {s : State} {p : Phase} {ol : OnLine} {offset : Nat} {m : Move} (hon : (s.line p).onLine = some ol)
    (hmove : ol.frame.moveAfter (s.line p).segment = some (offset, m)) (h : AtOffset s p ol offset) :
    s.dueMove p = some (m, ol) := by
  unfold State.dueMove
  dsimp only
  rw [hon]
  dsimp only
  rw [hmove]
  exact if_pos h

theorem exec_slotPlannedEnd (p : Phase) (s : State) : exec (.slotPlannedEnd p) s = .next (s.takeMoveIf p .plannedEnd).pump := rfl

theorem State.exec_plannedEnd {s : State} {p : Phase} {ol : OnLine} (hon : (s.line p).onLine = some ol)
    (hseg : (s.line p).segment = .listen) (h : AtOffset s p ol ol.frame.planned) :
    exec (.slotPlannedEnd p) s = .next (s.gap p none).pump := by
  have hmove : ol.frame.moveAfter (s.line p).segment = some (ol.frame.planned, .plannedEnd) := by rw [hseg]; rfl
  rw [exec_slotPlannedEnd, State.takeMoveIf_of_due (State.dueMove_of_offset hon hmove h)]
  rfl

/-! ### An accounted state -/

theorem accounted_modLine (s : State) (p : Phase) (f : Line → Line) (l : Line) (tag : Tag) (F : Order → Order) (notices : List Notice) :
    accounted (s.modLine p f) p l tag F notices = accounted s p l tag F notices := by
  have h := withLine_modLine (withTable s (s.orm.table.map fun x => if x.tag = tag then slotCleared (F x) p s.now else x)) p f l
  exact congrArg (fun t => State.postAll t notices) h

theorem accounted_counted (s : State) (p : Phase) (f : Line → Line) (i : Nat) (h : House) (l : Line) (tag : Tag) (F : Order → Order)
    (notices : List Notice) :
    accounted (withHouse (s.modLine p f) i h) p l tag F notices = accounted (withHouse s i h) p l tag F notices :=
  accounted_modLine (withHouse s i h) p f l tag F notices

theorem mem_accounted {Y : State} {p : Phase} {l : Line} {F : Order → Order} {notices : List Notice} {o x : Order}
    (htags : Y.orm.TagsDistinct) (ho : o ∈ Y.orm.table) (hx : x ∈ (accounted Y p l o.tag F notices).orm.table) (hxt : x.tag = o.tag) : x = slotCleared (F o) p Y.now := by
  rw [accounted, State.postAll_orm] at hx
  obtain ⟨y, hy, rfl⟩ := List.mem_map.mp hx
  by_cases hyt : y.tag = o.tag
  · rw [if_pos hyt, htags.eq_of_tag hy ho hyt]
  · rw [if_neg hyt] at hxt
    exact absurd hxt hyt

theorem slotCleared_body (o : Order) (p : Phase) (now : Nat) : (slotCleared o p now).body = o.body := by
  rw [slotCleared_eq]
  unfold closedOrder
  split
  · split <;> rfl
  · rfl

theorem slotCleared_cursor (o : Order) (p : Phase) (now : Nat) :
    ((slotCleared o p now).progress.get p).cursor = (o.progress.get p).cursor := by
  have hprogress : ∀ x : Order, (closedOrder x now).progress = x.progress := fun x => by
    unfold closedOrder
    split
    · split <;> rfl
    · rfl
  rw [slotCleared_eq, hprogress, Order.modProgress, Tri.get_set_same]

theorem accounted_house (s : State) (p : Phase) (l : Line) (tag : Tag) (F : Order → Order) (notices : List Notice) (i : Nat) :
    (accounted s p l tag F notices).house i = s.house i := by
  have hdir : (accounted s p l tag F notices).dir = s.dir := State.postAll_dir _ _
  rw [State.house, hdir]
  rfl

/-- The end of an order's slot and the gap that follows: what a row says from the accounting of the slot. -/
theorem State.gap_accounted {s Y : State} {p : Phase} {ol : OnLine} {o : Order} {reply : Option LineReply} {F : Order → Order}
    {H : List Notice} {answered : Option Work} (hY : Selectable Y p) (ho : o ∈ Y.orm.table) (hon : (s.line p).onLine = some ol)
    (hwork : ol.frame.work = .order o.tag) (hnow : Y.now = s.now) (hline : Y.line p = s.line p) (hF : SlotChange p F)
    (hacc : s.account p ol reply = (Y.modOrder o.tag F).postAll (H ++ endNotices o (F o)))
    (hanswered : s.answeredWork p reply = answered)
    (hvacant : o.body.group ≠ none ∨ ((F o).progress.get p).cursor = .atEnd
      ∨ ∃ i h, o.body = .query i ∧ Y.house i = some h ∧ h.phase = p) {v : State}
    (hv : v = accounted Y p (endedLine (s.line p) (s.line p).stats) o.tag F (H ++ endNotices o (slotCleared (F o) p s.now))) :
    GapFrom v p answered (s.gap p reply) ∧ CountsStand v (s.gap p reply) p o.tag := by
  have hstart := State.endSlot_accounted hY.tags ho hon hwork hnow hline hF hacc
  obtain ⟨hgives, hcounts⟩ := State.gap_of_accounted (hstart.trans hv.symm) hanswered (hv ▸ accounted_selectable hY hF)
  refine ⟨hgives, hcounts o.tag fun x hx hxt => ?_⟩
  rw [hv] at hx
  have hxo := mem_accounted hY.tags ho hx hxt
  have hbody : x.body = o.body := by rw [hxo, slotCleared_body, hF.body]
  have hcur : (x.progress.get p).cursor = ((F o).progress.get p).cursor := by rw [hxo, slotCleared_cursor]
  rintro ⟨i, hb, hc, hhouse⟩
  rcases hvacant with hgroup | hend | ⟨j, h, hquery, hj, hphase⟩
  · rw [hbody] at hb
    exact hgroup (by rw [hb]; rfl)
  · exact hc (hcur.trans hend)
  · rw [hbody, hquery] at hb
    cases hb
    refine hhouse h ?_ hphase
    rw [hv, accounted_house]
    exact hj

/-! ### Attempts (R102 to R106) -/

theorem State.account_attempt {s : State} (htags : s.orm.TagsDistinct) {p : Phase} {ol : OnLine} {o : Order} {g : Fin 16}
    {i n allowance : Nat} (ho : o ∈ s.orm.table) (hwork : ol.frame.work = .order o.tag) (hstep : ol.frame.step = .attempt i n)
    (hallow : ol.allowance = some allowance) (hg : o.body.group = some g) (reply : Option LineReply) :
    s.account p ol reply = s.accountAttempt p o g i allowance reply := by
  unfold State.account
  rw [hwork]
  dsimp only
  rw [State.findOrder_of_tags htags ho]
  dsimp only
  rw [hstep, hg, hallow]
  rfl

theorem State.houseReplied_eq {s : State} (hd : s.dir.Sound) {i : Nat} {h : House} (hi : s.house i = some h) (margin : Nat) :
    s.houseReplied i margin = (withHouse s i (heard h margin)).postAll (healthNotices i h (heard h margin)) :=
  State.updateHouse_eq hd hi _

theorem State.houseMissed_eq {s : State} (hd : s.dir.Sound) {i : Nat} {h : House} (hi : s.house i = some h) :
    s.houseMissed i = (withHouse s i (unheard h)).postAll (healthNotices i h (unheard h)) :=
  State.updateHouse_eq hd hi _

theorem State.houseReplied_same (s : State) (i : Nat) {margin : Nat} (hm : margin ≤ 63) : SameHouses s (s.houseReplied i margin) :=
  s.updateHouse_same i (House.healthOnly_replied hm)

theorem marginOf_eq (b : Byte) : marginOf b = b.toNat % 64 := by
  rw [marginOf, BitVec.extractLsb'_toNat, Nat.shiftRight_zero]

theorem attemptResult_replied (tag : Tag) (last : Bool) (r : Byte × Tag) :
    attemptResult tag last (some r) ≠ some (.miss .noReply) := by
  unfold attemptResult
  dsimp only
  split
  · nofun
  · split
    · nofun
    · split
      · nofun
      · split <;> nofun

/-- An attempt of a slot that has ended, with the gap that follows. -/
theorem State.gap_attempt {s X Y : State} {p : Phase} {ol : OnLine} {o : Order} {g : Fin 16} {i n allowance : Nat} {c : Cursor}
    {reply : Option LineReply} {r : Option Result} {H : List Notice} {answered : Option Work} (hdist : s.orm.Distinct)
    (ho : o ∈ s.orm.table) (hon : (s.line p).onLine = some ol) (hwork : ol.frame.work = .order o.tag)
    (hstep : ol.frame.step = .attempt i n) (hallow : ol.allowance = some allowance) (hg : o.body.group = some g) (hd : s.dir.Sound)
    (hc : CursorBeyond s g p o.direction i c)
    (hr : (judgeAttempt o.tag reply).result ((o.progress.get p).attempts + 1) allowance = r)
    (hX : s.accountReply i reply = X) (hXorm : X.orm = s.orm) (hXnow : X.now = s.now) (hsame : SameHouses s X)
    (hY : X.afterVisit i r = Y.postAll H) (horm : Y.orm = s.orm) (hnow : Y.now = s.now) (hline : Y.line p = s.line p)
    (hanswered : s.answeredWork p reply = answered) {v : State}
    (hv : v = accounted Y p (endedLine (s.line p) (s.line p).stats) o.tag (fun x => attempted s x p i c r)
      (H ++ endNotices o (slotCleared (attempted s o p i c r) p s.now))) :
    GapFrom v p answered (s.gap p reply) ∧ CountsStand v (s.gap p reply) p o.tag := by
  have hacc := State.account_attempt (p := p) hdist.tags ho hwork hstep hallow hg reply
  rw [State.accountAttempt_eq hdist.tags ho hX hXorm hXnow hsame ((State.cursorBeyond_iff hd).mp hc) hr, hY, State.modOrder_postAll,
    ← State.postAll_append] at hacc
  have hdir : Y.dir.Sound := by
    have h := (hsame.trans (X.afterVisit_same i r)).sound hd
    rwa [hY, State.postAll_dir] at h
  have hY : Selectable Y p := Orm.Distinct.selectable (horm ▸ hdist) hdir p
  exact State.gap_accounted hY (horm ▸ ho) hon hwork hnow hline (.attempted s p i c r) hacc hanswered
    (.inl (by rw [hg]; nofun)) hv

/-- Settles O45, by the accounting of the attempt and the gap that follows. -/
theorem attemptsAreAccounted : Obligations.AttemptsAreAccounted := by
  intro s p l ol o g i n allowance h c last hl hon hseg hdist ho hwork hstep hallow hg hi hd hc hlast
  subst hl
  refine ⟨fun v hat hv => ⟨s.gap p none, State.exec_plannedEnd hon hseg hat, ?_⟩, fun f r house v haw hkind hr hhouse hv => ?_⟩
  · obtain ⟨hsilent, -⟩ := judgeAttempt_result (tag := o.tag) hlast
    cases last with
    | true =>
      exact State.gap_attempt hdist ho hon hwork hstep hallow hg hd hc hsilent rfl rfl rfl (.of_dir rfl)
        (State.houseMissed_eq hd hi) rfl rfl rfl rfl hv
    | false =>
      exact State.gap_attempt (H := []) hdist ho hon hwork hstep hallow hg hd hc hsilent rfl rfl rfl (.of_dir rfl)
        rfl rfl rfl rfl rfl hv
  · obtain ⟨s', hs'⟩ : ∃ s', s' = s.modLine p fun l => l.countStats fun st =>
        { st with repliesAccepted := bump st.repliesAccepted, quality := some f.quality } := ⟨_, rfl⟩
    have hline : s'.line p = { s.line p with stats := { (s.line p).stats with
        repliesAccepted := countUp (s.line p).stats.repliesAccepted, quality := some f.quality } } := by
      rw [hs', State.line_modLine_same]
      rfl
    have hreply : replyOf f = .short (byteAt f.bytes 7) (word16 f.bytes 8) ((byteAt f.bytes 10).toNat % 64) := by
      rw [replyOf, if_pos hkind, shortReply, marginOf_eq]
    obtain ⟨-, hanswer⟩ := judgeAttempt_result (tag := o.tag) hlast
    have hresult := hanswer (byteAt f.bytes 7) (word16 f.bytes 8) ((byteAt f.bytes 10).toNat % 64)
    rw [← hr, ← hreply] at hresult
    have hon' : (s'.line p).onLine = some ol := by rw [hline]; exact hon
    have hX : s'.accountReply i (some (replyOf f)) = (withHouse s' i house).postAll (healthNotices i h house) := by
      rw [hreply, hhouse, hs']
      exact State.houseReplied_eq (s := s.modLine p _) hd hi _
    have hsame : SameHouses s' ((withHouse s' i house).postAll (healthNotices i h house)) := by
      rw [← hX]
      exact s'.houseReplied_same i (replyOf_margin f)
    have hno : r ≠ some (.miss .noReply) := hr ▸ attemptResult_replied o.tag last _
    have hvisit : ((withHouse s' i house).postAll (healthNotices i h house)).afterVisit i r
        = (withHouse s' i house).postAll (healthNotices i h house) := by
      cases r with
      | none => rfl
      | some r => exact if_neg fun hm => hno (congrArg some hm)
    refine ⟨s'.gap p (some (replyOf f)), ?_, ?_⟩
    · rw [exec_lineFrameTaken, State.takeFrame_awaited haw, hs']
    · have hdist' : s'.orm.Distinct := by rw [hs']; exact hdist
      have hd' : s'.dir.Sound := by rw [hs']; exact hd
      have ho' : o ∈ s'.orm.table := by rw [hs']; exact ho
      have hc' : CursorBeyond s' g p o.direction i c := by rw [hs']; exact hc
      have hanswered : s'.answeredWork p (some (replyOf f)) = some (.order o.tag) := by
        rw [State.answeredWork, hon', Option.map_some, hwork]
      refine State.gap_attempt hdist' ho' hon' hwork hstep hallow hg hd' hc' hresult hX (State.postAll_orm _ _)
        (State.postAll_now _ _) hsame hvisit rfl rfl rfl hanswered ?_
      rw [hv, hline, hs', accounted_counted]
      rfl

/-! ### Queries (R111, R112) -/

theorem State.account_query {s : State} (htags : s.orm.TagsDistinct) {p : Phase} {ol : OnLine} {o : Order} {i n allowance : Nat}
    (ho : o ∈ s.orm.table) (hwork : ol.frame.work = .order o.tag) (hstep : ol.frame.step = .query i n)
    (hallow : ol.allowance = some allowance) (hb : o.body = .query i) (reply : Option LineReply) :
    s.account p ol reply = s.accountQuery p o i allowance reply := by
  unfold State.account
  rw [hwork]
  dsimp only
  rw [State.findOrder_of_tags htags ho]
  dsimp only
  rw [hstep, hb, hallow]
  rfl

theorem outcomeOf_cursor (s : State) (o : Order) (p : Phase) (i : Nat) (c : Cursor) (r : Result) :
    ((outcomeOf s o p i c r).progress.get p).cursor = c := by
  have hmoved : (((recordedOf s p i r o).modProgress p fun pp => { pp with cursor := c, attempts := 0 }).progress.get p).cursor = c := by
    rw [Order.modProgress, Tri.get_set_same]
  have hfinished : ∀ x : Order, ((finishedOn x p s.now).progress.get p).cursor = (x.progress.get p).cursor := fun x => by
    rw [finishedOn_eq]
    split
    · rw [reportedOrder_progress, Order.modProgress, Tri.get_set_same]
    · rfl
  rw [outcomeOf_eq]
  split
  · rw [hfinished, hmoved]
  · exact hmoved

/-- A record with an absent query result filled. -/
def filledWith (result : QueryResult) (x : Order) : Order :=
  { x with result := if x.result = none then some result else x.result }

theorem Order.fillResult_eq {r : LineReply} {result : QueryResult} (h : queryResultOf r = some result) (x : Order) :
    x.fillResult r = filledWith result x := by
  unfold Order.fillResult filledWith
  cases hx : x.result with
  | none => rw [h, if_pos rfl]
  | some y =>
    rw [if_neg nofun]
    show x = { x with result := some y }
    rw [← hx]

theorem SlotChange.filled (p : Phase) (result : QueryResult) : SlotChange p (filledWith result) :=
  ⟨fun _ => rfl, fun _ => rfl, fun _ => .inl rfl, fun _ => id⟩

/-- A query answered. -/
theorem State.accountQuery_answered {s X : State} (hd : s.orm.TagsDistinct) {o : Order} (ho : o ∈ s.orm.table) {p : Phase} {i : Nat}
    {r : LineReply} {result : QueryResult} (hresult : queryResultOf r = some result) (hX : s.houseReplied i r.margin = X)
    (horm : X.orm = s.orm) (hnow : X.now = s.now) (hsame : SameHouses s X) (allowance : Nat) :
    s.accountQuery p o i allowance (some r)
      = (X.modOrder o.tag fun x => outcomeOf s (filledWith result x) p i .atEnd .confirmed).postAll
          (endNotices o (outcomeOf s (filledWith result o) p i .atEnd .confirmed)) := by
  have hXtags : X.orm.TagsDistinct := horm ▸ hd
  have hXo : o ∈ X.orm.table := horm ▸ ho
  have hfill : ∀ x : Order, x.fillResult r = filledWith result x := Order.fillResult_eq hresult
  have hout : ∀ x, outcomeOf (X.modOrder o.tag (filledWith result)) x p i .atEnd .confirmed = outcomeOf s x p i .atEnd .confirmed :=
    fun x => outcomeOf_congr (hsame.address i) hnow x p .atEnd .confirmed
  have houtcome := State.outcome_eq (State.modOrder_tagsDistinct hXtags o.tag (f := filledWith result) fun _ => rfl)
    (State.mem_modOrder hXo (filledWith result)) p i .atEnd .confirmed
  have hafter : (X.modOrder o.tag (filledWith result)).afterMiss i .confirmed = X.modOrder o.tag (filledWith result) :=
    if_neg (by nofun)
  have htag : (filledWith result o).tag = o.tag := rfl
  simp only [hout, hafter, htag] at houtcome
  unfold State.accountQuery
  dsimp only
  rw [hX]
  simp only [hfill]
  refine houtcome.trans ?_
  rw [State.modOrder_modOrder X o.tag (filledWith result) _ fun _ => rfl]
  rfl

/-- The last allowed attempt of a query that ends in silence. -/
theorem State.accountQuery_silent {s : State} (hd : s.orm.TagsDistinct) {o : Order} (ho : o ∈ s.orm.table) {p : Phase} {i allowance : Nat}
    (h : allowance ≤ (o.progress.get p).attempts + 1) :
    s.accountQuery p o i allowance none
      = ((s.houseMissed i).modOrder o.tag fun x => outcomeOf s x p i .atEnd (.miss .noReply)).postAll
          (endNotices o (outcomeOf s o p i .atEnd (.miss .noReply))) :=
  (if_neg (Nat.not_lt.mpr h)).trans (State.outcome_eq hd ho p i .atEnd (.miss .noReply))

/-- An earlier attempt of a query that ends in silence. -/
theorem State.accountQuery_again {s : State} (hd : s.orm.TagsDistinct) {o : Order} (ho : o ∈ s.orm.table) {p : Phase} {i allowance : Nat}
    (h : (o.progress.get p).attempts + 1 < allowance) (c : Cursor) :
    s.accountQuery p o i allowance none
      = (s.modOrder o.tag fun x => attempted s x p i c none).postAll (endNotices o (attempted s o p i c none)) := by
  have hstate : endNotices o (attempted s o p i c none) = [] := endNotices_of_state rfl
  rw [hstate, State.postAll_nil]
  exact (if_pos h).trans (State.modOrder_congr_of hd ho rfl)

/-- Settles O46, by the accounting of the query's attempt and the gap that follows. -/
theorem queriesAreAccounted : Obligations.QueriesAreAccounted := by
  intro s p l ol o i n allowance h hl hon hseg hdist ho hwork hstep hallow hb hi hd
  subst hl
  refine ⟨fun f result answer house v haw hkind hresult hanswer hhouse hv => ?_, fun v hat hall hv => ?_, fun v hat hall hv => ?_⟩
  · obtain ⟨s', hs'⟩ : ∃ s', s' = s.modLine p fun l => l.countStats fun st =>
        { st with repliesAccepted := bump st.repliesAccepted, quality := some f.quality } := ⟨_, rfl⟩
    have hline : s'.line p = { s.line p with stats := { (s.line p).stats with
        repliesAccepted := countUp (s.line p).stats.repliesAccepted, quality := some f.quality } } := by
      rw [hs', State.line_modLine_same]
      rfl
    have hreply : replyOf f = longReply f.bytes := by
      rw [replyOf, if_neg (by rw [hkind]; decide)]
    have hfields : queryResultOf (replyOf f) = some result := by
      rw [hreply, longReply, hresult]
      unfold queryResultOf
      dsimp only
      rw [marginOf_eq, BitVec.msb_eq_decide]
      rfl
    have hmargin : (replyOf f).margin = (byteAt f.bytes 15).toNat % 64 := by
      rw [hreply, longReply, LineReply.margin, marginOf_eq]
    have hon' : (s'.line p).onLine = some ol := by rw [hline]; exact hon
    have hdist' : s'.orm.Distinct := by rw [hs']; exact hdist
    have hd' : s'.dir.Sound := by rw [hs']; exact hd
    have ho' : o ∈ s'.orm.table := by rw [hs']; exact ho
    have hX : s'.houseReplied i (replyOf f).margin = (withHouse s' i house).postAll (healthNotices i h house) := by
      rw [hmargin, hhouse, hs']
      exact State.houseReplied_eq (s := s.modLine p _) hd hi _
    have hsame : SameHouses s' ((withHouse s' i house).postAll (healthNotices i h house)) := by
      rw [← hX]
      exact s'.houseReplied_same i (replyOf_margin f)
    have hanswered : s'.answeredWork p (some (replyOf f)) = some (.order o.tag) := by
      rw [State.answeredWork, hon', Option.map_some, hwork]
    have hdir : (withHouse s' i house).dir.Sound := by
      have h := hsame.sound hd'
      rwa [State.postAll_dir] at h
    have hacc := State.account_query (p := p) hdist'.tags ho' hwork hstep hallow hb (some (replyOf f))
    rw [State.accountQuery_answered hdist'.tags ho' hfields hX (State.postAll_orm _ _) (State.postAll_now _ _) hsame,
      State.modOrder_postAll, ← State.postAll_append] at hacc
    have hF : SlotChange p fun x => outcomeOf s' (filledWith result x) p i .atEnd .confirmed :=
      (SlotChange.filled p result).comp (.outcomeOf s' p i .atEnd .confirmed)
    refine ⟨s'.gap p (some (replyOf f)), by rw [exec_lineFrameTaken, State.takeFrame_awaited haw, hs'], ?_⟩
    have hY : Selectable (withHouse s' i house) p := ⟨hdist'.tags, hdist'.oneServes p, hdir⟩
    refine State.gap_accounted hY ho' hon' hwork rfl rfl hF hacc hanswered
      (.inr (.inl (outcomeOf_cursor _ _ _ _ _ _))) ?_
    rw [hv, hanswer, hline, hs', accounted_counted]
    rfl
  · refine ⟨s.gap p none, State.exec_plannedEnd hon hseg hat, ?_⟩
    have hacc := State.account_query (p := p) hdist.tags ho hwork hstep hallow hb none
    rw [State.accountQuery_silent hdist.tags ho hall, State.houseMissed_eq hd hi, State.modOrder_postAll, ← State.postAll_append] at hacc
    have hdir : (withHouse s i (unheard h)).dir.Sound := by
      have hs := (s.updateHouse_same i House.healthOnly_missed).sound hd
      rwa [show s.updateHouse i _ = _ from State.houseMissed_eq hd hi, State.postAll_dir] at hs
    have hY : Selectable (withHouse s i (unheard h)) p := ⟨hdist.tags, hdist.oneServes p, hdir⟩
    exact State.gap_accounted hY ho hon hwork rfl rfl (.outcomeOf s p i .atEnd (.miss .noReply)) hacc rfl
      (.inr (.inl (outcomeOf_cursor _ _ _ _ _ _))) hv
  · refine ⟨s.gap p none, State.exec_plannedEnd hon hseg hat, ?_⟩
    have hacc := State.account_query (p := p) hdist.tags ho hwork hstep hallow hb none
    rw [State.accountQuery_again hdist.tags ho hall .atEnd] at hacc
    have hY := hdist.selectable hd p
    have hF := SlotChange.attempted s p i .atEnd none
    have hstart := State.endSlot_accounted (H := []) hY.tags ho hon hwork rfl rfl hF hacc
    obtain ⟨hgives, -⟩ := State.gap_of_accounted (answered := none) (hstart.trans hv.symm) rfl (hv ▸ accounted_selectable hY hF)
    exact ⟨hgives, fun hphase => (State.gap_accounted (H := []) (answered := none) hY ho hon hwork rfl rfl hF hacc rfl
      (.inr (.inr ⟨i, h, hb, hi, hphase⟩)) hv).2⟩

end Sys2Proof.Machine
end

section
/-! PROOF. The adoption check of every record: what it leaves alone, that no candidate is due after it, and that it is the ADOPTION row
for one record after another (R118 to R120). -/

namespace Sys2Proof.Machine

/-! ### What adoptions and restores may change -/

/-- A record with another adoption mark. -/
def remarked (x : Order) (m : Option Mark) : Order := { x with mark := m }

/-- A STANDING notice. -/
def Notice.IsStanding (n : Notice) : Prop := ∃ g value tag cause, n = .standing g value tag cause

/-- The state with other adoption marks and other standing records. -/
def State.marked (s : State) (mark : Order → Order) (standing : Vector Standing 16) : State :=
  { withTable s (s.orm.table.map mark) with rfs := { s.rfs with standing := standing } }

/-- Adoption marks, standing records and STANDING notices are all that adoptions and restores change. -/
def AdoptsTo (s t : State) : Prop :=
  ∃ (mark : Order → Order) (standing : Vector Standing 16) (notices : List Notice),
    (∀ o, ∃ m, mark o = remarked o m) ∧ (∀ n ∈ notices, n.IsStanding) ∧ t = (s.marked mark standing).postAll notices

theorem AdoptsTo.refl (s : State) : AdoptsTo s s :=
  ⟨id, s.rfs.standing, [], fun o => ⟨o.mark, rfl⟩, List.forall_mem_nil _, by
    unfold State.marked
    rw [List.map_id]
    rfl⟩

theorem State.marked_postAll (s : State) (mark : Order → Order) (standing : Vector Standing 16) (l : List Notice) :
    (s.postAll l).marked mark standing = (s.marked mark standing).postAll l :=
  State.postAll_commute (f := fun s => s.marked mark standing) (fun _ _ => rfl) s l

theorem AdoptsTo.trans {s t u : State} (h : AdoptsTo s t) (h' : AdoptsTo t u) : AdoptsTo s u := by
  obtain ⟨mark, standing, notices, hmark, hnotices, rfl⟩ := h
  obtain ⟨mark', standing', notices', hmark', hnotices', rfl⟩ := h'
  refine ⟨fun o => mark' (mark o), standing', notices ++ notices', fun o => ?_, fun n hn => ?_, ?_⟩
  · obtain ⟨m, hm⟩ := hmark o
    obtain ⟨m', hm'⟩ := hmark' (mark o)
    exact ⟨m', by show mark' (mark o) = _; rw [hm', hm]; rfl⟩
  · exact (List.mem_append.mp hn).elim (hnotices n) (hnotices' n)
  · rw [State.marked_postAll, State.postAll_append]
    unfold State.marked
    rw [show (fun o => mark' (mark o)) = mark' ∘ mark from rfl, ← List.map_map]
    rfl

theorem AdoptsTo.withMark (s : State) (tag : Tag) (m : Mark) : AdoptsTo s (withMark s tag m) :=
  ⟨fun o => if o.tag = tag then { o with mark := some m } else o, s.rfs.standing, [], fun o => by
    by_cases h : o.tag = tag
    · exact ⟨some m, if_pos h⟩
    · exact ⟨o.mark, if_neg h⟩, List.forall_mem_nil _, rfl⟩

theorem AdoptsTo.withStanding (s : State) (g : Fin 16) (x : Standing) : AdoptsTo s (withStanding s g x) :=
  ⟨id, s.rfs.standing.set g x, [], fun o => ⟨o.mark, rfl⟩, List.forall_mem_nil _, by
    unfold State.marked
    rw [List.map_id]
    rfl⟩

theorem AdoptsTo.post (s : State) {n : Notice} (h : n.IsStanding) : AdoptsTo s (s.post n) :=
  ⟨id, s.rfs.standing, [n], fun o => ⟨o.mark, rfl⟩, fun k hk => List.mem_singleton.mp hk ▸ h, by
    unfold State.marked
    rw [List.map_id]
    rfl⟩

theorem State.restoreIfDue_adopts (s : State) (g : Fin 16) : AdoptsTo s (s.restoreIfDue g) := by
  unfold State.restoreIfDue
  dsimp only
  split
  · split
    · exact (AdoptsTo.withStanding s g _).trans (.post _ ⟨_, _, _, _, rfl⟩)
    · exact .refl s
  · exact .refl s

theorem State.adopted_adopts (s : State) (o : Order) (g : Fin 16) (value : PartValue) : AdoptsTo s (s.adopted o g value) :=
  ((AdoptsTo.withStanding s g _).trans (.withMark _ o.tag .adopted)).trans (.post _ ⟨_, _, _, _, rfl⟩)

theorem State.adoptOrder_adopts (s : State) (o : Order) : AdoptsTo s (s.adoptOrder o) := by
  cases hb : o.body.partValue with
  | none =>
    unfold State.adoptOrder
    rw [hb]
    exact .refl s
  | some part =>
    obtain ⟨g, value⟩ := part
    by_cases hn : (s.standing g).newerStands o.body o.tag = true
    · rw [State.adoptOrder_passed hb hn]
      exact .withMark s o.tag .passed
    · rw [State.adoptOrder_adopted hb hn]
      cases value with
      | band b => exact s.adopted_adopts o g (.band b)
      | relay v => exact (s.adopted_adopts o g (.relay v)).trans (State.restoreIfDue_adopts _ g)

theorem State.adoptIfDue_adopts (s : State) (tag : Tag) : AdoptsTo s (s.adoptIfDue tag) := by
  unfold State.adoptIfDue
  split
  · split
    · exact s.adoptOrder_adopts _
    · exact .refl s
  · exact .refl s

/-! ### What stands through them -/

section
variable {s t : State} (h : AdoptsTo s t)
include h

theorem AdoptsTo.dir : t.dir = s.dir := by obtain ⟨_, _, _, -, -, rfl⟩ := h; exact State.postAll_dir _ _
theorem AdoptsTo.lines : t.lines = s.lines := by obtain ⟨_, _, _, -, -, rfl⟩ := h; exact State.postAll_lines _ _
theorem AdoptsTo.mtb : t.mtb = s.mtb := by obtain ⟨_, _, _, -, -, rfl⟩ := h; exact State.postAll_mtb _ _
theorem AdoptsTo.scs : t.scs = s.scs := by obtain ⟨_, _, _, -, -, rfl⟩ := h; exact State.postAll_scs _ _
theorem AdoptsTo.params : t.params = s.params := by obtain ⟨_, _, _, -, -, rfl⟩ := h; exact State.postAll_params _ _
theorem AdoptsTo.pending : t.pending = s.pending := by obtain ⟨_, _, _, -, -, rfl⟩ := h; exact State.postAll_pending _ _
theorem AdoptsTo.picks : t.picks = s.picks := by
  obtain ⟨_, _, _, -, -, rfl⟩ := h
  exact State.postAll_keeps (g := fun s => s.picks) (fun _ _ => rfl) _ _
theorem AdoptsTo.now : t.now = s.now := congrArg (fun m : Mtb => m.clock.seconds) h.mtb
theorem AdoptsTo.queues : t.rfs.queues = s.rfs.queues := by
  obtain ⟨_, _, _, -, -, rfl⟩ := h
  rw [State.postAll_rfs]
  rfl

theorem AdoptsTo.orm : ∃ mark : Order → Order, (∀ o, ∃ m, mark o = remarked o m)
    ∧ t.orm = { s.orm with table := s.orm.table.map mark } := by
  obtain ⟨mark, _, _, hmark, -, rfl⟩ := h
  exact ⟨mark, hmark, State.postAll_orm _ _⟩

theorem AdoptsTo.unmarked : t.orm.table.map unmarked = s.orm.table.map unmarked := by
  obtain ⟨mark, hmark, horm⟩ := h.orm
  rw [horm, List.map_map]
  refine List.map_congr_left fun o _ => ?_
  obtain ⟨m, hm⟩ := hmark o
  rw [Function.comp_apply, hm]
  rfl

theorem AdoptsTo.tags : t.orm.table.map (·.tag) = s.orm.table.map (·.tag) := by
  obtain ⟨mark, hmark, horm⟩ := h.orm
  rw [horm, List.map_map]
  refine List.map_congr_left fun o _ => ?_
  obtain ⟨m, hm⟩ := hmark o
  rw [Function.comp_apply, hm]
  rfl

theorem AdoptsTo.mem {x : Order} (hx : x ∈ t.orm.table) : ∃ y ∈ s.orm.table, ∃ m, x = remarked y m := by
  obtain ⟨mark, hmark, horm⟩ := h.orm
  rw [horm] at hx
  obtain ⟨y, hy, rfl⟩ := List.mem_map.mp hx
  exact ⟨y, hy, hmark y⟩

theorem AdoptsTo.of_mem {y : Order} (hy : y ∈ s.orm.table) : ∃ m, remarked y m ∈ t.orm.table := by
  obtain ⟨mark, hmark, horm⟩ := h.orm
  obtain ⟨m, hm⟩ := hmark y
  refine ⟨m, ?_⟩
  rw [horm, ← hm]
  exact List.mem_map_of_mem hy

end

theorem Rlc.foldl_post (s : State) (l : List Notice) : (s.postAll l).rlc = l.foldl Rlc.post s.rlc :=
  (List.foldl_hom State.rlc fun _ _ => rfl).symm

/-- What posting makes of the link depends on the link alone. -/
theorem State.postAll_rlc_congr {s t : State} (h : s.rlc = t.rlc) (l : List Notice) : (s.postAll l).rlc = (t.postAll l).rlc := by
  rw [Rlc.foldl_post, Rlc.foldl_post, h]

theorem AdoptsTo.rlc {s t : State} (h : AdoptsTo s t) :
    ∃ notices : List Notice, (∀ n ∈ notices, n.IsStanding) ∧ t.rlc = (s.postAll notices).rlc := by
  obtain ⟨mark, standing, notices, -, hnotices, rfl⟩ := h
  exact ⟨notices, hnotices, State.postAll_rlc_congr (s := s.marked mark standing) (t := s) rfl notices⟩

theorem AdoptsTo.selectable {s t : State} (h : AdoptsTo s t) {p : Phase} (hs : Selectable s p) : Selectable t p := by
  refine ⟨hs.tags.of_tags h.tags, fun x hx y hy hxs hys => ?_, h.dir ▸ hs.dir⟩
  obtain ⟨x', hx', m, rfl⟩ := h.mem hx
  obtain ⟨y', hy', m', rfl⟩ := h.mem hy
  exact hs.one x' hx' y' hy' hxs hys

/-! ### No candidate is due after the check (R118) -/

/-- A QUERY is no candidate. -/
def QueriesUnmarked (s : State) : Prop := ∀ o ∈ s.orm.table, o.body.group = none → o.mark ≠ some .pending

theorem Orm.Sound.queriesUnmarked {s : State} (h : s.orm.Sound) : QueriesUnmarked s := by
  intro o ho hg
  obtain ⟨-, -, -, horders⟩ := h
  obtain ⟨-, -, -, -, -, -, -, -, -, hmark, -⟩ := horders o ho
  rw [hmark.mpr hg]
  nofun

theorem State.restoreIfDue_orm (s : State) (g : Fin 16) : (s.restoreIfDue g).orm = s.orm := by
  unfold State.restoreIfDue
  dsimp only
  split
  · split <;> rfl
  · rfl

/-- An adoption's mark on its record. -/
theorem State.adoptOrder_orm (s : State) {o : Order} (h : o.body.group ≠ none) :
    ∃ m, m ≠ .pending ∧ (s.adoptOrder o).orm = (Machine.withMark s o.tag m).orm := by
  cases hb : o.body.partValue with
  | none =>
    cases hbody : o.body with
    | query i => rw [hbody] at h; exact absurd rfl h
    | band g b => rw [hbody] at hb; cases hb
    | relay g v r => rw [hbody] at hb; cases hb
  | some part =>
    obtain ⟨g, value⟩ := part
    by_cases hn : (s.standing g).newerStands o.body o.tag = true
    · exact ⟨.passed, nofun, by rw [State.adoptOrder_passed hb hn]⟩
    · refine ⟨.adopted, nofun, ?_⟩
      rw [State.adoptOrder_adopted hb hn]
      cases value with
      | band b => rfl
      | relay v => exact State.restoreIfDue_orm _ _

/-- A candidate that is due after the check of a record was due before it, and is another record. -/
theorem State.due_of_adoptIfDue {s : State} (htags : s.orm.TagsDistinct) (hq : QueriesUnmarked s) {tag : Tag} {x : Order}
    (hx : x ∈ (s.adoptIfDue tag).orm.table) (hdue : DueForAdoption x s.now) : x ∈ s.orm.table ∧ x.tag ≠ tag := by
  by_cases hany : ∃ o ∈ s.orm.table, o.tag = tag ∧ DueForAdoption o s.now
  · obtain ⟨o, ho, rfl, hodue⟩ := hany
    obtain ⟨m, hm, horm⟩ := s.adoptOrder_orm fun hg => hq o ho hg hodue.1
    rw [State.adoptIfDue_due htags ho hodue, horm] at hx
    obtain ⟨y, hy, rfl⟩ := List.mem_map.mp hx
    by_cases hyt : y.tag = o.tag
    · rw [if_pos hyt] at hdue
      exact absurd (Option.some.inj hdue.1) hm
    · rw [if_neg hyt]
      exact ⟨hy, hyt⟩
  · have hidle : s.adoptIfDue tag = s := State.adoptIfDue_idle fun o ho ht hd => hany ⟨o, ho, ht, hd⟩
    rw [hidle] at hx
    exact ⟨hx, fun ht => hany ⟨x, hx, ht, hdue⟩⟩

theorem State.adoptIfDue_queriesUnmarked {s : State} (hq : QueriesUnmarked s) (tag : Tag) : QueriesUnmarked (s.adoptIfDue tag) := by
  intro x hx hg
  unfold State.adoptIfDue at hx
  split at hx
  next o ho =>
    split at hx
    next hdue =>
      have hmem := State.findOrder_mem ho
      obtain ⟨m, hm, horm⟩ := s.adoptOrder_orm fun hgo => hq o hmem hgo ((o.adoptable_iff s.now).mp hdue).1
      rw [horm] at hx
      obtain ⟨y, hy, rfl⟩ := List.mem_map.mp hx
      by_cases hyt : y.tag = o.tag
      · rw [if_pos hyt]
        exact fun hp => hm (Option.some.inj hp)
      · rw [if_neg hyt] at hg ⊢
        exact hq y hy hg
    · exact hq x hx hg
  · exact hq x hx hg

/-- The adoption check of the records of several tags. -/
def State.adoptAll (s : State) (tags : List Tag) : State := tags.foldl (fun s tag => s.adoptIfDue tag) s

theorem State.adoptionCheck_eq (s : State) : s.adoptionCheck = s.adoptAll (s.orm.table.map (·.tag)) := by
  rw [State.adoptAll, List.foldl_map]
  rfl

theorem State.adoptAll_adopts (s : State) (tags : List Tag) : AdoptsTo s (s.adoptAll tags) := by
  induction tags generalizing s with
  | nil => exact .refl s
  | cons tag tags ih => exact (s.adoptIfDue_adopts tag).trans (ih _)

theorem State.due_of_adoptAll {s : State} (htags : s.orm.TagsDistinct) (hq : QueriesUnmarked s) {tags : List Tag} {x : Order}
    (hx : x ∈ (s.adoptAll tags).orm.table) (hdue : DueForAdoption x s.now) : x ∈ s.orm.table ∧ x.tag ∉ tags := by
  induction tags generalizing s with
  | nil => exact ⟨hx, nofun⟩
  | cons tag tags ih =>
    have hadopt := s.adoptIfDue_adopts tag
    obtain ⟨hx', hno⟩ := ih (htags.of_tags hadopt.tags) (State.adoptIfDue_queriesUnmarked hq tag) hx (hadopt.now ▸ hdue)
    obtain ⟨hmem, hne⟩ := State.due_of_adoptIfDue htags hq hx' hdue
    exact ⟨hmem, fun h => (List.mem_cons.mp h).elim hne hno⟩

/-- The adoption check leaves no candidate due. -/
theorem State.adoptionCheck_none_due {s : State} (htags : s.orm.TagsDistinct) (hq : QueriesUnmarked s) {x : Order}
    (hx : x ∈ s.adoptionCheck.orm.table) : ¬DueForAdoption x s.now := by
  intro hdue
  rw [State.adoptionCheck_eq] at hx
  obtain ⟨hmem, hno⟩ := State.due_of_adoptAll htags hq hx hdue
  exact hno (List.mem_map_of_mem hmem)

theorem State.adoptAll_idle {s : State} (h : ∀ o ∈ s.orm.table, ¬DueForAdoption o s.now) (tags : List Tag) : s.adoptAll tags = s := by
  induction tags with
  | nil => rfl
  | cons tag tags ih =>
    rw [State.adoptAll, List.foldl_cons, State.adoptIfDue_idle fun o ho _ => h o ho]
    exact ih

theorem State.adoptionCheck_idle {s : State} (h : ∀ o ∈ s.orm.table, ¬DueForAdoption o s.now) : s.adoptionCheck = s := by
  rw [State.adoptionCheck_eq, State.adoptAll_idle h]

theorem State.adoptionCheck_adopts (s : State) : AdoptsTo s s.adoptionCheck := by
  rw [State.adoptionCheck_eq]
  exact s.adoptAll_adopts _

/-! ### The ADOPTION row for one record after another -/

theorem State.adoptAll_carrying (s : State) (x : Receiver) (q : Option Processing) (w : Transmitter) (tags : List Tag) :
    (s.carrying x q w).adoptAll tags = (s.adoptAll tags).carrying x q w :=
  List.foldl_hom (fun s : State => s.carrying x q w) fun s tag => State.adoptIfDue_carrying s x q w tag

theorem State.pump_sending (s : State) (x : Receiver) (q : Option Processing) (out : Outgoing) :
    (s.carrying x q (.sending out)).pump = s.carrying x q (.sending out) := by
  have hchoose : (s.carrying x q (.sending out)).rlc.choose = (s.carrying x q (.sending out)).rlc :=
    Rlc.choose_sending (x := out) rfl
  unfold State.pump
  rw [hchoose]

theorem adoptEach_sending (s : State) (x : Receiver) (q : Option Processing) (out : Outgoing) (tags : List Tag) :
    adoptEach tags (s.carrying x q (.sending out)) = .next ((s.adoptAll tags).carrying x q (.sending out)) := by
  induction tags generalizing s with
  | nil => rfl
  | cons tag tags ih =>
    unfold adoptEach
    rw [exec_adoption, State.adoptIfDue_carrying, State.pump_sending]
    exact ih (s.adoptIfDue tag)

/-- A row while a record is in sending, and the transmitter as it stood. -/
theorem RowLeaves.of_carrying {s t : State} {outcome : Host.Outcome State Fault Refusal} {out : Outgoing}
    (h : outcome = .next (t.carrying s.rlc.receiver s.rlc.processing (.sending out)))
    (ht : t = t.carrying s.rlc.receiver s.rlc.processing s.rlc.transmitter) : RowLeaves outcome s t := by
  refine ⟨_, h, ?_⟩
  conv_lhs => rw [ht]
  rfl

theorem whileSending_eq (s : State) :
    whileSending s = s.carrying s.rlc.receiver s.rlc.processing (.sending (.notice (.quiet true))) := rfl

/-- The adoption check is the ADOPTION row for each record in admission order. -/
theorem State.adoptionCheck_rows (s : State) : AdoptionsFrom s s.adoptionCheck := by
  rw [State.adoptionCheck_eq]
  refine RowLeaves.of_carrying (adoptEach_sending s _ _ _ _) ?_
  rw [← State.adoptAll_carrying, State.carrying_self]

/-! ### Other lines -/

/-- The state with other line controllers. -/
def State.withLines (s : State) (lines : Tri Line) : State := { s with lines := lines }

theorem State.restoreIfDue_withLines (s : State) (lines : Tri Line) (g : Fin 16) :
    (s.withLines lines).restoreIfDue g = (s.restoreIfDue g).withLines lines := by
  unfold State.restoreIfDue
  dsimp only
  rw [show (s.withLines lines).standing g = s.standing g from rfl, show (s.withLines lines).now = s.now from rfl]
  split
  · split <;> rfl
  · rfl

theorem State.adoptIfDue_withLines (s : State) (lines : Tri Line) (tag : Tag) :
    (s.withLines lines).adoptIfDue tag = (s.adoptIfDue tag).withLines lines := by
  unfold State.adoptIfDue
  rw [show (s.withLines lines).findOrder tag = s.findOrder tag from rfl, show (s.withLines lines).now = s.now from rfl]
  split
  next o _ =>
    split
    · cases hb : o.body.partValue with
      | none =>
        unfold State.adoptOrder
        rw [hb]
      | some part =>
        obtain ⟨g, value⟩ := part
        by_cases hn : (s.standing g).newerStands o.body o.tag = true
        · rw [State.adoptOrder_passed hb hn, State.adoptOrder_passed (s := s.withLines lines) hb hn]
          rfl
        · rw [State.adoptOrder_adopted hb hn, State.adoptOrder_adopted (s := s.withLines lines) hb hn]
          cases value with
          | band b => rfl
          | relay v => exact State.restoreIfDue_withLines (s.adopted o g (.relay v)) lines g
    · rfl
  · rfl

theorem State.adoptionCheck_withLines (s : State) (lines : Tri Line) :
    (s.withLines lines).adoptionCheck = s.adoptionCheck.withLines lines := by
  rw [State.adoptionCheck_eq, State.adoptionCheck_eq]
  exact List.foldl_hom (fun s : State => s.withLines lines) fun s tag => State.adoptIfDue_withLines s lines tag

end Sys2Proof.Machine
end

section
/-! PROOF. The end of a broadcast slot: a served refresh, a repeat counted, and the last repeat with its adoption check and the end of the
broadcast stage (R96 to R98, R118, R126). -/

namespace Sys2Proof.Machine

/-! ### What a change of a record makes of its adoption mark -/

/-- A change that neither reads nor changes the adoption mark. -/
def MarkFree (F : Order → Order) : Prop := ∀ x m, F (remarked x m) = remarked (F x) m

theorem MarkFree.comp {F G : Order → Order} (hF : MarkFree F) (hG : MarkFree G) : MarkFree fun x => G (F x) := fun x m =>
  (congrArg G (hF x m)).trans (hG (F x) m)

theorem MarkFree.ite {F G : Order → Order} {c : Order → Prop} [DecidablePred c] (hc : ∀ x m, c (remarked x m) ↔ c x)
    (hF : MarkFree F) (hG : MarkFree G) : MarkFree fun x => if c x then F x else G x := fun x m => by
  by_cases h : c x
  · exact (if_pos ((hc x m).mpr h)).trans ((hF x m).trans (congrArg (remarked · m) (if_pos h).symm))
  · exact (if_neg fun h' => h ((hc x m).mp h')).trans ((hG x m).trans (congrArg (remarked · m) (if_neg h).symm))

theorem MarkFree.progress (p : Phase) (f : Progress → Progress) : MarkFree fun x => x.modProgress p f := fun _ _ => rfl

theorem MarkFree.reportedOrder (now : Nat) : MarkFree fun x => reportedOrder x now :=
  MarkFree.ite (c := fun x => x.state = .running ∧ x.allDone = true) (fun _ _ => Iff.rfl) (fun _ _ => rfl) fun _ _ => rfl

theorem MarkFree.finishedOn (p : Phase) (now : Nat) : MarkFree fun x => finishedOn x p now := by
  simp only [finishedOn_eq]
  exact .ite (c := fun x => (x.progress.get p).stage = .serving ∨ (x.progress.get p).stage = .paused) (fun _ _ => Iff.rfl)
    ((MarkFree.progress p fun pp => { pp with stage := .done }).comp (.reportedOrder now)) fun _ _ => rfl

theorem MarkFree.closedOrder (now : Nat) : MarkFree fun x => closedOrder x now := by
  rintro ⟨⟩ m
  unfold Machine.closedOrder remarked
  dsimp only
  split
  · split
    next h => exact (if_pos h).symm ▸ rfl
    next h => exact (if_neg h).symm ▸ rfl
  · rfl

theorem MarkFree.slotCleared (p : Phase) (now : Nat) : MarkFree fun x => slotCleared x p now := by
  simp only [slotCleared_eq]
  exact (MarkFree.progress p fun pp => { pp with inFlight := false }).comp (.closedOrder now)

/-! ### What a change of a record makes of a due adoption -/

/-- A change that makes no record due for adoption. -/
def DueBack (F : Order → Order) : Prop := ∀ x now, DueForAdoption (F x) now → DueForAdoption x now

theorem DueBack.comp {F G : Order → Order} (hF : DueBack F) (hG : DueBack G) : DueBack fun x => G (F x) :=
  fun x now h => hF x now (hG (F x) now h)

theorem DueBack.progress (p : Phase) {f : Progress → Progress} (hrepeats : ∀ pp, (f pp).repeatsSent = pp.repeatsSent)
    (hstage : ∀ pp, (f pp).stage = .notInvolved → pp.stage = .notInvolved) : DueBack fun x => x.modProgress p f := by
  intro x now h
  obtain ⟨hmark, hstate, hended, htime⟩ : DueForAdoption (x.modProgress p f) now := h
  refine ⟨hmark, hstate, eachPhase_iff.mpr fun q => ?_, htime⟩
  have hq := eachPhase_iff.mp hended q
  by_cases hqp : q = p
  · subst hqp
    rw [Order.modProgress, Tri.get_set_same, hrepeats] at hq
    exact hq.imp_left (hstage _)
  · rwa [Order.modProgress, Tri.get_set_ne _ _ hqp] at hq

theorem DueBack.finishedOn (p : Phase) (now : Nat) : DueBack fun x => finishedOn x p now := by
  have hreported : DueBack fun x => reportedOrder x now := by
    intro x now' h
    dsimp only at h
    unfold reportedOrder at h
    split at h
    next hrun =>
      obtain ⟨hmark, -, hended, htime⟩ := h
      exact ⟨hmark, .inr (.inl hrun.1), hended, htime⟩
    · exact h
  intro x now' h
  dsimp only at h
  rw [finishedOn_eq] at h
  split at h
  next hst =>
    obtain ⟨hmark, hstate, hended, htime⟩ := hreported _ now' h
    refine ⟨hmark, hstate, eachPhase_iff.mpr fun q => ?_, htime⟩
    have hq := eachPhase_iff.mp hended q
    by_cases hqp : q = p
    · subst hqp
      rw [Order.modProgress, Tri.get_set_same] at hq
      exact hq.imp_left nofun
    · rwa [Order.modProgress, Tri.get_set_ne _ _ hqp] at hq
  · exact h

theorem DueBack.slotCleared (p : Phase) (now : Nat) : DueBack fun x => slotCleared x p now := by
  have hclosed : DueBack fun x => closedOrder x now := by
    intro x now' h
    dsimp only at h
    unfold closedOrder at h
    split at h
    next reason hst hcl =>
      split at h
      · exact h
      · obtain ⟨hmark, hstate, hended, htime⟩ := h
        refine ⟨hmark, .inr (.inr (.inr (.inr (.inr ⟨hst, ?_⟩)))), hended, htime⟩
        cases reason with
        | expired => exact hcl
        | superseded => simp [Reason.final] at hstate
        | cancelled => simp [Reason.final] at hstate
    · exact h
  intro x now' h
  dsimp only at h
  rw [slotCleared_eq] at h
  exact (DueBack.progress p (f := fun pp => { pp with inFlight := false }) (fun _ => rfl) fun _ => id) x now' (hclosed _ now' h)

/-! ### The end of the broadcast stage (R97, R98) -/

/-- A record whose sweep has begun on a phase. -/
def sweptOn (s : State) (p : Phase) (g : Fin 16) (c : Cursor) (x : Order) : Order :=
  x.modProgress p fun pp => { pp with expected := membersOn s g p, cursor := c, attempts := 0 }

theorem broadcastDone_eq (s : State) (p : Phase) (g : Fin 16) (c : Cursor) (x : Order) :
    broadcastDone s x p g c
      = if (x.progress.get p).stage = .serving ∨ (x.progress.get p).stage = .paused then
          if x.policy = .none then finishedOn x p s.now
          else if c = .atEnd then finishedOn (sweptOn s p g c x) p s.now else sweptOn s p g c x
        else x := by
  unfold broadcastDone
  cases hp : x.policy with
  | none => rfl
  | all =>
    rw [if_neg (show ¬Policy.all = .none by nofun)]
    rfl

/-- What holds of a record, of one finished, and of one whose sweep has begun, holds at the end of the broadcast stage. -/
theorem broadcastDone_induct {s : State} {p : Phase} {g : Fin 16} {c : Cursor} {P : Order → Prop} {x : Order} (hsame : P x)
    (hfinished : P (finishedOn x p s.now)) (hswept : P (sweptOn s p g c x))
    (hclosed : P (finishedOn (sweptOn s p g c x) p s.now)) : P (broadcastDone s x p g c) := by
  rw [broadcastDone_eq]
  split
  · split
    · exact hfinished
    · split
      · exact hclosed
      · exact hswept
  · exact hsame

theorem SlotChange.sweptOn (s : State) (p : Phase) (g : Fin 16) (c : Cursor) : SlotChange p (sweptOn s p g c) :=
  .progress p (f := fun pp => { pp with expected := membersOn s g p, cursor := c, attempts := 0 }) fun _ => id

theorem SlotChange.broadcastDone (s : State) (p : Phase) (g : Fin 16) (c : Cursor) :
    SlotChange p fun x => broadcastDone s x p g c := by
  have hfin := SlotChange.finishedOn p s.now
  have hswept := SlotChange.sweptOn s p g c
  have hboth := hswept.comp hfin
  exact ⟨fun x => broadcastDone_induct (P := fun y => y.tag = x.tag) rfl (hfin.tag x) (hswept.tag x) (hboth.tag x),
    fun x => broadcastDone_induct (P := fun y => y.body = x.body) rfl (hfin.body x) (hswept.body x) (hboth.body x),
    fun x => broadcastDone_induct (P := fun y => y.state = x.state ∨ y.state ≠ .closing) (.inl rfl) (hfin.state x) (hswept.state x)
      (hboth.state x),
    fun x => broadcastDone_induct (P := fun y => y.servesOn p = true → x.servesOn p = true) id (hfin.serves x) (hswept.serves x)
      (hboth.serves x)⟩

theorem DueBack.broadcastDone (s : State) (p : Phase) (g : Fin 16) (c : Cursor) : DueBack fun x => broadcastDone s x p g c := by
  intro x now
  have hswept : DueBack (sweptOn s p g c) :=
    .progress p (f := fun pp => { pp with expected := membersOn s g p, cursor := c, attempts := 0 }) (fun _ => rfl) fun _ => id
  exact broadcastDone_induct (P := fun y => DueForAdoption y now → DueForAdoption x now) id (DueBack.finishedOn p s.now x now)
    (hswept x now) ((hswept.comp (.finishedOn p s.now)) x now)

theorem MarkFree.broadcastDone (s : State) (p : Phase) (g : Fin 16) (c : Cursor) : MarkFree fun x => broadcastDone s x p g c := by
  have hswept : MarkFree (sweptOn s p g c) := fun _ _ => rfl
  have hall : MarkFree fun x => if c = .atEnd then Machine.finishedOn (sweptOn s p g c x) p s.now else sweptOn s p g c x :=
    .ite (c := fun _ => c = .atEnd) (fun _ _ => Iff.rfl) (hswept.comp (.finishedOn p s.now)) hswept
  simp only [broadcastDone_eq]
  exact .ite (c := fun x => (x.progress.get p).stage = .serving ∨ (x.progress.get p).stage = .paused) (fun _ _ => Iff.rfl)
    (.ite (c := fun x => x.policy = .none) (fun _ _ => Iff.rfl) (.finishedOn p s.now) hall) fun _ _ => rfl

theorem repeated_eq (p : Phase) (x : Order) : repeated x p = x.modProgress p fun pp => { pp with repeatsSent := pp.repeatsSent + 1 } := rfl

theorem SlotChange.repeated (p : Phase) : SlotChange p fun x => repeated x p :=
  .progress p (f := fun pp => { pp with repeatsSent := pp.repeatsSent + 1 }) fun _ => id

/-- The end of the broadcast stage after its adoption check. -/
theorem State.endBroadcast_eq {b : State} {p : Phase} {o : Order} {g : Fin 16} {i : Nat} {c : Cursor} (hb : Selectable b p)
    (ho : o ∈ b.adoptionCheck.orm.table) (hg : o.body.group = some g) (hcur : (o.progress.get p).cursor = .at i)
    (hc : CursorFrom b g p o.direction i c) :
    b.endBroadcast p o.tag
      = (b.adoptionCheck.modOrder o.tag fun x => broadcastDone b x p g c).postAll (endNotices o (broadcastDone b o p g c)) := by
  obtain ⟨a, ha⟩ : ∃ a, a = b.adoptionCheck := ⟨_, rfl⟩
  have hadopts : AdoptsTo b a := ha ▸ b.adoptionCheck_adopts
  have htags : a.orm.TagsDistinct := (hadopts.selectable hb).tags
  have hnow : a.now = b.now := hadopts.now
  rw [← ha] at ho ⊢
  have hdone : ∀ {f : Order → Order}, f o = broadcastDone b o p g c →
      (a.modOrder o.tag f).postAll (endNotices o (f o))
        = (a.modOrder o.tag fun x => broadcastDone b x p g c).postAll (endNotices o (broadcastDone b o p g c)) := fun {f} hf => by
    rw [State.modOrder_congr_of htags ho (g := fun x => broadcastDone b x p g c) hf, hf]
  have hfind := State.findOrder_of_tags htags ho
  unfold State.endBroadcast
  rw [← ha]
  dsimp only
  rw [hfind]
  dsimp only
  by_cases hst : (o.progress.get p).stage = .serving ∨ (o.progress.get p).stage = .paused
  · have hphase := State.phaseDone_of_tags htags ho p
    have hpolicy : (match o.policy, o.body.group with
        | .all, some g => a.beginSweep p o g
        | _, _ => a.phaseDone o.tag p)
          = (a.modOrder o.tag fun x => broadcastDone b x p g c).postAll (endNotices o (broadcastDone b o p g c)) := by
      rw [hg]
      cases hp : o.policy with
      | none =>
        refine hphase.trans (hdone ?_)
        rw [broadcastDone_eq, if_pos hst, if_pos hp, hnow]
      | all =>
        have hpne : ¬o.policy = .none := by rw [hp]; nofun
        have hca : CursorFrom a g p o.direction i c := by
          cases c with
          | atEnd => unfold CursorFrom MemberAt State.house at hc ⊢; rwa [hadopts.dir]
          | _ j => unfold CursorFrom MemberAt State.house at hc ⊢; rwa [hadopts.dir]
        have hmembers : membersOn a g p = membersOn b g p := by rw [membersOn, membersOn, hadopts.dir]
        have hsweep := Progress.beginSweep_eq (hadopts.dir ▸ hb.dir) hcur hca
        rw [hmembers] at hsweep
        dsimp only
        unfold State.beginSweep
        rw [hsweep]
        dsimp only
        have hswept : a.modProgress o.tag p (fun _ => { o.progress.get p with
            expected := membersOn b g p, cursor := c, attempts := 0 }) = a.modOrder o.tag (sweptOn b p g c) :=
          State.modOrder_congr_of htags ho rfl
        rw [hswept]
        by_cases hend : c = .atEnd
        · rw [if_pos hend]
          have hphase' := State.phaseDone_of_tags (State.modOrder_tagsDistinct htags o.tag (f := sweptOn b p g c) fun _ => rfl)
            (State.mem_modOrder ho (sweptOn b p g c)) p
          have hnow' : (a.modOrder o.tag (sweptOn b p g c)).now = b.now := hnow
          have htag : (sweptOn b p g c o).tag = o.tag := rfl
          rw [hnow', htag, State.modOrder_modOrder a o.tag (sweptOn b p g c) _ fun _ => rfl] at hphase'
          refine hphase'.trans (hdone (f := fun x => finishedOn (sweptOn b p g c x) p b.now) ?_)
          rw [broadcastDone_eq, if_pos hst, if_neg hpne, if_pos hend]
        · rw [if_neg hend]
          have hself : endNotices o (sweptOn b p g c o) = [] := endNotices_of_state rfl
          refine Eq.trans ?_ (hdone (f := sweptOn b p g c) ?_)
          · rw [hself, State.postAll_nil]
          · rw [broadcastDone_eq, if_pos hst, if_neg hpne, if_neg hend]
    rcases hst with hst | hst <;> rw [hst] <;> exact hpolicy
  · have hsame : broadcastDone b o p g c = o := by rw [broadcastDone_eq, if_neg hst]
    have hrest := hdone (f := fun x => x) hsame.symm
    rw [endNotices_self, State.modOrder_id, State.postAll_nil] at hrest
    refine Eq.trans ?_ hrest
    split
    next h => exact absurd (.inl h) hst
    next h => exact absurd (.inr h) hst
    · rfl

/-! ### The row -/

/-- A line controller whose SEND has completed: the frame counts as sent, and the transmit enable is released. -/
def sentLine (l : Line) : Line :=
  { l.countStats fun st => { st with framesSent := bump st.framesSent } with txEnable := false }

theorem exec_sendComplete (p : Phase) (s : State) : exec (.sendComplete p) s = .next (s.takeMoveIf p .sendComplete).pump := rfl

theorem State.exec_broadcastEnd {s : State} {p : Phase} {ol : OnLine} (hon : (s.line p).onLine = some ol)
    (hseg : (s.line p).segment = .send) (h : AtOffset s p ol (ol.frame.guard + ol.frame.carrier)) (hreply : ol.frame.replyLen = none) :
    exec (.sendComplete p) s = .next ((s.modLine p sentLine).gap p none).pump := by
  have hmove : ol.frame.moveAfter (s.line p).segment = some (ol.frame.guard + ol.frame.carrier, .sendComplete) := by rw [hseg]; rfl
  have hbroadcast : ol.frame.isBroadcast = true := by rw [Frame.isBroadcast, hreply]; rfl
  rw [exec_sendComplete, State.takeMoveIf_of_due (State.dueMove_of_offset hon hmove h)]
  unfold State.move State.endSend
  dsimp only
  rw [hbroadcast, if_pos rfl]
  rfl

theorem endedLine_sent (l : Line) :
    endedLine (sentLine l) (sentLine l).stats = endedLine l { l.stats with framesSent := countUp l.stats.framesSent } := rfl

theorem State.account_repeat {s : State} (htags : s.orm.TagsDistinct) {p : Phase} {ol : OnLine} {o : Order} {n : Nat} {reply : Option LineReply}
    (ho : o ∈ s.orm.table) (hwork : ol.frame.work = .order o.tag) (hstep : ol.frame.step = .repeatNo n) (hg : o.body.group ≠ none) :
    s.account p ol reply = s.accountRepeat p o := by
  obtain ⟨g, hg⟩ := Option.ne_none_iff_exists'.mp hg
  unfold State.account
  rw [hwork]
  dsimp only
  rw [State.findOrder_of_tags htags ho]
  dsimp only
  rw [hstep, hg]

/-- A slot of a refresh has ended: its group leaves the queue. -/
theorem State.endSlot_refresh {s : State} {p : Phase} {ol : OnLine} {g : Fin 16} (hon : (s.line p).onLine = some ol)
    (hwork : ol.frame.work = .refresh g) (reply : Option LineReply) :
    (s.endSlot p reply).modLine p Line.takeHold
      = withLine (withQueue s p ((s.queue p).filter fun e => decide (e.group ≠ g))) p (endedLine (s.line p) (s.line p).stats) := by
  have hfilter : ((s.queue p).filter fun e => e.group != g) = (s.queue p).filter fun e => decide (e.group ≠ g) :=
    List.filter_congr fun e _ => by
      rw [bne, Bool.eq_iff_iff]
      simp
  unfold State.endSlot
  rw [hon]
  dsimp only
  unfold State.account
  rw [hwork]
  dsimp only
  rw [State.modLine_modLine, State.modLine_eq, State.accountRefresh, hfilter]
  exact congrArg (withLine _ p) (s.line p).takeHold_ended

/-- A state of which only the table changed, with lines that adoptions do not touch. -/
theorem adoptionCheck_modLine (s : State) (p : Phase) (f : Line → Line) :
    (s.modLine p f).adoptionCheck = s.adoptionCheck.modLine p f := by
  have h := s.adoptionCheck_withLines (s.lines.set p (f (s.line p)))
  have hlines : s.adoptionCheck.lines = s.lines := s.adoptionCheck_adopts.lines
  refine h.trans ?_
  unfold State.withLines State.modLine
  rw [hlines]
  rfl

/-- The last repeat of an order has been counted: the adoption check, the end of the broadcast stage, and the gap that follows. -/
theorem State.gap_lastRepeat {s : State} {p : Phase} {ol : OnLine} {o : Order} {n i : Nat} {g : Fin 16} {c : Cursor} {a v : State}
    (hs : Selectable s p) (hon : (s.line p).onLine = some ol) (hwork : ol.frame.work = .order o.tag)
    (hstep : ol.frame.step = .repeatNo n) (ho : o ∈ s.orm.table) (hg : o.body.group = some g)
    (hlast : (o.progress.get p).repeatsSent + 1 = o.repeatCount) (hcur : (o.progress.get p).cursor = .at i)
    (hc : CursorFrom s g p o.direction i c)
    (ha : a = (withTable s (s.orm.table.map fun x => if x.tag = o.tag then repeated x p else x)).adoptionCheck)
    (hv : v = accounted a p (endedLine (s.line p) { (s.line p).stats with framesSent := countUp (s.line p).stats.framesSent }) o.tag
      (fun x => broadcastDone s x p g c) (endNotices o (slotCleared (broadcastDone s (repeated o p) p g c) p s.now))) :
    GapFrom v p none ((s.modLine p sentLine).gap p none) ∧ CountsStand v ((s.modLine p sentLine).gap p none) p o.tag := by
  obtain ⟨b, hb⟩ : ∃ b, b = withTable s (s.orm.table.map fun x => if x.tag = o.tag then repeated x p else x) := ⟨_, rfl⟩
  rw [← hb] at ha
  have hbs : Selectable b p := by
    refine ⟨?_, ?_, by rw [hb]; exact hs.dir⟩
    · rw [hb]
      refine withTable_tagsDistinct (f := fun x => if x.tag = o.tag then repeated x p else x) hs.tags fun x => ?_
      split
      · exact (SlotChange.repeated p).tag x
      · rfl
    · have hback : ∀ z ∈ b.orm.table, z.servesOn p = true → ∃ z' ∈ s.orm.table, z'.servesOn p = true ∧ z.tag = z'.tag := by
        intro z hz hzs
        rw [hb] at hz
        obtain ⟨z', hz', rfl⟩ := List.mem_map.mp hz
        refine ⟨z', hz', ?_⟩
        split at hzs
        next ht =>
          rw [if_pos ht]
          exact ⟨(SlotChange.repeated p).serves _ hzs, rfl⟩
        next ht =>
          rw [if_neg ht]
          exact ⟨hzs, rfl⟩
      intro x hx y hy hxs hys
      obtain ⟨x', hx', hxs', hxt⟩ := hback x hx hxs
      obtain ⟨y', hy', hys', hyt⟩ := hback y hy hys
      rw [hxt, hyt]
      exact hs.one x' hx' y' hy' hxs' hys'
  have hbo : repeated o p ∈ b.orm.table := by
    rw [hb]
    exact List.mem_map.mpr ⟨o, ho, if_pos rfl⟩
  have hadopts : AdoptsTo b a := ha ▸ b.adoptionCheck_adopts
  obtain ⟨m, hm⟩ := hadopts.of_mem hbo
  obtain ⟨o', ho'⟩ : ∃ o', o' = remarked (repeated o p) m := ⟨_, rfl⟩
  rw [← ho'] at hm
  have htag : o'.tag = o.tag := by rw [ho']; rfl
  obtain ⟨Y, hY⟩ : ∃ Y, Y = a.modLine p sentLine := ⟨_, rfl⟩
  have hYcheck : Y = (b.modLine p sentLine).adoptionCheck := by rw [hY, ha, adoptionCheck_modLine]
  have hYs : Selectable Y p := by
    have h := hadopts.selectable hbs
    rw [hY]
    exact ⟨h.tags, h.one, h.dir⟩
  have hYo : o' ∈ Y.orm.table := by rw [hY]; exact hm
  have hline : Y.line p = (s.modLine p sentLine).line p := by
    rw [hY, State.line_modLine_same, State.line_modLine_same]
    refine congrArg sentLine ((congrArg (fun l : Tri Line => l.get p) hadopts.lines).trans ?_)
    rw [hb]
    rfl
  have hnow : Y.now = (s.modLine p sentLine).now := by
    rw [hY]
    refine hadopts.now.trans ?_
    rw [hb]
    rfl
  have hbdone : ∀ x, broadcastDone (b.modLine p sentLine) x p g c = broadcastDone s x p g c := fun x => by rw [hb]; rfl
  have hacc : (s.modLine p sentLine).account p ol none
      = (Y.modOrder o'.tag fun x => broadcastDone s x p g c).postAll ([] ++ endNotices o' (broadcastDone s o' p g c)) := by
    have hrepeat := State.account_repeat (s := s.modLine p sentLine) (p := p) (reply := none) hs.tags ho hwork hstep
      (by rw [hg]; nofun)
    have hcount : (s.modLine p sentLine).modProgress o.tag p (fun pp => { pp with repeatsSent := (o.progress.get p).repeatsSent + 1 })
        = b.modLine p sentLine := by
      rw [hb]
      exact State.modOrder_congr_of (s := s.modLine p sentLine) hs.tags ho (g := fun x => repeated x p) rfl
    have hend := State.endBroadcast_eq (b := b.modLine p sentLine) (p := p) (o := o') (g := g) (i := i) (c := c)
      ⟨hbs.tags, hbs.one, hbs.dir⟩ (hYcheck ▸ hYo) (by rw [ho']; exact hg)
      (by
        have hkeep : (o'.progress.get p).cursor = (o.progress.get p).cursor := by
          rw [ho']
          show ((o.progress.set p { o.progress.get p with repeatsSent := (o.progress.get p).repeatsSent + 1 }).get p).cursor = _
          rw [Tri.get_set_same]
        exact hkeep.trans hcur) (by rw [ho', hb]; exact hc)
    simp only [hbdone] at hend
    rw [hrepeat, State.accountRepeat]
    rw [if_pos hlast, hcount, ← htag, hend, ← hYcheck, List.nil_append]
  have hends : endNotices o' (slotCleared (broadcastDone s o' p g c) p (s.modLine p sentLine).now)
      = endNotices o (slotCleared (broadcastDone s (repeated o p) p g c) p s.now) := by
    have hfree := ((MarkFree.broadcastDone s p g c).comp (.slotCleared p s.now)) (repeated o p) m
    rw [ho']
    refine (congrArg (endNotices (remarked (repeated o p) m)) hfree).trans ?_
    rfl
  have hvacant : o'.body.group ≠ none := by
    rw [ho']
    show o.body.group ≠ none
    rw [hg]
    nofun
  have hgap := State.gap_accounted (H := []) (answered := none) (v := v) hYs hYo (s := s.modLine p sentLine) (ol := ol)
    (by rw [State.line_modLine_same]; exact hon) (by rw [htag]; exact hwork) hnow hline (.broadcastDone s p g c) hacc rfl
    (.inl hvacant) (by
      rw [hends, State.line_modLine_same, endedLine_sent, htag, hY, accounted_modLine, List.nil_append]
      exact hv)
  rwa [htag] at hgap

/-- Settles O43, by the end of a refresh, of a repeat, and of the broadcast stage with its adoption check. -/
theorem broadcastSlotEnds : Obligations.BroadcastSlotEnds := by
  intro s p l l' ol hl hon hseg hat hreply hdist hd hl'
  subst hl
  have hs : Selectable s p := hdist.selectable hd p
  have hexec := State.exec_broadcastEnd hon hseg hat hreply
  have hline : (s.modLine p sentLine).line p = sentLine (s.line p) := State.line_modLine_same _ _ _
  have hon' : ((s.modLine p sentLine).line p).onLine = some ol := by rw [hline]; exact hon
  refine ⟨fun g hwork => ⟨_, hexec, ?_⟩, fun o n v hwork hstep ho hg hmore hv => ⟨_, hexec, ?_⟩,
    fun o n i g c hwork hstep ho hsound hg hlast hcur hc => ?_⟩
  · have hend := State.endSlot_refresh hon' hwork none
    rw [hline, endedLine_sent, ← hl'] at hend
    have hv : ((s.modLine p sentLine).endSlot p none).modLine p Line.takeHold
        = withLine (withQueue s p ((s.queue p).filter fun e => decide (e.group ≠ g))) p l' :=
      hend.trans (withLine_modLine (withQueue s p ((s.queue p).filter fun e => decide (e.group ≠ g))) p sentLine l')
    exact (State.gap_of_accounted hv rfl ⟨hs.tags, hs.one, hs.dir⟩).1
  · have hrepeat := State.account_repeat (s := s.modLine p sentLine) (p := p) (reply := none) hs.tags ho hwork hstep hg
    have hstate : endNotices o (repeated o p) = [] := endNotices_of_state rfl
    have hacc : (s.modLine p sentLine).account p ol none
        = ((s.modLine p sentLine).modOrder o.tag fun x => repeated x p).postAll ([] ++ endNotices o (repeated o p)) := by
      rw [hrepeat, State.accountRepeat, hstate]
      exact (if_neg (by omega)).trans (State.modOrder_congr_of (s := s.modLine p sentLine) hs.tags ho rfl)
    refine State.gap_accounted (H := []) (Y := s.modLine p sentLine) ⟨hs.tags, hs.one, hs.dir⟩ ho hon' hwork rfl rfl (.repeated p) hacc rfl
      (.inl hg) ?_
    rw [hline, endedLine_sent, accounted_modLine, List.nil_append, ← hl']
    exact hv
  · obtain ⟨b, hb⟩ : ∃ b, b = withTable s (s.orm.table.map fun x => if x.tag = o.tag then repeated x p else x) := ⟨_, rfl⟩
    obtain ⟨a, ha⟩ : ∃ a, a = b.adoptionCheck := ⟨_, rfl⟩
    obtain ⟨v, hv⟩ : ∃ v, v = accounted a p l' o.tag (fun x => broadcastDone s x p g c)
        (endNotices o (slotCleared (broadcastDone s (repeated o p) p g c) p s.now)) := ⟨_, rfl⟩
    have hadopts : AdoptsTo b a := ha ▸ b.adoptionCheck_adopts
    have htag : ∀ x : Order, (if x.tag = o.tag then repeated x p else x).tag = x.tag := fun x => by
      split <;> rfl
    have hbtags : b.orm.TagsDistinct := hb ▸ withTable_tagsDistinct hs.tags htag
    have hbq : QueriesUnmarked b := by
      intro x hx hxg
      rw [hb] at hx
      obtain ⟨y, hy, rfl⟩ := List.mem_map.mp hx
      have hy' := Orm.Sound.queriesUnmarked hsound y hy
      split at hxg
      next ht => rw [if_pos ht]; exact hy' hxg
      next ht => rw [if_neg ht]; exact hy' hxg
    have hbnow : b.now = s.now := by rw [hb]; rfl
    have hanow : a.now = s.now := hadopts.now.trans hbnow
    have hvtable : v.orm.table = a.orm.table.map fun x =>
        if x.tag = o.tag then slotCleared (broadcastDone s x p g c) p s.now else x := by
      rw [hv, accounted, State.postAll_orm, hanow]
      rfl
    have hgap := State.gap_lastRepeat (a := a) (v := v) hs hon hwork hstep ho hg hlast hcur hc (by rw [ha, hb]) (by rw [hv, hl'])
    refine ⟨a, v, _, ?_, hv, hexec, hgap.1, hgap.2, ?_, ?_, ?_, ?_, ?_, ?_, ?_, ?_, ?_, ?_⟩
    · rw [← hb, ha]
      exact b.adoptionCheck_rows
    · obtain ⟨mark, hmark, horm⟩ := hadopts.orm
      have hbtable : b.orm.table = s.orm.table.map fun x => if x.tag = o.tag then repeated x p else x := by rw [hb]; rfl
      rw [hvtable, horm]
      dsimp only
      rw [hbtable, List.map_map, List.map_map, List.map_map]
      refine List.map_congr_left fun x _ => ?_
      obtain ⟨m, hm⟩ := hmark (if x.tag = o.tag then repeated x p else x)
      simp only [Function.comp_apply]
      rw [hm]
      by_cases ht : x.tag = o.tag
      · rw [if_pos ht, if_pos ht]
        have hfree := ((MarkFree.broadcastDone s p g c).comp (.slotCleared p s.now)) (repeated x p) m
        have hunmark : unmarked (slotCleared (broadcastDone s (remarked (repeated x p) m) p g c) p s.now)
            = unmarked (slotCleared (broadcastDone s (repeated x p) p g c) p s.now) := by
          refine (congrArg unmarked hfree).trans ?_
          rfl
        exact (congrArg unmarked (if_pos ht)).trans hunmark
      · rw [if_neg ht, if_neg ht]
        have hself : (if (remarked x m).tag = o.tag then slotCleared (broadcastDone s (remarked x m) p g c) p s.now
            else remarked x m) = remarked x m := if_neg ht
        refine (congrArg unmarked hself).trans ?_
        rfl
    · intro x hx hdue
      rw [hvtable] at hx
      obtain ⟨y, hy, rfl⟩ := List.mem_map.mp hx
      have hnone : ¬DueForAdoption y s.now := hbnow ▸ State.adoptionCheck_none_due hbtags hbq (ha ▸ hy)
      split at hdue
      · exact hnone (((DueBack.broadcastDone s p g c).comp (.slotCleared p s.now)) y s.now hdue)
      · exact hnone hdue
    · intro hno
      have hidle : a = b := by
        rw [ha]
        refine State.adoptionCheck_idle fun x hx => ?_
        rw [hb] at hx
        obtain ⟨y, hy, rfl⟩ := List.mem_map.mp hx
        exact hbnow ▸ hno y hy
      rw [hv, accounted, State.postAll_rfs, hidle, hb]
      rfl
    · obtain ⟨notices, hnotices, hrlc⟩ := hadopts.rlc
      refine ⟨notices, hnotices, ?_⟩
      have hbrlc : b.rlc = s.rlc := by rw [hb]; rfl
      rw [hv, accounted, State.postAll_append]
      refine (State.postAll_rlc_congr (t := a) ?_ _).trans ?_
      · rfl
      · exact State.postAll_rlc_congr (hrlc.trans (State.postAll_rlc_congr hbrlc notices)) _
    · have hlines : a.lines = s.lines := hadopts.lines.trans (by rw [hb]; rfl)
      rw [hv, accounted, State.postAll_lines]
      show a.lines.set p l' = s.lines.set p l'
      rw [hlines]
    · rw [hv, accounted, State.postAll_rfs]
      exact hadopts.queues.trans (by rw [hb]; rfl)
    · rw [hv, accounted, State.postAll_dir]
      exact hadopts.dir.trans (by rw [hb]; rfl)
    · rw [hv, accounted, State.postAll_mtb]
      exact hadopts.mtb.trans (by rw [hb]; rfl)
    · rw [hv, accounted, State.postAll_scs]
      exact hadopts.scs.trans (by rw [hb]; rfl)
    · rw [hv, accounted, State.postAll_params]
      exact hadopts.params.trans (by rw [hb]; rfl)

end Sys2Proof.Machine
end

section
/-! PROOF. The admission of an order: supersession as one change, and the record a submission is stored as (R4, R9 to R13). -/

namespace Sys2Proof.Machine

/-! ### Supersession (R13) -/

/-- The records an order of a body supersedes. -/
def supersededIn (table : List Order) (b : OrderBody) : List Order := table.filter fun x => decide (SupersededBy b x)

theorem mem_supersededIn {table : List Order} {b : OrderBody} {x : Order} :
    x ∈ supersededIn table b ↔ x ∈ table ∧ SupersededBy b x := by
  rw [supersededIn, List.mem_filter, decide_eq_true_iff]

/-- The admission says: the superseded records have ended in the table with the new order. -/
theorem admitted_eq {s : State} {o : Order} (hfresh : o.tag ∉ s.orm.table.map (·.tag)) :
    admitted s o = ((s.enlist o).endAll (supersededIn s.orm.table o.body) .superseded).postAll
      (endsOf (supersededIn s.orm.table o.body) .superseded s.now) := by
  have hno : o ∉ supersededIn s.orm.table o.body := fun h => hfresh (List.mem_map_of_mem (mem_supersededIn.mp h).1)
  have htable : ((s.orm.table ++ [o]).map fun x =>
      if x ∈ supersededIn s.orm.table o.body then endedOrder x .superseded s.now else x)
      = (s.orm.table.map fun x => if x ∈ supersededIn s.orm.table o.body then endedOrder x .superseded s.now else x) ++ [o] := by
    rw [List.map_append, List.map_singleton, if_neg hno]
  unfold State.endAll
  rw [show (s.enlist o).orm.table = s.orm.table ++ [o] from rfl, show (s.enlist o).now = s.now from rfl, htable]
  rfl

/-- What one entry of a list alone passes leaves that entry. -/
theorem filter_eq_singleton {α : Type} {l : List α} {p : α → Bool} {y : α} (hl : l.Nodup) (hy : y ∈ l) (hp : p y = true)
    (hone : ∀ x ∈ l, p x = true → x = y) : l.filter p = [y] := by
  refine (List.perm_singleton.mp ((List.perm_ext_iff_of_nodup (hl.filter p) (List.nodup_singleton y)).mpr fun x => ?_))
  rw [List.mem_filter, List.mem_singleton]
  exact ⟨fun h => hone x h.1 h.2, fun h => h ▸ ⟨hy, hp⟩⟩

/-- The search for the superseded record looks for what `SupersededBy` says. -/
theorem supersedes_iff {o x : Order} {g : Fin 16} (hg : o.body.group = some g) (hne : x.tag ≠ o.tag) :
    (x.tag != o.tag && x.body.sameKind o.body && x.body.group == some g && x.state.live) = true ↔ SupersededBy o.body x := by
  simp only [Bool.and_eq_true, bne_iff_ne, ne_eq, hne, not_false_eq_true, true_and, OrderBody.sameKind, beq_iff_eq,
    OrderState.live_iff, SupersededBy, hg, reduceCtorEq]
  exact ⟨fun ⟨⟨hk, hg'⟩, hl⟩ => ⟨hg', hk, hl⟩, fun ⟨hg', hk, hl⟩ => ⟨⟨hk, hg'⟩, hl⟩⟩

theorem State.enlist_tagsDistinct {s : State} (hd : s.orm.TagsDistinct) {o : Order} (hfresh : o.tag ∉ s.orm.table.map (·.tag)) :
    (s.enlist o).orm.TagsDistinct := by
  rw [Orm.TagsDistinct, State.enlist, List.map_append]
  refine List.nodup_append.mpr ⟨hd, by simp, fun a ha b hb hab => hfresh ?_⟩
  obtain rfl : b = o.tag := by simpa using hb
  exact hab ▸ ha

/-- Of the live records of one kind and group there is one at most. -/
theorem SupersededBy.unique {m : Orm} (hd : m.Distinct) {b : OrderBody} {x y : Order} (hx : x ∈ m.table) (hy : y ∈ m.table)
    (hsx : SupersededBy b x) (hsy : SupersededBy b y) : x = y := by
  by_contra hne
  obtain ⟨hgroup, hgx, hkx, hlx⟩ := hsx
  obtain ⟨-, hgy, hky, hly⟩ := hsy
  obtain ⟨-, hkind, -⟩ := hd.apart hx hy hne
  refine hkind ⟨(OrderState.live_iff _).mpr hlx, (OrderState.live_iff _).mpr hly, ?_, hgx ▸ hgroup, hgx.trans hgy.symm⟩
  rw [OrderBody.sameKind, beq_iff_eq, hkx, hky]

theorem supersededIn_eq_nil {table : List Order} {b : OrderBody} (h : ∀ x ∈ table, ¬SupersededBy b x) : supersededIn table b = [] :=
  List.filter_eq_nil_iff.mpr fun x hx => by simpa using h x hx

theorem supersededIn_eq_singleton {m : Orm} (hd : m.Distinct) {b : OrderBody} {y : Order} (hy : y ∈ m.table)
    (hsup : SupersededBy b y) : supersededIn m.table b = [y] :=
  filter_eq_singleton (List.Nodup.of_map _ hd.tags) hy (decide_eq_true hsup) fun _ hx hsx =>
    SupersededBy.unique hd hx hy (of_decide_eq_true hsx) hsup

/-- Admission and supersession are one change. -/
theorem State.enroll_eq {s : State} (hd : s.orm.Distinct) {o : Order} (hfresh : o.tag ∉ s.orm.table.map (·.tag)) :
    s.enroll o = admitted s o := by
  have hne : ∀ x ∈ s.orm.table, x.tag ≠ o.tag := fun x hx he => hfresh (List.mem_map.mpr ⟨x, hx, he⟩)
  have hnone (hsup : (s.enlist o).supersededBy o = none) (hgone : supersededIn s.orm.table o.body = []) :
      s.enroll o = admitted s o := by
    rw [admitted_eq hfresh, hgone, State.endAll_nil, State.enroll, State.supersede, hsup]
    rfl
  cases hg : o.body.group with
  | none =>
    refine hnone (by simp only [State.supersededBy, hg]) (List.eq_nil_iff_forall_not_mem.mpr fun x hx => ?_)
    obtain ⟨-, hgroup, -⟩ := mem_supersededIn.mp hx
    exact hgroup hg
  | some g =>
    cases hfind : (s.enlist o).orm.table.find? fun x =>
        x.tag != o.tag && x.body.sameKind o.body && x.body.group == some g && x.state.live with
    | none =>
      refine hnone (by simp only [State.supersededBy, hg, hfind, Option.map_none])
        (List.eq_nil_iff_forall_not_mem.mpr fun x hx => ?_)
      obtain ⟨hin, hsup⟩ := mem_supersededIn.mp hx
      exact List.find?_eq_none.mp hfind x (List.mem_append_left _ hin) ((supersedes_iff hg (hne x hin)).mpr hsup)
    | some y =>
      have hfound := List.find?_some hfind
      have hmem : y ∈ (s.enlist o).orm.table := List.mem_of_find?_eq_some hfind
      have hytag : y.tag ≠ o.tag := by
        simp only [Bool.and_eq_true, bne_iff_ne] at hfound
        exact hfound.1.1.1
      have hy : y ∈ s.orm.table := (List.mem_append.mp hmem).resolve_right fun h => hytag (by rw [List.mem_singleton.mp h])
      have hsup := (supersedes_iff hg hytag).mp hfound
      have hgone : supersededIn s.orm.table o.body = [] ++ [y] := supersededIn_eq_singleton hd hy hsup
      have hend := State.endOrder_endAll (State.enlist_tagsDistinct hd.tags hfresh) hmem (List.not_mem_nil (a := y))
        ((OrderState.live_iff _).mpr hsup.2.2.2) .superseded
      rw [admitted_eq hfresh, hgone]
      refine Eq.trans ?_ hend
      have hby : (s.enlist o).supersededBy o = some y.tag := by simp only [State.supersededBy, hg, hfind, Option.map_some]
      rw [State.enroll, State.supersede, hby, State.endAll_nil]
      rfl

/-! ### What the admission of an order leaves -/

theorem admitted_orm {s : State} {o : Order} (hfresh : o.tag ∉ s.orm.table.map (·.tag)) :
    (admitted s o).orm =
      { table := (s.orm.table.map fun x => if SupersededBy o.body x then endedOrder x .superseded s.now else x) ++ [o]
        tagCounter := tagAfter o.tag, seqCounter := s.orm.seqCounter + 1, floor := s.orm.floor } := by
  have hno : o ∉ supersededIn s.orm.table o.body := fun h => hfresh (List.mem_map_of_mem (mem_supersededIn.mp h).1)
  have htable : ((s.orm.table ++ [o]).map fun x =>
      if x ∈ supersededIn s.orm.table o.body then endedOrder x .superseded s.now else x)
      = (s.orm.table.map fun x => if SupersededBy o.body x then endedOrder x .superseded s.now else x) ++ [o] := by
    rw [List.map_append, List.map_singleton, if_neg hno]
    congr 1
    refine List.map_congr_left fun x hx => if_congr ?_ rfl rfl
    rw [mem_supersededIn, and_iff_right hx]
  rw [admitted_eq hfresh, State.postAll_orm, ← htable]
  rfl

theorem admitted_line {s : State} {o : Order} (hfresh : o.tag ∉ s.orm.table.map (·.tag)) (p : Phase) :
    (admitted s o).line p = (s.line p).unstaged (supersededIn s.orm.table o.body) := by
  rw [admitted_eq hfresh, State.line, State.postAll_lines]
  exact Tri.get_map ..

section
variable (s : State) (o : Order)

@[simp] theorem admitted_dir : (admitted s o).dir = s.dir := State.postAll_dir _ _
@[simp] theorem admitted_rfs : (admitted s o).rfs = s.rfs := State.postAll_rfs _ _
@[simp] theorem admitted_mtb : (admitted s o).mtb = s.mtb := State.postAll_mtb _ _
@[simp] theorem admitted_scs : (admitted s o).scs = s.scs := State.postAll_scs _ _
@[simp] theorem admitted_params : (admitted s o).params = s.params := State.postAll_params _ _
@[simp] theorem admitted_pending : (admitted s o).pending = s.pending := State.postAll_pending _ _
@[simp] theorem admitted_now : (admitted s o).now = s.now := State.postAll_now _ _

end

/-- An order that has ended SUPERSEDED is no candidate. -/
theorem endedOrder_superseded_not_pending (x : Order) (now : Nat) : (endedOrder x .superseded now).mark ≠ some .pending := by
  unfold endedOrder
  dsimp only
  split
  · nofun
  next h => exact fun hp => h ⟨nofun, hp⟩

/-- Where neither a record nor the new one is due, none is due after the admission. -/
theorem admitted_none_due {s : State} {o : Order} (hfresh : o.tag ∉ s.orm.table.map (·.tag))
    (hs : ∀ x ∈ s.orm.table, ¬DueForAdoption x s.now) (ho : ¬DueForAdoption o s.now) :
    ∀ x ∈ (admitted s o).orm.table, ¬DueForAdoption x (admitted s o).now := by
  rw [admitted_orm hfresh, admitted_now]
  intro x hx hdue
  obtain hx | hx := List.mem_append.mp hx
  · obtain ⟨y, hy, rfl⟩ := List.mem_map.mp hx
    split at hdue
    · exact endedOrder_superseded_not_pending y s.now hdue.1
    · exact hs y hy hdue
  · exact ho (List.mem_singleton.mp hx ▸ hdue)

/-! ### The record a submission is stored as (R4, R11, R12) -/

section
variable {s : State} {f : SubmitFields} {b : Submission}

/-- What a submission asks of repeats, policy and direction. -/
theorem submissionOf_sweep {now : Nat} (h : submissionOf f now = some b) :
    (f.kind = 3 ∧ b = ⟨.query f.target.toNat, 0, .all, .ascending⟩)
      ∨ (f.kind ≠ 3 ∧ f.policy = b.policy.code ∧ f.direction = b.direction.code ∧ b.repeats = min f.repeats.toNat 4) := by
  obtain ⟨-, -, ⟨hk, h⟩ | ⟨hk, h⟩ | ⟨hk, -, hb⟩⟩ := submissionOf_eq_some.mp h
  · obtain ⟨-, hpol, hdirn, -, hrep⟩ := groupSubmission_eq_some.mp h
    exact .inr ⟨by simp [hk], hpol, hdirn, hrep⟩
  · obtain ⟨-, hpol, hdirn, -, hrep⟩ := groupSubmission_eq_some.mp h
    exact .inr ⟨by simp [hk], hpol, hdirn, hrep⟩
  · exact .inl ⟨hk, hb⟩

theorem submissionOf_repeats_eq {now : Nat} (h : submissionOf f now = some b) :
    b.repeats = if f.kind = 3 then 0 else min f.repeats.toNat 4 := by
  obtain ⟨hk, rfl⟩ | ⟨hk, -, -, hrep⟩ := submissionOf_sweep h
  · rw [if_pos hk]
  · rw [if_neg hk, hrep]

theorem submissionOf_policy_iff {now : Nat} (h : submissionOf f now = some b) :
    b.policy = .none ↔ f.kind ≠ 3 ∧ f.policy = 0 := by
  obtain ⟨hk, rfl⟩ | ⟨hk, hpol, -⟩ := submissionOf_sweep h
  · exact ⟨nofun, fun h => absurd hk h.1⟩
  · rw [hpol, Policy.code_eq_zero, and_iff_right hk]

theorem submissionOf_direction_iff {now : Nat} (h : submissionOf f now = some b) :
    b.direction = .descending ↔ f.kind ≠ 3 ∧ f.direction = 1 := by
  obtain ⟨hk, rfl⟩ | ⟨hk, -, hdirn, -⟩ := submissionOf_sweep h
  · exact ⟨nofun, fun h => absurd hk h.1⟩
  · rw [hdirn, Direction.code_eq_one, and_iff_right hk]

theorem submissionOf_mark {now : Nat} (h : submissionOf f now = some b) :
    firstMark b.body = if f.kind = 3 then none else some .pending := by
  obtain ⟨hk, hb⟩ | ⟨hk, g, -, hg⟩ := submissionOf_kind h
  · rw [if_pos hk, hb]
    rfl
  · rw [if_neg hk]
    cases hbody : b.body with
    | query i => rw [hbody] at hg; cases hg
    | _ => rfl

theorem submissionOf_group_eq_none {now : Nat} (h : submissionOf f now = some b) : b.body.group = none ↔ f.kind = 3 := by
  rw [← firstMark_eq, submissionOf_mark h]
  split
  next hk => exact ⟨fun _ => hk, fun _ => rfl⟩
  next hk => exact ⟨nofun, fun h => absurd h hk⟩

theorem Dir.involves_group {d : Dir} {x : OrderBody} {g : Fin 16} (h : x.group = some g) (p : Phase) :
    d.involves x p = d.hasMember g p := by
  cases x <;> cases h <;> rfl

theorem Dir.involves_query (d : Dir) (i : Nat) (p : Phase) : d.involves (.query i) p = true ↔ ∃ h, d.get i = some h ∧ h.phase = p := by
  cases hi : d.get i with
  | none => simp [Dir.involves, hi]
  | some h => simp [Dir.involves, hi]

theorem involves_iff {now : Nat} (h : submissionOf f now = some b) (p : Phase) :
    s.dir.involves b.body p = true ↔ SubmitInvolves s f p := by
  unfold SubmitInvolves
  obtain ⟨hk, hb⟩ | ⟨hk, g, hg, hgroup⟩ := submissionOf_kind h
  · rw [hb, Dir.involves_query, and_iff_right hk, or_iff_right fun h => h.1 hk]
    rfl
  · rw [Dir.involves_group hgroup, Dir.hasMember_iff, and_iff_right hk, or_iff_left fun h => hk h.1, hg]

theorem submissionClamped_eq {now : Nat} (h : submissionOf f now = some b) {o : Order} (ho : o.body = b.body) :
    (if submissionClamped f o then Code.clamped else .ok)
      = if o.expiry = f.expiry.toNat ∧ o.retryLimit = f.retryLimit.toNat
          ∧ (f.kind = 3 ∨ o.repeatCount = f.repeats.toNat) then .ok else .clamped := by
  have hiff : submissionClamped f o = true
      ↔ ¬(o.expiry = f.expiry.toNat ∧ o.retryLimit = f.retryLimit.toNat ∧ (f.kind = 3 ∨ o.repeatCount = f.repeats.toNat)) := by
    unfold submissionClamped
    obtain ⟨hk, hb⟩ | ⟨hk, g, -, hg⟩ := submissionOf_kind h
    · rw [ho, hb]
      simp only [hk, true_or, and_true, Bool.or_false, Bool.or_eq_true, decide_eq_true_iff]
      tauto
    · rw [ho]
      cases hbody : b.body with
      | query i => rw [hbody] at hg; cases hg
      | _ =>
        simp only [hk, false_or, Bool.or_eq_true, decide_eq_true_iff]
        tauto
  rw [if_congr hiff rfl rfl, ite_not]

/-- The phases' progress at admission (Table 1-2). -/
theorem Progress.fresh_eq (involved : Bool) (dirn : Direction) :
    Progress.fresh involved dirn = ⟨(Progress.fresh involved dirn).stage, 0,
      if dirn = .ascending then .at 0 else .at 479, 0, 0, 0, 0, 0, 0, 0, 0, false⟩ := by
  cases dirn <;> rfl

theorem Progress.fresh_involved (dirn : Direction) : (Progress.fresh true dirn).stage = .queued := rfl
theorem Progress.fresh_outside (dirn : Direction) : (Progress.fresh false dirn).stage = .notInvolved := rfl

theorem timeReached_iff : timeReached (submittedEffective f) s.now = true ↔ f.effFlag ≠ 0 ∧ f.effective.toNat ≤ s.now := by
  unfold timeReached
  rw [submittedEffective_eq]
  split
  next h => exact ⟨nofun, fun h' => absurd h h'.1⟩
  next h => exact ⟨fun hr => ⟨h, of_decide_eq_true hr⟩, fun hr => decide_eq_true hr.2⟩

/-- A new order with repeats to send is not due. -/
theorem admittedOrder_not_due (h : submissionOf f s.now = some b) (hmember : ¬SubmitNoMember s f) (tag : Tag)
    (hrep : f.kind = 3 ∨ f.repeats ≠ 0) : ¬DueForAdoption (admittedOrder s f b tag) s.now := by
  rintro ⟨hmark, -, hsent, -⟩
  have hmark' : firstMark b.body = some .pending := hmark
  rw [submissionOf_mark h] at hmark'
  have hk : f.kind ≠ 3 := fun hk => by rw [if_pos hk] at hmark'; cases hmark'
  obtain ⟨p, hp⟩ : ∃ p, SubmitInvolves s f p := by
    unfold SubmitNoMember at hmember
    rw [and_iff_right hk] at hmember
    push Not at hmember
    obtain ⟨e, he, hg⟩ := hmember
    exact ⟨e.2.phase, .inl ⟨hk, e, he, rfl, by simpa using hg⟩⟩
  have hstage := eachPhase_iff.mp hsent p
  rw [admittedOrder_progress, (involves_iff h p).mpr hp] at hstage
  have hcount : 0 = b.repeats := hstage.resolve_left nofun
  rw [submissionOf_repeats_eq h, if_neg hk] at hcount
  have hzero : f.repeats.toNat = 0 := by omega
  exact (hrep.resolve_left hk) (BitVec.eq_of_toNat_eq hzero)

end

end Sys2Proof.Machine
end

section
/-! PROOF. What an ORDER_SUBMIT that passes its six steps admits (R4, R9 to R13, R118). -/

namespace Sys2Proof.Machine

/-! ### Adoptions with a reply owed -/

theorem Rlc.post_receiver (r : Rlc) (n : Notice) : (r.post n).receiver = r.receiver := by
  unfold Rlc.post
  split <;> rfl

theorem Rlc.post_transmitter (r : Rlc) (n : Notice) : (r.post n).transmitter = r.transmitter := by
  unfold Rlc.post
  split <;> rfl

theorem State.postAll_receiver (s : State) (l : List Notice) : (s.postAll l).rlc.receiver = s.rlc.receiver :=
  State.postAll_keeps (g := fun s => s.rlc.receiver) (fun s n => s.rlc.post_receiver n) s l

theorem State.postAll_transmitter (s : State) (l : List Notice) : (s.postAll l).rlc.transmitter = s.rlc.transmitter :=
  State.postAll_keeps (g := fun s => s.rlc.transmitter) (fun s n => s.rlc.post_transmitter n) s l

/-- With a reply owed, a record is in sending: that reply, or what was in sending before. -/
theorem State.owing_carrying (s : State) (rec : Record) (reply : Reply) :
    ∃ out, ∀ t : State, t.rlc.receiver = s.rlc.receiver → t.rlc.transmitter = s.rlc.transmitter →
      t.owing rec reply = t.carrying s.rlc.receiver (some ⟨rec, .owed reply⟩) (.sending out) := by
  cases hw : s.rlc.transmitter with
  | free =>
    refine ⟨.reply reply, fun t hx ht => ?_⟩
    unfold State.owing
    rw [if_pos ht, ← hx]
    rfl
  | sending out =>
    refine ⟨out, fun t hx ht => ?_⟩
    unfold State.owing
    rw [ht, if_neg nofun, ← hx]
    rfl

/-- The ADOPTION rows with a reply owed are the adoption checks before it is owed. -/
theorem adoptEach_owing (s : State) (rec : Record) (reply : Reply) (tags : List Tag) :
    adoptEach tags (s.owing rec reply) = .next ((s.adoptAll tags).owing rec reply) := by
  obtain ⟨out, hout⟩ := s.owing_carrying rec reply
  obtain ⟨notices, -, hrlc⟩ := (s.adoptAll_adopts tags).rlc
  rw [hout s rfl rfl, adoptEach_sending, hout (s.adoptAll tags)]
  · rw [hrlc, State.postAll_receiver]
  · rw [hrlc, State.postAll_transmitter]

/-! ### Admission and the adoption check -/

theorem State.admitOrder_adopts {s : State} (hd : s.orm.Distinct) {o : Order} (hfresh : o.tag ∉ s.orm.table.map (·.tag)) :
    AdoptsTo (admitted s o) (s.admitOrder o) := by
  rw [State.admitOrder_eq, State.enroll_eq hd hfresh]
  split
  · exact .refl _
  · exact State.adoptionCheck_adopts _

/-- The reply to a submission that is admitted. -/
def admissionReply (f : SubmitFields) (o : Order) : Reply :=
  ⟨0xA0,
    if o.expiry = f.expiry.toNat ∧ o.retryLimit = f.retryLimit.toNat
      ∧ (f.kind = 3 ∨ o.repeatCount = f.repeats.toNat) then .ok else .clamped,
    bytes16 o.tag ++ bytes32 o.seq ++ [num8 o.repeatCount, num8 o.retryLimit] ++ num32 o.expiry⟩

/-- A submission that passes the six steps is admitted and answered. -/
theorem exec_orderSubmit_admits {s : State} {f : SubmitFields} (hp : s.rlc.processing = none) (hsite : s.scs.state = .written)
    (hset : s.mtb.clock.isSet = true) (hvacant : ¬SubmitTargetVacant s f) (hexpiry : s.now < f.expiry.toNat)
    (hmember : ¬SubmitNoMember s f) (hlen : s.orm.table.length < 32) {b : Submission} (hb : submissionOf f s.now = some b)
    {o : Order} (ho : o = admittedOrder s f b s.orm.freeTag) :
    exec (.orderSubmit f) s = .next ((s.admitOrder o).owing (requestRecord (.orderSubmit f)) (admissionReply f o)) := by
  have hhandle := handleOrderSubmit_of_inRange hsite hset hb
  rw [if_neg fun h => hvacant ((targetVacant_iff hb).mp h), if_neg (Nat.not_le.mpr hexpiry),
    if_neg fun h => hmember ((noMembers_iff hb).mp h),
    if_neg (show ¬Config.orderCapacity ≤ s.orm.table.length from Nat.not_le.mpr hlen), ← ho] at hhandle
  rw [admissionReply, ← submissionClamped_eq hb (o := o) (ho ▸ rfl)]
  refine (exec_orderSubmit hp hhandle).trans ?_
  rw [ho]
  rfl

/-- Settles O25, by admission and supersession as one change, and the adoption check after it. -/
theorem submitAdmits : Obligations.SubmitAdmits := by
  intro s f hp hsound hdist hsite hset hrange hvacant hexpiry hmember hlen
  obtain ⟨b, hb⟩ := (exists_submission_iff f s.now).mpr hrange
  obtain ⟨o, ho⟩ : ∃ o, o = admittedOrder s f b s.orm.freeTag := ⟨_, rfl⟩
  obtain ⟨k, htag, hused, hfree⟩ := Orm.freeTag_spec (m := s.orm) (by omega)
  have hotag : o.tag = s.orm.freeTag := by rw [ho]; rfl
  have hfresh : o.tag ∉ s.orm.table.map (·.tag) := hotag ▸ hfree
  have hbody : o.body = b.body := by rw [ho]; rfl
  have hmark : o.mark = if f.kind = 3 then none else some .pending := by
    rw [ho, ← submissionOf_mark hb]
    rfl
  have hquery : o.body.group = none ↔ f.kind = 3 := hbody ▸ submissionOf_group_eq_none hb
  have hprogress : ∀ p, o.progress.get p = .fresh (s.dir.involves b.body p) b.direction := fun p => by
    rw [ho, admittedOrder_progress]
  have hadopts := State.admitOrder_adopts hdist hfresh
  have hsettled : s.admitOrder o = if o.body.group = none then admitted s o else (admitted s o).adoptionCheck := by
    rw [State.admitOrder_eq, State.enroll_eq hdist hfresh]
  have hkept : (admitted s o).orm.WellKept := by
    rw [← State.enroll_eq hdist hfresh, ho]
    exact State.enroll_wellKept ⟨hsound, hdist⟩ hb hlen
  have horm := admitted_orm hfresh
  obtain ⟨mark, -, hormt⟩ := hadopts.orm
  have hline : ∀ p, (s.admitOrder o).line p = (s.line p).unstaged (supersededIn s.orm.table o.body) := fun p => by
    rw [State.line, hadopts.lines]
    exact admitted_line hfresh p
  have hexec := exec_orderSubmit_admits hp hsite hset hvacant hexpiry hmember hlen hb ho
  refine ⟨_, o, _, hexec, ?_, ⟨k, hotag.trans htag, fun x hx he => hfresh (List.mem_map.mpr ⟨x, hx, he⟩), fun j hj => ?_⟩,
    ?_, by rw [ho]; rfl, ?_, ?_, hbody ▸ submissionOf_body hb, by rw [ho]; rfl,
    by rw [ho]; exact submittedEffective_eq f, by rw [ho]; rfl, by rw [ho]; exact submissionOf_repeats_eq hb, by rw [ho]; rfl,
    by rw [ho]; exact submissionOf_policy_iff hb, by rw [ho]; exact submissionOf_direction_iff hb, by rw [ho]; exact timeReached_iff,
    by rw [ho]; rfl, by rw [ho]; rfl, by rw [ho]; rfl, by rw [ho]; rfl, by rw [ho]; rfl, by rw [ho]; rfl,
    fun p hin => ?_, fun p hout => ?_, fun p => ?_, fun p hno => ?_, fun p x hx hsup => ?_,
    hadopts.dir.trans (admitted_dir s o), hadopts.mtb.trans (admitted_mtb s o), hadopts.scs.trans (admitted_scs s o),
    hadopts.params.trans (admitted_params s o), hadopts.pending.trans (admitted_pending s o), fun p => ?_, fun hnone hrep => ?_,
    fun hk x hx hdue => ?_, fun u hu => ⟨fun hk => ?_, fun hk => ?_⟩, rfl, ?_⟩
  · refine hadopts.unmarked.trans ?_
    rw [horm, List.map_append, List.map_map]
    rfl
  · exact List.mem_map.mp (hused j hj)
  · show (s.admitOrder o).orm.tagCounter = tagAfter o.tag
    rw [hormt, horm]
  · show (s.admitOrder o).orm.seqCounter = s.orm.seqCounter + 1
    rw [hormt, horm]
  · show (s.admitOrder o).orm.floor = s.orm.floor
    rw [hormt, horm]
  · rw [hprogress, (involves_iff hb p).mpr hin]
    rfl
  · rw [hprogress, Bool.eq_false_iff.mpr fun h => hout ((involves_iff hb p).mp h)]
    rfl
  · have hdirn : o.direction = b.direction := by rw [ho]; rfl
    rw [hprogress, hdirn]
    exact Progress.fresh_eq _ _
  · refine (hline p).trans ?_
    rw [supersededIn_eq_nil hno, Line.unstaged_nil]
  · refine (hline p).trans ?_
    rw [supersededIn_eq_singleton hdist hx hsup, ← List.nil_append [x], Line.unstaged_append, Line.unstaged_nil]
  · refine (congrArg (fun q : Tri (List QueueEntry) => q.get p) hadopts.queues).trans ?_
    rw [admitted_rfs]
    rfl
  · have hidle : s.admitOrder o = admitted s o := by
      rw [hsettled]
      split
      · rfl
      · exact State.adoptionCheck_idle (admitted_none_due hfresh hnone (ho ▸ admittedOrder_not_due hb hmember _ hrep))
    refine ⟨?_, hmark, ?_⟩
    · show (s.admitOrder o).rfs = s.rfs
      rw [hidle, admitted_rfs]
    · show (s.admitOrder o).orm.table = _
      rw [hidle, horm]
  · have hx' : x ∈ (s.admitOrder o).orm.table := hx
    rw [hsettled, if_neg fun h => hk (hquery.mp h)] at hx'
    refine State.adoptionCheck_none_due hkept.distinct.tags hkept.sound.queriesUnmarked hx' ?_
    rwa [admitted_now]
  · rw [hu, ← hmark, hsettled, if_pos (hquery.mpr hk)]
    rfl
  · rw [hu, ← hmark, hsettled, if_neg fun h => hk (hquery.mp h), State.adoptionCheck_eq]
    exact adoptEach_owing _ _ _ _
  · obtain ⟨notices, hnotices, hrlc⟩ := hadopts.rlc
    refine ⟨notices, hnotices, ?_⟩
    unfold State.owing
    rw [hrlc]
    rfl

end Sys2Proof.Machine
end

section
/-! PROOF. The checks of a clock reading as one merged list of pieces of work (R119, R120, R137, R138). -/

namespace Sys2Proof.Machine

/-! ### Pieces of work that find nothing to do -/

/-- The state with another count of free picks. -/
def State.withPicks (s : State) (n : Nat) : State := { s with picks := n }

theorem State.runCheck_idle {s : State} {c : Check} (h : s.checkDue c = false) : s.runCheck c = s := by
  cases c with
  | expire tag =>
    show s.expireIfDue tag = s
    unfold State.expireIfDue
    split
    next o ho => exact if_neg (by simpa [State.checkDue, ho] using h)
    · rfl
  | adopt tag =>
    show s.adoptIfDue tag = s
    unfold State.adoptIfDue
    split
    next o ho => exact if_neg (by simpa [State.checkDue, ho] using h)
    · rfl
  | restore g =>
    refine State.restoreIfDue_idle ?_
    cases hr : (s.standing g).relay with
    | none => exact .inl rfl
    | some x =>
      refine .inr fun r hu => ?_
      rw [Option.mem_def] at hu
      simpa [State.checkDue, hr, hu] using h
  | fire g =>
    show s.fireIfDue g = s
    cases hn : (s.standing g).nextRefresh with
    | none => exact State.fireIfDue_none hn
    | some t => exact State.fireIfDue_later hn (by simpa [State.checkDue, State.fireDue, hn] using h)

theorem State.firstDue_eq_some {s : State} {l l' : List Check} {c : Check} (h : s.firstDue l = some (c, l')) :
    ∃ idle, l = idle ++ c :: l' ∧ ∀ x ∈ idle, s.checkDue x = false := by
  induction l with
  | nil => cases h
  | cons x l ih =>
    unfold State.firstDue at h
    split at h
    · cases h
      exact ⟨[], rfl, List.forall_mem_nil _⟩
    next hx =>
      obtain ⟨idle, rfl, hidle⟩ := ih h
      exact ⟨x :: idle, rfl, List.forall_mem_cons.mpr ⟨Bool.eq_false_iff.mpr hx, hidle⟩⟩

theorem State.firstDue_eq_none {s : State} {l : List Check} (h : s.firstDue l = none) : ∀ x ∈ l, s.checkDue x = false := by
  induction l with
  | nil => exact List.forall_mem_nil _
  | cons x l ih =>
    unfold State.firstDue at h
    split at h
    · cases h
    next hx => exact List.forall_mem_cons.mpr ⟨Bool.eq_false_iff.mpr hx, ih h⟩

/-- A merge step takes the first due piece of one of the lists. -/
theorem State.mem_mergeChoices {s : State} {ls : List (List Check)} {m : Merge} (h : m ∈ s.mergeChoices ls) :
    ∃ before idle rest after, ls = before ++ (idle ++ m.1 :: rest) :: after ∧ m.2 = before ++ rest :: after
      ∧ ∀ x ∈ idle, s.checkDue x = false := by
  induction ls generalizing m with
  | nil => cases h
  | cons l ls ih =>
    unfold State.mergeChoices at h
    obtain h | h := List.mem_append.mp h
    · split at h
      next c rest hfirst =>
        obtain rfl := List.mem_singleton.mp h
        obtain ⟨idle, rfl, hidle⟩ := State.firstDue_eq_some hfirst
        exact ⟨[], idle, rest, ls, rfl, rfl, hidle⟩
      · cases h
    · obtain ⟨m', hm', rfl⟩ := List.mem_map.mp h
      obtain ⟨before, idle, rest, after, hls, hrest, hidle⟩ := ih hm'
      exact ⟨l :: before, idle, rest, after, by rw [hls]; rfl, by rw [hrest]; rfl, hidle⟩

theorem State.mergeChoices_eq_nil {s : State} {ls : List (List Check)} (h : s.mergeChoices ls = []) :
    ∀ x ∈ ls.flatten, s.checkDue x = false := by
  induction ls with
  | nil => exact List.forall_mem_nil _
  | cons l ls ih =>
    unfold State.mergeChoices at h
    obtain ⟨hfirst, hrest⟩ := List.append_eq_nil_iff.mp h
    rw [List.flatten_cons]
    refine List.forall_mem_append.mpr ⟨State.firstDue_eq_none ?_, ih (List.map_eq_nil_iff.mp hrest)⟩
    split at hfirst
    · cases hfirst
    next hnone => exact hnone

/-! ### Pieces of work one after another -/

/-- Pieces of work done one after another, with picks made between them. -/
inductive ChecksRun : List Check → State → State → Prop
  | nil (s : State) (n : Nat) : ChecksRun [] s (s.withPicks n)
  | cons {c : Check} {l : List Check} {s t : State} (n : Nat) (h : ChecksRun l ((s.withPicks n).runCheck c) t) :
      ChecksRun (c :: l) s t

theorem ChecksRun.of_withPicks {l : List Check} {s t : State} {n : Nat} (h : ChecksRun l (s.withPicks n) t) : ChecksRun l s t := by
  cases h with
  | nil _ m => exact .nil s m
  | cons m h => exact .cons m h

theorem ChecksRun.idle {l idle : List Check} {s t : State} (hidle : ∀ x ∈ idle, s.checkDue x = false) (h : ChecksRun l s t) :
    ChecksRun (idle ++ l) s t := by
  induction idle with
  | nil => exact h
  | cons c idle ih =>
    obtain ⟨hc, hrest⟩ := List.forall_mem_cons.mp hidle
    refine .cons s.picks ?_
    rw [show s.withPicks s.picks = s from rfl, State.runCheck_idle hc]
    exact ih hrest

/-- Pieces of different lists are of different kinds. -/
def SeparateKinds (ls : List (List Check)) : Prop := ls.Pairwise fun a b => ∀ x ∈ a, ∀ y ∈ b, checkKind x ≠ checkKind y

theorem SeparateKinds.rest {before after : List (List Check)} {done rest : List Check}
    (h : SeparateKinds (before ++ (done ++ rest) :: after)) : SeparateKinds (before ++ rest :: after) := by
  unfold SeparateKinds at h ⊢
  rw [List.pairwise_append, List.pairwise_cons] at h ⊢
  obtain ⟨hbefore, ⟨hrest, hafter⟩, hacross⟩ := h
  refine ⟨hbefore, ⟨fun b hb x hx => hrest b hb x (List.mem_append_right _ hx), hafter⟩, fun a ha b hb x hx => ?_⟩
  obtain rfl | hb := List.mem_cons.mp hb
  · exact fun y hy => hacross a ha _ List.mem_cons_self x hx y (List.mem_append_right _ hy)
  · exact hacross a ha b (List.mem_cons_of_mem _ hb) x hx

/-- The pieces of one kind are taken in the order of their list. -/
theorem SeparateKinds.filter {before after : List (List Check)} {done rest : List Check}
    (h : SeparateKinds (before ++ (done ++ rest) :: after)) (k : Nat) :
    done.filter (fun c => checkKind c = k) ++ (before ++ rest :: after).flatten.filter (fun c => checkKind c = k)
      = (before ++ (done ++ rest) :: after).flatten.filter fun c => checkKind c = k := by
  simp only [List.flatten_append, List.flatten_cons, List.filter_append, List.append_assoc]
  by_cases hk : done.filter (fun c => checkKind c = k) = []
  · rw [hk, List.nil_append, List.nil_append]
  · obtain ⟨y, hy⟩ := List.exists_mem_of_ne_nil _ hk
    obtain ⟨hydone, hyk⟩ := List.mem_filter.mp hy
    have hbefore : before.flatten.filter (fun c => checkKind c = k) = [] := by
      refine List.filter_eq_nil_iff.mpr fun x hx hxk => ?_
      obtain ⟨a, ha, hxa⟩ := List.mem_flatten.mp hx
      have hacross := (List.pairwise_append.mp h).2.2 a ha _ List.mem_cons_self x hxa y (List.mem_append_left _ hydone)
      exact hacross ((of_decide_eq_true hxk).trans (of_decide_eq_true hyk).symm)
    rw [hbefore, List.nil_append, List.nil_append]

theorem getD_mod_mem {α : Type} (m : α) (more : List α) (n : Nat) : (m :: more).getD (n % (more.length + 1)) m ∈ m :: more := by
  have hlt : n % (more.length + 1) < (m :: more).length := Nat.mod_lt _ (Nat.succ_pos _)
  rw [List.getD_eq_getElem _ _ hlt]
  exact List.getElem_mem hlt

/-- The lists are merged into one that holds the pieces of each in their order. -/
theorem State.runChecks_run (fuel : Nat) {ls : List (List Check)} (s : State) (hfuel : ls.flatten.length ≤ fuel)
    (hkinds : SeparateKinds ls) :
    ∃ checks, ChecksRun checks s (State.runChecks fuel ls s)
      ∧ ∀ k, checks.filter (fun c => checkKind c = k) = ls.flatten.filter fun c => checkKind c = k := by
  induction fuel generalizing s ls with
  | zero =>
    rw [List.eq_nil_of_length_eq_zero (Nat.le_zero.mp hfuel)]
    exact ⟨[], .nil s s.picks, fun _ => rfl⟩
  | succ fuel ih =>
    have htaken {m : Merge} (hm : m ∈ s.mergeChoices ls) (n : Nat) :
        ∃ checks, ChecksRun checks s (State.runChecks fuel m.2 ((s.withPicks n).runCheck m.1))
          ∧ ∀ k, checks.filter (fun c => checkKind c = k) = ls.flatten.filter fun c => checkKind c = k := by
      obtain ⟨before, idle, rest, after, hls, hrest, hidle⟩ := State.mem_mergeChoices hm
      rw [List.append_cons idle] at hls
      subst hls
      have hshort : (before ++ rest :: after).flatten.length ≤ fuel := by
        simp only [List.flatten_append, List.flatten_cons, List.length_append, List.length_cons, List.length_nil] at hfuel ⊢
        omega
      obtain ⟨checks, hrun, hfilter⟩ := ih ((s.withPicks n).runCheck m.1) hshort hkinds.rest
      rw [hrest]
      refine ⟨idle ++ m.1 :: checks, .idle hidle (.cons n hrun), fun k => ?_⟩
      rw [← hkinds.filter k, ← hfilter k, ← List.filter_append, List.append_assoc, List.singleton_append]
    unfold State.runChecks
    split
    next hnil =>
      refine ⟨ls.flatten, ?_, fun _ => rfl⟩
      have hidle := ChecksRun.idle (State.mergeChoices_eq_nil hnil) (.nil s s.picks)
      rwa [List.append_nil] at hidle
    next m hone => exact htaken (hone ▸ List.mem_singleton_self m) s.picks
    next m more _ hmore => exact htaken (hmore ▸ getD_mod_mem m more (Config.freePick s.picks)) (s.picks + 1)

end Sys2Proof.Machine
end

section
/-! PROOF. Each piece of work of a clock reading does what its row does, whatever picks were made before it (R19, R118 to R122). -/

namespace Sys2Proof.Machine

/-! ### Picks -/

section
variable (s : State) (n : Nat)

@[simp] theorem State.withPicks_withPicks (m : Nat) : (s.withPicks n).withPicks m = s.withPicks m := rfl
@[simp] theorem State.withPicks_self : s.withPicks s.picks = s := rfl
@[simp] theorem State.withPicks_orm : (s.withPicks n).orm = s.orm := rfl
@[simp] theorem State.withPicks_dir : (s.withPicks n).dir = s.dir := rfl
@[simp] theorem State.withPicks_rfs : (s.withPicks n).rfs = s.rfs := rfl
@[simp] theorem State.withPicks_now : (s.withPicks n).now = s.now := rfl
@[simp] theorem State.withPicks_params : (s.withPicks n).params = s.params := rfl
@[simp] theorem State.withPicks_standing (g : Fin 16) : (s.withPicks n).standing g = s.standing g := rfl
@[simp] theorem State.withPicks_queue (p : Phase) : (s.withPicks n).queue p = s.queue p := rfl

theorem State.postAll_rlc_withPicks (l : List Notice) : ((s.withPicks n).postAll l).rlc = (s.postAll l).rlc :=
  State.postAll_rlc_congr (s := s.withPicks n) (t := s) rfl l

theorem State.restoreIfDue_withPicks (g : Fin 16) : (s.withPicks n).restoreIfDue g = (s.restoreIfDue g).withPicks n := by
  unfold State.restoreIfDue
  dsimp only
  rw [State.withPicks_standing, State.withPicks_now]
  split
  · split <;> rfl
  · rfl

theorem State.adoptOrder_withPicks (o : Order) : (s.withPicks n).adoptOrder o = (s.adoptOrder o).withPicks n := by
  cases hb : o.body.partValue with
  | none =>
    unfold State.adoptOrder
    rw [hb]
  | some part =>
    obtain ⟨g, value⟩ := part
    by_cases hn : (s.standing g).newerStands o.body o.tag = true
    · rw [State.adoptOrder_passed hb hn, State.adoptOrder_passed (s := s.withPicks n) hb hn]
      rfl
    · rw [State.adoptOrder_adopted hb hn, State.adoptOrder_adopted (s := s.withPicks n) hb hn]
      cases value with
      | band b => rfl
      | relay v => exact State.restoreIfDue_withPicks (s.adopted o g (.relay v)) n g

theorem State.adoptIfDue_withPicks (tag : Tag) : (s.withPicks n).adoptIfDue tag = (s.adoptIfDue tag).withPicks n := by
  unfold State.adoptIfDue
  rw [show (s.withPicks n).findOrder tag = s.findOrder tag from rfl, State.withPicks_now]
  split
  · split
    · exact s.adoptOrder_withPicks n _
    · rfl
  · rfl

theorem expiredOne_withPicks (o : Order) : expiredOne (s.withPicks n) o = (expiredOne s o).withPicks n :=
  (State.postAll_commute (f := fun s => s.withPicks n) (fun _ _ => rfl) (s.ended o.tag .expired) _).symm

end

theorem Fires.of_withPicks {s t : State} {n : Nat} {g : Fin 16} {due : Nat} (h : Fires (s.withPicks n) g due t) : Fires s g due t := by
  obtain ⟨new, late, hnew, hnone, hin, hout, hstanding, hnodup, hlate, hrlc, hrest⟩ := h
  exact ⟨new, late, hnew, hnone, hin, hout, hstanding, hnodup, hlate, hrlc.trans (s.postAll_rlc_withPicks n _), hrest⟩

/-! ### What each piece of work does -/

/-- The expiry check of one order. -/
theorem State.expireIfDue_eq {s : State} (hd : s.orm.TagsDistinct) {o : Order} (ho : o ∈ s.orm.table) :
    s.expireIfDue o.tag = if (o.state = .waiting ∨ o.state = .running) ∧ o.expiry ≤ s.now then expiredOne s o else s := by
  unfold State.expireIfDue
  rw [State.findOrder_of_tags hd ho]
  dsimp only
  rw [if_congr (o.expiryDue_iff s.now) rfl rfl]
  refine if_ctx_congr .rfl (fun hdue => ?_) fun _ => rfl
  have hend := endedOrder_final_iff o .expired s.now
  have hfinal : Reason.final .expired = .expired := rfl
  rw [State.endOrder_of_tags hd ho ((OrderState.live_iff _).mpr hdue.1), expiredOne]
  rw [hfinal] at hend
  by_cases hf : o.anyInFlight = true
  · rw [if_pos hf, if_neg fun h => by simp [hend.mp h] at hf]
    rfl
  · rw [if_neg hf, if_pos (hend.mpr (by simpa using hf))]
    rfl

theorem exec_selfRestore (g : Fin 16) (s : State) : exec (.selfRestore g) s = .next (s.restoreIfDue g).pump := rfl

/-- The pieces of a list that check expiries name records of the table. -/
def ExpiriesNamed (s : State) (l : List Check) : Prop := ∀ tag, Check.expire tag ∈ l → ∃ o ∈ s.orm.table, o.tag = tag

theorem checkDone_runCheck {s : State} (hd : s.orm.TagsDistinct) (hdir : s.dir.Sound) {c : Check}
    (hc : ExpiriesNamed s [c]) (n : Nat) : ∃ u m, CheckDone s c u ∧ (s.withPicks n).runCheck c = u.withPicks m := by
  cases c with
  | expire tag =>
    obtain ⟨o, ho, rfl⟩ := hc tag (List.mem_singleton_self _)
    refine ⟨_, n, ⟨o, ho, rfl, rfl⟩, ?_⟩
    refine (State.expireIfDue_eq (s := s.withPicks n) hd ho).trans ?_
    rw [expiredOne_withPicks, State.withPicks_now, apply_ite (State.withPicks · n)]
  | adopt tag =>
    refine ⟨s.adoptIfDue tag, n, .of_carrying (out := .notice (.quiet true)) ?_ ?_, s.adoptIfDue_withPicks n tag⟩
    · rw [exec_adoption, whileSending_eq, State.adoptIfDue_carrying, State.pump_sending]
    · rw [← State.adoptIfDue_carrying, State.carrying_self]
  | restore g =>
    refine ⟨s.restoreIfDue g, n, .of_carrying (out := .notice (.quiet true)) ?_ ?_, s.restoreIfDue_withPicks n g⟩
    · rw [exec_selfRestore, whileSending_eq, State.restoreIfDue_carrying, State.pump_sending]
    · rw [← State.restoreIfDue_carrying, State.carrying_self]
  | fire g =>
    cases hn : (s.standing g).nextRefresh with
    | none =>
      refine ⟨s, n, ⟨fun due h => ?_, fun _ => rfl⟩, State.fireIfDue_none hn⟩
      rw [hn] at h
      cases h
    | some due =>
      by_cases hdue : due ≤ s.now
      · refine ⟨(s.withPicks n).fired g due, ((s.withPicks n).fired g due).picks, ⟨fun due' h _ => ?_, fun h => ?_⟩,
          State.fireIfDue_due (s := s.withPicks n) hn hdue⟩
        · rw [hn] at h
          obtain rfl := Option.some.inj h
          exact (State.fired_fires (s := s.withPicks n) hdir).of_withPicks
        · exact absurd hdue (Nat.not_le.mpr (h due hn))
      · refine ⟨s, n, ⟨fun due' h hle => ?_, fun _ => rfl⟩, State.fireIfDue_later (s := s.withPicks n) hn hdue⟩
        rw [hn] at h
        exact absurd (Option.some.inj h ▸ hle) hdue

theorem State.runCheck_outside (s : State) (c : Check) : OutsideChecks s (s.runCheck c) := (s.runCheck_acts c).outside

theorem OutsideChecks.withPicks (s : State) (n : Nat) : OutsideChecks s (s.withPicks n) :=
  ⟨fun _ => .inl rfl, rfl, rfl, rfl, rfl, rfl, rfl, rfl, rfl, rfl, rfl⟩

theorem ExpiriesNamed.of_tags {s t : State} {l : List Check} (h : ExpiriesNamed s l)
    (htags : t.orm.table.map (·.tag) = s.orm.table.map (·.tag)) : ExpiriesNamed t l := fun tag htag => by
  obtain ⟨o, ho, rfl⟩ := h tag htag
  exact List.mem_map.mp (htags ▸ List.mem_map_of_mem (f := (·.tag)) ho)

/-- Pieces of work one after another are checks made one after another. -/
theorem ChecksRun.done {l : List Check} {s t : State} (h : ChecksRun l s t) (hd : s.orm.TagsDistinct) (hdir : s.dir.Sound)
    (hl : ExpiriesNamed s l) : ChecksDone l s t := by
  induction l generalizing s with
  | nil =>
    cases h
    rfl
  | cons c l ih =>
    cases h with
    | cons n h =>
      obtain ⟨u, m, hdone, hrun⟩ := checkDone_runCheck hd hdir
        (fun tag htag => hl tag (List.mem_singleton.mp htag ▸ List.mem_cons_self)) n
      have hout : OutsideChecks s ((s.withPicks n).runCheck c) := (OutsideChecks.withPicks s n).trans (State.runCheck_outside _ c)
      rw [hrun] at h hout
      exact ⟨u, hdone, ih h.of_withPicks (hd.of_tags hout.tags) (hout.dir ▸ hdir)
        (ExpiriesNamed.of_tags (fun tag htag => hl tag (List.mem_cons_of_mem _ htag)) hout.tags)⟩

/-! ### The checks of a clock reading -/

theorem noteTimes_eq (s : State) : s.noteTimes = withTable s (s.orm.table.map fun o => noted o s.now) := by
  have hnoted : (fun o : Order => o.noteTime s.now) = fun o => noted o s.now := funext fun o => by
    have hlive : o.state.live = decide (o.state = .waiting ∨ o.state = .running) := by
      rw [Bool.eq_iff_iff, decide_eq_true_iff, OrderState.live_iff]
    have htime : timeReached o.effective s.now = decide (∃ e ∈ o.effective, e ≤ s.now) := by
      unfold timeReached
      cases o.effective <;> simp
    rw [Order.noteTime, hlive, htime]
    rfl
  rw [State.noteTimes, hnoted]
  rfl

theorem State.checkLists_separate (s : State) : SeparateKinds s.checkLists := by
  simp only [SeparateKinds, State.checkLists, List.pairwise_cons, List.mem_cons, List.not_mem_nil, or_false, List.mem_append,
    List.mem_map, forall_eq_or_imp, forall_eq]
  refine ⟨⟨?_, ?_⟩, ?_, nofun, .nil⟩
  · rintro _ (⟨o, -, rfl⟩ | ⟨o, -, rfl⟩) _ ⟨g, -, rfl⟩ <;> simp [checkKind]
  · rintro _ (⟨o, -, rfl⟩ | ⟨o, -, rfl⟩) _ ⟨g, -, rfl⟩ <;> simp [checkKind]
  · rintro _ ⟨g, -, rfl⟩ _ ⟨g', -, rfl⟩
    simp [checkKind]

end Sys2Proof.Machine
end

section
/-! PROOF. What each piece of work of a clock reading makes of the records, the standing records and the queues (R19, R118 to R122). -/

namespace Sys2Proof.Machine

/-! ### A standing record under each piece of work -/

/-- A standing record after the restore check. -/
def Standing.restored (x : Standing) (now : Nat) : Standing :=
  match x.restoreUntil, x.relay with
  | some r, some (_, tag) =>
    if r ≤ now then { x with relay := some (.on, tag), restoreUntil := none, changeCount := x.changeCount + 1 } else x
  | _, _ => x

/-- A standing record after the adoption of an order that is due, and the restore that may follow at once. -/
def Standing.adopting (x : Standing) (o : Order) (now period : Nat) : Standing :=
  if x.newerStands o.body o.tag then x
  else match o.body with
    | .relay .. => (x.adopt o now period).restored now
    | _ => x.adopt o now period

/-- A standing record after the timer check. -/
def Standing.timed (x : Standing) (now period : Nat) : Standing :=
  match x.nextRefresh with
  | some t => if t ≤ now then { x with nextRefresh := some (nextAfterFiring t now period) } else x
  | none => x

/-- A restore that stands is still ahead. -/
def Standing.RestoreAhead (x : Standing) (now : Nat) : Prop := ∀ r ∈ x.restoreUntil, x.relay ≠ none → now < r

/-- The next refresh is still ahead, or is the clock's end. -/
def Standing.RefreshAhead (x : Standing) (now : Nat) : Prop := ∀ n ∈ x.nextRefresh, now < n ∨ n = 4294967295

theorem Standing.restored_idle {x : Standing} {now : Nat} (h : x.RestoreAhead now) : x.restored now = x := by
  unfold Standing.restored
  split
  next r v tag hr hrel => exact if_neg (Nat.not_le.mpr (h r hr (by rw [hrel]; nofun)))
  · rfl

theorem Standing.restored_due {x : Standing} {now r : Nat} {v : RelayValue} {tag : Tag} (hrel : x.relay = some (v, tag))
    (hr : x.restoreUntil = some r) (hnow : r ≤ now) :
    x.restored now = { x with relay := some (.on, tag), restoreUntil := none, changeCount := x.changeCount + 1 } := by
  simp only [Standing.restored, hr, hrel, if_pos hnow]

theorem Standing.restored_cases (x : Standing) (now : Nat) :
    (x.RestoreAhead now ∧ x.restored now = x)
      ∨ ∃ r v tag, x.relay = some (v, tag) ∧ x.restoreUntil = some r ∧ r ≤ now
          ∧ x.restored now = { x with relay := some (.on, tag), restoreUntil := none, changeCount := x.changeCount + 1 } := by
  by_cases h : x.RestoreAhead now
  · exact .inl ⟨h, Standing.restored_idle h⟩
  · right
    unfold Standing.RestoreAhead at h
    push Not at h
    obtain ⟨r, hr, hrel, hnow⟩ := h
    obtain ⟨⟨v, tag⟩, hv⟩ := Option.ne_none_iff_exists'.mp hrel
    exact ⟨r, v, tag, hv, hr, hnow, Standing.restored_due hv hr hnow⟩

theorem Standing.restored_ahead (x : Standing) (now : Nat) : (x.restored now).RestoreAhead now := by
  obtain ⟨h, he⟩ | ⟨r, v, tag, -, -, -, he⟩ := x.restored_cases now <;> rw [he]
  · exact h
  · nofun

theorem Standing.restored_band (x : Standing) (now : Nat) : (x.restored now).band = x.band := by
  obtain ⟨-, he⟩ | ⟨r, v, tag, -, -, -, he⟩ := x.restored_cases now <;> rw [he]

theorem Standing.restored_nextRefresh (x : Standing) (now : Nat) : (x.restored now).nextRefresh = x.nextRefresh := by
  obtain ⟨-, he⟩ | ⟨r, v, tag, -, -, -, he⟩ := x.restored_cases now <;> rw [he]

theorem Standing.restored_partTag (x : Standing) (now : Nat) (b : OrderBody) : (x.restored now).partTag b = x.partTag b := by
  obtain ⟨-, he⟩ | ⟨r, v, tag, hrel, -, -, he⟩ := x.restored_cases now <;> rw [he]
  cases b with
  | relay => simp [Standing.partTag, hrel]
  | _ => rfl

theorem Standing.newerStands_congr {x y : Standing} {b : OrderBody} (h : x.partTag b = y.partTag b) (tag : Tag) :
    x.newerStands b tag = y.newerStands b tag := by
  unfold Standing.newerStands
  rw [h]

theorem Standing.adopting_newer {x : Standing} {o : Order} (h : x.newerStands o.body o.tag = true) (now period : Nat) :
    x.adopting o now period = x := if_pos h

theorem Standing.adopting_band {x : Standing} {o : Order} {g : Fin 16} {b : Nat} (hb : o.body = .band g b)
    (h : ¬x.newerStands o.body o.tag = true) (now period : Nat) :
    x.adopting o now period = { x with
      band := some (b, o.tag), changeCount := x.changeCount + 1, nextRefresh := some (capSeconds (now + period)) } := by
  unfold Standing.adopting
  rw [if_neg h, hb]
  simp only [Standing.adopt, hb]

theorem Standing.adopting_relay {x : Standing} {o : Order} {g : Fin 16} {v : RelayValue} {restore : Option Nat}
    (hb : o.body = .relay g v restore) (h : ¬x.newerStands o.body o.tag = true) (now period : Nat) :
    x.adopting o now period = Standing.restored { x with
      relay := some (v, o.tag)
      restoreUntil := restoreUntilOf v restore o.effective now
      changeCount := x.changeCount + 1
      nextRefresh := some (capSeconds (now + period)) } now := by
  unfold Standing.adopting
  rw [if_neg h, hb]
  simp only [Standing.adopt, hb]

theorem Standing.timed_parts (x : Standing) (now period : Nat) : ∃ n, x.timed now period = { x with nextRefresh := n } := by
  unfold Standing.timed
  split
  · split
    · exact ⟨_, rfl⟩
    · exact ⟨x.nextRefresh, rfl⟩
  · exact ⟨x.nextRefresh, rfl⟩

/-! ### What stands ahead after each -/

theorem capSeconds_ahead {now period : Nat} (hp : 0 < period) : now < capSeconds (now + period) ∨ capSeconds (now + period) = 4294967295 := by
  have hcap : capSeconds (now + period) = min (now + period) 4294967295 := rfl
  omega

theorem Standing.RestoreAhead.adopting {x : Standing} {now : Nat} (h : x.RestoreAhead now) (o : Order) (period : Nat) :
    (x.adopting o now period).RestoreAhead now := by
  by_cases hn : x.newerStands o.body o.tag = true
  · rwa [Standing.adopting_newer hn]
  · cases hb : o.body with
    | band g b =>
      rw [Standing.adopting_band hb hn]
      exact h
    | relay g v restore =>
      rw [Standing.adopting_relay hb hn]
      exact Standing.restored_ahead _ now
    | query i =>
      unfold Standing.adopting
      rw [if_neg hn, hb]
      simpa only [Standing.adopt, hb] using h

theorem Standing.RestoreAhead.timed {x : Standing} {now : Nat} (h : x.RestoreAhead now) (period : Nat) :
    (x.timed now period).RestoreAhead now := by
  obtain ⟨n, he⟩ := x.timed_parts now period
  rw [he]
  exact h

theorem Standing.RefreshAhead.restored {x : Standing} {now : Nat} (h : x.RefreshAhead now) : (x.restored now).RefreshAhead now := by
  unfold Standing.RefreshAhead
  rwa [Standing.restored_nextRefresh]

theorem Standing.RefreshAhead.adopting {x : Standing} {now period : Nat} (h : x.RefreshAhead now) (hp : 0 < period) (o : Order) :
    (x.adopting o now period).RefreshAhead now := by
  have hnext : ∀ n ∈ some (capSeconds (now + period)), now < n ∨ n = 4294967295 := fun n hn =>
    Option.some.inj hn ▸ capSeconds_ahead hp
  by_cases hn : x.newerStands o.body o.tag = true
  · rwa [Standing.adopting_newer hn]
  · cases hb : o.body with
    | band g b =>
      rw [Standing.adopting_band hb hn]
      exact hnext
    | relay g v restore =>
      rw [Standing.adopting_relay hb hn]
      exact Standing.RefreshAhead.restored hnext
    | query i =>
      unfold Standing.adopting
      rw [if_neg hn, hb]
      simpa only [Standing.adopt, hb] using h

theorem Standing.timed_ahead (x : Standing) {now period : Nat} (hp : 0 < period) : (x.timed now period).RefreshAhead now := by
  unfold Standing.timed
  split
  next t ht =>
    split
    · intro n hn
      obtain rfl := Option.some.inj hn
      unfold nextAfterFiring
      have hcap : ∀ n, capSeconds n = min n 4294967295 := fun _ => rfl
      rw [hcap]
      split <;> omega
    next hlater =>
      intro n hn
      obtain rfl := Option.some.inj (ht.symm.trans hn)
      exact .inl (Nat.lt_of_not_le hlater)
  next hnone =>
    intro n hn
    rw [hnone] at hn
    cases hn

theorem Standing.timed_idle {x : Standing} {now : Nat} (h : ∀ n ∈ x.nextRefresh, now < n) (period : Nat) : x.timed now period = x := by
  unfold Standing.timed
  split
  next t ht => exact if_neg (Nat.not_le.mpr (h t ht))
  · rfl

/-! ### The standing record of each group -/

theorem State.standing_withStanding (s : State) (g : Fin 16) (x : Standing) (g' : Fin 16) :
    (Machine.withStanding s g x).standing g' = if g' = g then x else s.standing g' := by
  split
  next h =>
    subst h
    exact State.standing_setStanding_same s g' x
  next h => exact State.standing_setStanding_ne s x h

theorem State.restoreIfDue_standing (s : State) (g g' : Fin 16) :
    (s.restoreIfDue g).standing g' = if g' = g then (s.standing g).restored s.now else s.standing g' := by
  obtain ⟨hahead, he⟩ | ⟨r, v, tag, hrel, hr, hnow, he⟩ := (s.standing g).restored_cases s.now
  · rw [State.restoreIfDue_idle ?_, he]
    · exact (ite_eq_right_iff.mpr fun h => by rw [h]).symm
    · cases hrel : (s.standing g).relay with
      | none => exact .inl rfl
      | some x => exact .inr fun r hr => hahead r hr (by rw [hrel]; nofun)
  · rw [State.restoreIfDue_due hrel hr hnow, he]
    exact State.standing_withStanding s g _ g'

theorem State.adopted_standing (s : State) (o : Order) (g : Fin 16) (value : PartValue) (g' : Fin 16) :
    (s.adopted o g value).standing g' = if g' = g then (s.standing g).adopt o s.now s.params.refreshPeriod else s.standing g' :=
  State.standing_withStanding s g _ g'

theorem State.adoptOrder_standing (s : State) {o : Order} {g : Fin 16} (hg : o.body.group = some g) (g' : Fin 16) :
    (s.adoptOrder o).standing g' = if g' = g then (s.standing g).adopting o s.now s.params.refreshPeriod else s.standing g' := by
  have hpassed {value : PartValue} (hpart : o.body.partValue = some (g, value))
      (hn : (s.standing g).newerStands o.body o.tag = true) :
      (s.adoptOrder o).standing g' = if g' = g then (s.standing g).adopting o s.now s.params.refreshPeriod else s.standing g' := by
    rw [State.adoptOrder_passed hpart hn, Standing.adopting_newer hn]
    exact (ite_eq_right_iff.mpr fun h => by rw [h]; rfl).symm
  by_cases hn : (s.standing g).newerStands o.body o.tag = true
  · cases hb : o.body with
    | query i => rw [hb] at hg; cases hg
    | band k b | relay k v restore =>
      rw [hb] at hg
      obtain rfl := Option.some.inj hg
      exact hpassed (by rw [hb]; rfl) hn
  · unfold Standing.adopting
    rw [if_neg hn]
    cases hb : o.body with
    | query i => rw [hb] at hg; cases hg
    | band k b =>
      rw [hb] at hg
      obtain rfl := Option.some.inj hg
      rw [State.adoptOrder_adopted (value := .band b) (by rw [hb]; rfl) hn]
      exact s.adopted_standing o k (.band b) g'
    | relay k v restore =>
      rw [hb] at hg
      obtain rfl := Option.some.inj hg
      rw [State.adoptOrder_adopted (value := .relay v) (by rw [hb]; rfl) hn]
      refine (State.restoreIfDue_standing _ k g').trans ?_
      rw [State.adopted_standing, State.adopted_standing, if_pos rfl]
      split <;> rfl

theorem State.fired_standing (s : State) (g : Fin 16) (due : Nat) (g' : Fin 16) :
    (s.fired g due).standing g'
      = if g' = g then { s.standing g with nextRefresh := some (nextAfterFiring due s.now s.params.refreshPeriod) }
        else s.standing g' := by
  obtain ⟨queues, late, picks, -, -, he⟩ := s.fired_eq g due
  rw [he]
  exact State.standing_withStanding s g _ g'

theorem State.fireIfDue_standing (s : State) (g g' : Fin 16) :
    (s.fireIfDue g).standing g' = if g' = g then (s.standing g).timed s.now s.params.refreshPeriod else s.standing g' := by
  cases hn : (s.standing g).nextRefresh with
  | none =>
    rw [State.fireIfDue_none hn, Standing.timed_idle (by rw [hn]; nofun)]
    exact (ite_eq_right_iff.mpr fun h => by rw [h]).symm
  | some t =>
    by_cases ht : t ≤ s.now
    · rw [State.fireIfDue_due hn ht, State.fired_standing]
      simp only [Standing.timed, hn, if_pos ht]
    · rw [State.fireIfDue_later hn ht,
        Standing.timed_idle (by rw [hn]; exact fun n h => Option.some.inj h ▸ Nat.lt_of_not_le ht)]
      exact (ite_eq_right_iff.mpr fun h => by rw [h]).symm

theorem State.expireIfDue_rfs (s : State) (tag : Tag) : (s.expireIfDue tag).rfs = s.rfs := by
  unfold State.expireIfDue
  split
  · split
    · exact (s.endOrder_outside tag .expired).rfs
    · rfl
  · rfl

/-! ### The queues -/

theorem State.adoptIfDue_queue (s : State) (tag : Tag) (p : Phase) : (s.adoptIfDue tag).queue p = s.queue p :=
  congrArg (fun q : Tri (List QueueEntry) => q.get p) (s.adoptIfDue_adopts tag).queues

theorem State.restoreIfDue_queue (s : State) (g : Fin 16) (p : Phase) : (s.restoreIfDue g).queue p = s.queue p :=
  congrArg (fun q : Tri (List QueueEntry) => q.get p) (s.restoreIfDue_adopts g).queues

theorem State.fired_queue (s : State) (g : Fin 16) (due : Nat) (p : Phase) :
    (s.fired g due).queue p
      = if p ∈ (s.servedPhases g).filter (fun p => !inQueue (s.queue p) g) then s.queue p ++ [⟨g, s.now⟩] else s.queue p := by
  obtain ⟨queues, late, picks, hqueues, -, he⟩ := s.fired_eq g due
  rw [he]
  exact (hqueues p).trans (foldl_queueEntry_queue g ((s.servedPhases_nodup g).filter _) s p)

theorem State.fired_orm (s : State) (g : Fin 16) (due : Nat) : (s.fired g due).orm = s.orm := by
  obtain ⟨queues, late, picks, -, -, he⟩ := s.fired_eq g due
  rw [he]
  exact State.postAll_orm _ _

theorem State.fireIfDue_orm (s : State) (g : Fin 16) : (s.fireIfDue g).orm = s.orm := by
  cases hn : (s.standing g).nextRefresh with
  | none => rw [State.fireIfDue_none hn]
  | some t =>
    by_cases ht : t ≤ s.now
    · rw [State.fireIfDue_due hn ht, State.fired_orm]
    · rw [State.fireIfDue_later hn ht]

/-- A timer check leaves a queue, or puts its group at the end. -/
theorem State.fireIfDue_queue (s : State) (g : Fin 16) (p : Phase) :
    (s.fireIfDue g).queue p = s.queue p ∨ (s.fireIfDue g).queue p = s.queue p ++ [⟨g, s.now⟩] := by
  cases hn : (s.standing g).nextRefresh with
  | none => exact .inl (by rw [State.fireIfDue_none hn])
  | some t =>
    by_cases ht : t ≤ s.now
    · rw [State.fireIfDue_due hn ht, State.fired_queue]
      split
      · exact .inr rfl
      · exact .inl rfl
    · exact .inl (by rw [State.fireIfDue_later hn ht])

/-- A reached timer puts its group into the queue of each phase with a member. -/
theorem State.fireIfDue_queued {s : State} (hdir : s.dir.Sound) {g : Fin 16} {t : Nat} (hn : (s.standing g).nextRefresh = some t)
    (ht : t ≤ s.now) {p : Phase} (hp : ∃ i, MemberAt s g p i) : ∃ e ∈ (s.fireIfDue g).queue p, e.group = g := by
  rw [State.fireIfDue_due hn ht, State.fired_queue]
  split
  · exact ⟨⟨g, s.now⟩, List.mem_append_right _ (List.mem_singleton_self _), rfl⟩
  next h =>
    rw [List.mem_filter, State.mem_servedPhases hdir, and_iff_right hp, Bool.not_eq_true', Bool.not_eq_false, inQueue_iff] at h
    exact h

end Sys2Proof.Machine
end

section
/-! PROOF. What the checks of a clock reading keep, one piece of work after another (R19, R118 to R122, R137, R138). -/

namespace Sys2Proof.Machine

/-! ### The records -/

/-- An order under the expiry check of a tag. -/
def Order.expiring (o : Order) (tag : Tag) (now : Nat) : Order :=
  if o.tag = tag ∧ (o.state = .waiting ∨ o.state = .running) ∧ o.expiry ≤ now then endedOrder o .expired now else o

theorem State.expireIfDue_table {s : State} (hd : s.orm.TagsDistinct) (tag : Tag) :
    (s.expireIfDue tag).orm.table = s.orm.table.map fun x => x.expiring tag s.now := by
  have hsame (h : ∀ x ∈ s.orm.table, x.expiring tag s.now = x) : s.orm.table.map (fun x => x.expiring tag s.now) = s.orm.table := by
    rw [List.map_congr_left h]
    exact List.map_id _
  by_cases hin : ∃ o ∈ s.orm.table, o.tag = tag
  · obtain ⟨o, ho, rfl⟩ := hin
    rw [State.expireIfDue_eq hd ho]
    split
    next hdue =>
      rw [expiredOne, State.postAll_orm]
      refine List.map_congr_left fun x hx => if_congr ⟨fun h => ⟨h, ?_⟩, fun h => h.1⟩ rfl rfl
      rw [hd.eq_of_tag hx ho h]
      exact hdue
    next hdue =>
      refine (hsame fun x hx => if_neg fun h => hdue ?_).symm
      rw [← hd.eq_of_tag hx ho h.1]
      exact h.2
  · have hidle : s.expireIfDue tag = s := by
      unfold State.expireIfDue
      split
      next o ho => exact absurd ⟨o, State.findOrder_mem ho, State.findOrder_tag ho⟩ hin
      · rfl
    rw [hidle]
    exact (hsame fun x hx => if_neg fun h => hin ⟨x, hx, h.1⟩).symm

/-- Two records ask for the same: tag, body and effective time. -/
def SameAsked (x y : Order) : Prop := x.tag = y.tag ∧ x.body = y.body ∧ x.effective = y.effective

theorem SameAsked.refl (x : Order) : SameAsked x x := ⟨rfl, rfl, rfl⟩
theorem SameAsked.symm {x y : Order} (h : SameAsked x y) : SameAsked y x := ⟨h.1.symm, h.2.1.symm, h.2.2.symm⟩
theorem SameAsked.trans {x y z : Order} (h : SameAsked x y) (k : SameAsked y z) : SameAsked x z :=
  ⟨h.1.trans k.1, h.2.1.trans k.2.1, h.2.2.trans k.2.2⟩

theorem endedOrder_expired_stage (o : Order) (now : Nat) (p : Phase) :
    ((endedOrder o .expired now).progress.get p).stage = .notInvolved ↔ (o.progress.get p).stage = .notInvolved := by
  have hstage : ((endedOrder o .expired now).progress.get p).stage
      = if (o.progress.get p).stage = .queued ∨ (o.progress.get p).stage = .serving ∨ (o.progress.get p).stage = .paused then .stopped
        else (o.progress.get p).stage := by cases p <;> rfl
  rw [hstage]
  split
  next h => rcases h with h | h | h <;> simp [h]
  · rfl

theorem endedOrder_expired_repeats (o : Order) (now : Nat) (p : Phase) :
    ((endedOrder o .expired now).progress.get p).repeatsSent = (o.progress.get p).repeatsSent := by
  cases p <;> rfl

theorem endedOrder_expired_mark (o : Order) (now : Nat) : (endedOrder o .expired now).mark = o.mark := by
  unfold endedOrder
  dsimp only
  rw [if_neg fun h => h.1 rfl]

/-- The end of an order by its expiry leaves it a candidate (R117). -/
theorem due_endedOrder_expired {o : Order} (hlive : o.state = .waiting ∨ o.state = .running) (now : Nat) :
    DueForAdoption (endedOrder o .expired now) now ↔ DueForAdoption o now := by
  have hstate : ((endedOrder o .expired now).state = .waiting ∨ (endedOrder o .expired now).state = .running
      ∨ (endedOrder o .expired now).state = .complete ∨ (endedOrder o .expired now).state = .partly
      ∨ (endedOrder o .expired now).state = .expired
      ∨ ((endedOrder o .expired now).state = .closing ∧ (endedOrder o .expired now).closing = some .expired)) := by
    unfold endedOrder
    dsimp only
    split <;> simp [Reason.final]
  have hmark := endedOrder_expired_mark o now
  have hphases : EachPhase (fun p => ((endedOrder o .expired now).progress.get p).stage = .notInvolved
        ∨ ((endedOrder o .expired now).progress.get p).repeatsSent = o.repeatCount)
      ↔ EachPhase fun p => (o.progress.get p).stage = .notInvolved ∨ (o.progress.get p).repeatsSent = o.repeatCount := by
    simp only [endedOrder_expired_stage, endedOrder_expired_repeats]
  constructor
  · rintro ⟨hm, -, hp, he⟩
    exact ⟨hmark ▸ hm, hlive.imp id .inl, hphases.mp hp, he⟩
  · rintro ⟨hm, -, hp, he⟩
    exact ⟨hmark.trans hm, hstate, hphases.mpr hp, he⟩

theorem Order.expiring_asked (o : Order) (tag : Tag) (now : Nat) : SameAsked (o.expiring tag now) o := by
  unfold Order.expiring
  split <;> exact ⟨rfl, rfl, rfl⟩

theorem Order.expiring_mark (o : Order) (tag : Tag) (now : Nat) : (o.expiring tag now).mark = o.mark := by
  unfold Order.expiring
  split
  · exact endedOrder_expired_mark o now
  · rfl

theorem Order.expiring_due (o : Order) (tag : Tag) (now : Nat) : DueForAdoption (o.expiring tag now) now ↔ DueForAdoption o now := by
  unfold Order.expiring
  split
  next h => exact due_endedOrder_expired h.2.1 now
  · rfl

/-- The mark that the adoption of an order leaves (R119). -/
theorem State.adoptOrder_mark (s : State) {o : Order} {g : Fin 16} (hg : o.body.group = some g) :
    (s.adoptOrder o).orm
      = (Machine.withMark s o.tag (if (s.standing g).newerStands o.body o.tag then .passed else .adopted)).orm := by
  cases hb : o.body with
  | query i => rw [hb] at hg; cases hg
  | band k b =>
    rw [hb] at hg
    obtain rfl := Option.some.inj hg
    have hpart : o.body.partValue = some (k, .band b) := by rw [hb]; rfl
    rw [← hb]
    split
    next hn => rw [State.adoptOrder_passed hpart hn]
    next hn =>
      rw [State.adoptOrder_adopted hpart hn]
      rfl
  | relay k v restore =>
    rw [hb] at hg
    obtain rfl := Option.some.inj hg
    have hpart : o.body.partValue = some (k, .relay v) := by rw [hb]; rfl
    rw [← hb]
    split
    next hn => rw [State.adoptOrder_passed hpart hn]
    next hn =>
      rw [State.adoptOrder_adopted hpart hn]
      exact State.restoreIfDue_orm _ _

/-! ### What the checks keep -/

/-- What holds at a clock reading and through its checks. -/
structure Checking (now period : Nat) (dir : Dir) (s : State) : Prop where
  now : s.now = now
  period : s.params.refreshPeriod = period
  dir : s.dir = dir
  tags : s.orm.TagsDistinct
  queries : QueriesUnmarked s

section
variable {now period : Nat} {dir : Dir} {s : State}

theorem Checking.withPicks (h : Checking now period dir s) (n : Nat) : Checking now period dir (s.withPicks n) :=
  ⟨h.now, h.period, h.dir, h.tags, h.queries⟩

/-- A due order's group. -/
theorem Checking.group (h : Checking now period dir s) {o : Order} (ho : o ∈ s.orm.table) (hdue : DueForAdoption o now) :
    ∃ g, o.body.group = some g :=
  Option.ne_none_iff_exists'.mp fun hg => h.queries o ho hg hdue.1

/-- The records under a piece of work: they ask for what they asked for, and a candidate stays due until its own check. -/
theorem Checking.table (h : Checking now period dir s) (c : Check) :
    ∃ f : Order → Order, (s.runCheck c).orm.table = s.orm.table.map f
      ∧ ∀ o ∈ s.orm.table, SameAsked (f o) o ∧ (DueForAdoption (f o) now ↔ DueForAdoption o now ∧ c ≠ .adopt o.tag)
        ∧ ((f o).mark = o.mark ∨ (DueForAdoption o now ∧ c = .adopt o.tag)) := by
  have hsame (horm : (s.runCheck c).orm = s.orm) (hno : ∀ o ∈ s.orm.table, DueForAdoption o now → c ≠ .adopt o.tag) :
      ∃ f : Order → Order, (s.runCheck c).orm.table = s.orm.table.map f
        ∧ ∀ o ∈ s.orm.table, SameAsked (f o) o ∧ (DueForAdoption (f o) now ↔ DueForAdoption o now ∧ c ≠ .adopt o.tag)
          ∧ ((f o).mark = o.mark ∨ (DueForAdoption o now ∧ c = .adopt o.tag)) :=
    ⟨id, by rw [horm, List.map_id], fun o ho => ⟨.refl o, ⟨fun hdue => ⟨hdue, hno o ho hdue⟩, fun hdue => hdue.1⟩, .inl rfl⟩⟩
  cases c with
  | expire tag =>
    refine ⟨fun o => o.expiring tag s.now, State.expireIfDue_table h.tags tag, fun o _ => ⟨o.expiring_asked tag s.now, ?_,
      .inl (o.expiring_mark tag s.now)⟩⟩
    rw [h.now, Order.expiring_due, and_iff_left nofun]
  | restore g => exact hsame (s.restoreIfDue_orm g) fun _ _ _ => nofun
  | fire g => exact hsame (s.fireIfDue_orm g) fun _ _ _ => nofun
  | adopt tag =>
    by_cases hany : ∃ o ∈ s.orm.table, o.tag = tag ∧ DueForAdoption o now
    · obtain ⟨o, ho, rfl, hdue⟩ := hany
      obtain ⟨m, hm, horm⟩ := s.adoptOrder_orm fun hg => h.queries o ho hg hdue.1
      refine ⟨fun x => if x.tag = o.tag then { x with mark := some m } else x, ?_, fun x hx => ?_⟩
      · show (s.adoptIfDue o.tag).orm.table = _
        rw [State.adoptIfDue_due h.tags ho (h.now ▸ hdue), horm]
        rfl
      · by_cases hx' : x.tag = o.tag
        · obtain rfl := h.tags.eq_of_tag hx ho hx'
          dsimp only
          rw [if_pos rfl]
          exact ⟨⟨rfl, rfl, rfl⟩, ⟨fun hd => absurd (Option.some.inj hd.1) hm, fun hd => absurd rfl hd.2⟩, .inr ⟨hdue, rfl⟩⟩
        · dsimp only
          rw [if_neg hx']
          exact ⟨.refl x, ⟨fun hd => ⟨hd, fun he => hx' (Check.adopt.inj he).symm⟩, fun hd => hd.1⟩, .inl rfl⟩
    · have hidle : s.runCheck (.adopt tag) = s :=
        State.adoptIfDue_idle fun o ho ht hdue => hany ⟨o, ho, ht, h.now ▸ hdue⟩
      exact hsame (by rw [hidle]) fun o ho hdue he => hany ⟨o, ho, (Check.adopt.inj he).symm, hdue⟩

theorem Checking.runCheck (h : Checking now period dir s) (c : Check) : Checking now period dir (s.runCheck c) := by
  have hout := s.runCheck_outside c
  refine ⟨(congrArg (fun m : Mtb => m.clock.seconds) hout.mtb).trans h.now, (congrArg Params.refreshPeriod hout.params).trans h.period,
    hout.dir.trans h.dir, h.tags.of_tags hout.tags, fun x hx hg hpend => ?_⟩
  obtain ⟨f, htable, hf⟩ := h.table c
  rw [htable] at hx
  obtain ⟨o, ho, rfl⟩ := List.mem_map.mp hx
  obtain ⟨⟨-, hbody, -⟩, -, hmark | ⟨hdue, -⟩⟩ := hf o ho
  · exact h.queries o ho (hbody ▸ hg) (hmark ▸ hpend)
  · exact h.queries o ho (hbody ▸ hg) hdue.1

/-- A candidate due after a piece of work was due before it. -/
theorem Checking.due_of_runCheck (h : Checking now period dir s) {c : Check} {x : Order} (hx : x ∈ (s.runCheck c).orm.table)
    (hdue : DueForAdoption x now) : ∃ o ∈ s.orm.table, SameAsked x o ∧ DueForAdoption o now ∧ c ≠ .adopt o.tag := by
  obtain ⟨f, htable, hf⟩ := h.table c
  rw [htable] at hx
  obtain ⟨o, ho, rfl⟩ := List.mem_map.mp hx
  obtain ⟨hasked, hiff, -⟩ := hf o ho
  exact ⟨o, ho, hasked, hiff.mp hdue⟩

/-- A candidate stays due until its own check. -/
theorem Checking.due_runCheck (h : Checking now period dir s) {c : Check} {o : Order} (ho : o ∈ s.orm.table)
    (hdue : DueForAdoption o now) (hc : c ≠ .adopt o.tag) :
    ∃ x ∈ (s.runCheck c).orm.table, SameAsked x o ∧ DueForAdoption x now := by
  obtain ⟨f, htable, hf⟩ := h.table c
  obtain ⟨hasked, hiff, -⟩ := hf o ho
  exact ⟨f o, htable ▸ List.mem_map_of_mem ho, hasked, hiff.mpr ⟨hdue, hc⟩⟩

/-- The standing record of a group under a piece of work. -/
theorem Checking.standing (h : Checking now period dir s) (c : Check) (g : Fin 16) :
    (s.runCheck c).standing g = s.standing g
      ∨ (c = .restore g ∧ (s.runCheck c).standing g = (s.standing g).restored now)
      ∨ (c = .fire g ∧ (s.runCheck c).standing g = (s.standing g).timed now period)
      ∨ ∃ o ∈ s.orm.table, c = .adopt o.tag ∧ DueForAdoption o now ∧ o.body.group = some g
          ∧ (s.runCheck c).standing g = (s.standing g).adopting o now period := by
  have hnow := h.now
  have hperiod := h.period
  cases c with
  | expire tag => exact .inl (congrArg (fun r : Rfs => r.standing[g]) (s.expireIfDue_rfs tag))
  | restore g' =>
    have hst := s.restoreIfDue_standing g' g
    split at hst
    next hg => subst hg; exact .inr (.inl ⟨rfl, hnow ▸ hst⟩)
    · exact .inl hst
  | fire g' =>
    have hst := s.fireIfDue_standing g' g
    split at hst
    next hg => subst hg; exact .inr (.inr (.inl ⟨rfl, hnow ▸ hperiod ▸ hst⟩))
    · exact .inl hst
  | adopt tag =>
    by_cases hany : ∃ o ∈ s.orm.table, o.tag = tag ∧ DueForAdoption o now
    · obtain ⟨o, ho, rfl, hdue⟩ := hany
      obtain ⟨k, hk⟩ := h.group ho hdue
      have hst := s.adoptOrder_standing hk g
      rw [← State.adoptIfDue_due h.tags ho (hnow ▸ hdue)] at hst
      split at hst
      next hg => subst hg; exact .inr (.inr (.inr ⟨o, ho, rfl, hdue, hk, hnow ▸ hperiod ▸ hst⟩))
      · exact .inl hst
    · have hidle : s.runCheck (.adopt tag) = s :=
        State.adoptIfDue_idle fun o ho ht hdue => hany ⟨o, ho, ht, hnow ▸ hdue⟩
      exact .inl (by rw [hidle])

end

/-! ### Through all checks -/

/-- What picks and each piece of work keep, all of them keep. -/
theorem ChecksRun.induct {l : List Check} {s t : State} (h : ChecksRun l s t) {P : State → Prop}
    (hpick : ∀ s n, P s → P (s.withPicks n)) (hstep : ∀ s, ∀ c ∈ l, P s → P (s.runCheck c)) (hs : P s) : P t := by
  induction h with
  | nil s n => exact hpick s n hs
  | cons n h ih =>
    exact ih (fun s c hc => hstep s c (List.mem_cons_of_mem _ hc)) (hstep _ _ List.mem_cons_self (hpick _ n hs))

/-- What one piece of work brings about, and each keeps, stands at the end. -/
theorem ChecksRun.reach {l : List Check} {s t : State} (h : ChecksRun l s t) {P Q : State → Prop} {c : Check} (hc : c ∈ l)
    (hpick : ∀ s n, P s → P (s.withPicks n)) (hstep : ∀ s, ∀ c ∈ l, P s → P (s.runCheck c)) (hs : P s)
    (hmake : ∀ s, P s → Q (s.runCheck c)) (hpickQ : ∀ s n, Q s → Q (s.withPicks n))
    (hkeep : ∀ s, ∀ c ∈ l, P s → Q s → Q (s.runCheck c)) : Q t := by
  induction h with
  | nil => cases hc
  | cons n h ih =>
    have hrest := fun s c hc => hstep s c (List.mem_cons_of_mem _ hc)
    have hfirst := hstep _ _ List.mem_cons_self (hpick _ n hs)
    obtain rfl | hc := List.mem_cons.mp hc
    · refine (h.induct (P := fun s => P s ∧ Q s) (fun s n h => ⟨hpick s n h.1, hpickQ s n h.2⟩) (fun s c hc h => ⟨hrest s c hc h.1,
        hkeep s c (List.mem_cons_of_mem _ hc) h.1 h.2⟩) ⟨hfirst, hmake _ (hpick _ n hs)⟩).2
    · exact ih hc hrest hfirst fun s c hc => hkeep s c (List.mem_cons_of_mem _ hc)

theorem ChecksRun.checking {l : List Check} {s t : State} {now period : Nat} {dir : Dir} (h : ChecksRun l s t)
    (hs : Checking now period dir s) : Checking now period dir t :=
  h.induct (fun _ n hs => hs.withPicks n) (fun _ c _ hs => hs.runCheck c) hs

end Sys2Proof.Machine
end

section
/-! PROOF. What the checks of a clock reading leave, whatever falls first (R19, R118 to R122, R137, R138). -/

namespace Sys2Proof.Machine

/-! ### The records but for their marks (R19) -/

/-- An order under the expiry check of a piece of work. -/
def Check.expires (c : Check) (now : Nat) (o : Order) : Order :=
  match c with
  | .expire tag => o.expiring tag now
  | _ => o

/-- An order under the expiry checks of a list. -/
def Order.expiringAll (o : Order) (l : List Check) (now : Nat) : Order := l.foldl (fun o c => c.expires now o) o

theorem Check.expires_unmarked (c : Check) (now : Nat) (o : Order) : c.expires now (unmarked o) = unmarked (c.expires now o) := by
  cases c with
  | expire tag =>
    show (unmarked o).expiring tag now = unmarked (o.expiring tag now)
    unfold Order.expiring
    rw [apply_ite unmarked]
    refine if_congr .rfl ?_ rfl
    simp [endedOrder, unmarked]
  | _ => rfl

theorem Order.expiringAll_unmarked (o : Order) (l : List Check) (now : Nat) :
    (unmarked o).expiringAll l now = unmarked (o.expiringAll l now) :=
  List.foldl_hom unmarked fun o c => c.expires_unmarked now o

theorem Order.expiringAll_idle {o : Order} {now : Nat} (h : ¬((o.state = .waiting ∨ o.state = .running) ∧ o.expiry ≤ now))
    (l : List Check) : o.expiringAll l now = o := by
  induction l with
  | nil => rfl
  | cons c l ih =>
    have hc : c.expires now o = o := by
      cases c with
      | expire tag => exact if_neg fun hdue => h hdue.2
      | _ => rfl
    rw [Order.expiringAll, List.foldl_cons, hc]
    exact ih

/-- The expiry check of an order ends it once. -/
theorem Order.expiringAll_eq (o : Order) {l : List Check} (hl : Check.expire o.tag ∈ l) (now : Nat) :
    o.expiringAll l now
      = if (o.state = .waiting ∨ o.state = .running) ∧ o.expiry ≤ now then endedOrder o .expired now else o := by
  split
  next hdue =>
    have hended : ¬(((endedOrder o .expired now).state = .waiting ∨ (endedOrder o .expired now).state = .running)
        ∧ (endedOrder o .expired now).expiry ≤ now) := fun h => by
      have hstate := h.1
      rw [endedOrder_state] at hstate
      split at hstate <;> simp [Reason.final] at hstate
    induction l with
    | nil => cases hl
    | cons c l ih =>
      rw [Order.expiringAll, List.foldl_cons]
      by_cases hc : c = .expire o.tag
      · rw [hc, show (Check.expire o.tag).expires now o = endedOrder o .expired now from if_pos ⟨rfl, hdue⟩]
        exact Order.expiringAll_idle hended l
      · have hkeep : c.expires now o = o := by
          cases c with
          | expire tag => exact if_neg fun h => hc (by rw [h.1])
          | _ => rfl
        rw [hkeep]
        exact ih ((List.mem_cons.mp hl).resolve_left fun h => hc h.symm)
  next hdue => exact Order.expiringAll_idle hdue l

section
variable {now period : Nat} {dir : Dir} {l : List Check} {s t : State}

theorem Checking.unmarked_runCheck (h : Checking now period dir s) (c : Check) :
    (s.runCheck c).orm.table.map unmarked = s.orm.table.map fun o => unmarked (c.expires now o) := by
  cases c with
  | expire tag =>
    refine (congrArg (List.map unmarked) (State.expireIfDue_table h.tags tag)).trans ?_
    rw [List.map_map, h.now]
    rfl
  | adopt tag => exact (s.adoptIfDue_adopts tag).unmarked
  | restore g => exact (s.restoreIfDue_adopts g).unmarked
  | fire g => exact congrArg (fun m : Orm => m.table.map unmarked) (s.fireIfDue_orm g)

theorem ChecksRun.unmarked (h : ChecksRun l s t) (hs : Checking now period dir s) :
    t.orm.table.map unmarked = s.orm.table.map fun o => Machine.unmarked (o.expiringAll l now) := by
  induction h with
  | nil => rfl
  | @cons c l s t n h ih =>
    have hfirst := (hs.withPicks n).unmarked_runCheck c
    have hcommute : (fun o => Machine.unmarked (o.expiringAll l now)) = (fun o => o.expiringAll l now) ∘ Machine.unmarked :=
      funext fun o => (o.expiringAll_unmarked l now).symm
    rw [ih ((hs.withPicks n).runCheck c), hcommute, ← List.map_map, hfirst, List.map_map]
    exact List.map_congr_left fun o _ => Order.expiringAll_unmarked _ l now

/-! ### No work is left (R118, R120, R122) -/

/-- No candidate of a tag is due after its check. -/
theorem ChecksRun.none_due (h : ChecksRun l s t) (hs : Checking now period dir s) {tag : Tag} (htag : Check.adopt tag ∈ l) :
    ∀ x ∈ t.orm.table, x.tag = tag → ¬DueForAdoption x now := by
  refine h.reach (P := Checking now period dir) (Q := fun s => ∀ x ∈ s.orm.table, x.tag = tag → ¬DueForAdoption x now) htag
    (fun s n hs => hs.withPicks n) (fun s c _ hs => hs.runCheck c) hs (fun s hs x hx hxt hdue => ?_) (fun _ _ h => h)
    fun s c _ hs hno x hx hxt hdue => ?_
  · obtain ⟨o, -, ⟨htag, -⟩, -, hne⟩ := hs.due_of_runCheck hx hdue
    exact hne (by rw [← htag, hxt])
  · obtain ⟨o, ho, ⟨htag, -⟩, hodue, -⟩ := hs.due_of_runCheck hx hdue
    exact hno o ho (htag ▸ hxt) hodue

theorem ChecksRun.restoreAhead (h : ChecksRun l s t) (hs : Checking now period dir s) {g : Fin 16} (hg : Check.restore g ∈ l) :
    (t.standing g).RestoreAhead now := by
  refine h.reach (P := Checking now period dir) (Q := fun s => (s.standing g).RestoreAhead now) hg
    (fun s n hs => hs.withPicks n) (fun s c _ hs => hs.runCheck c) hs (fun s hs => ?_) (fun _ _ h => h) fun s c _ hs hq => ?_
  · show ((s.restoreIfDue g).standing g).RestoreAhead now
    rw [State.restoreIfDue_standing, if_pos rfl, hs.now]
    exact Standing.restored_ahead _ now
  · obtain he | ⟨-, he⟩ | ⟨-, he⟩ | ⟨o, -, -, -, -, he⟩ := hs.standing c g <;> rw [he]
    · exact hq
    · exact Standing.restored_ahead _ now
    · exact hq.timed period
    · exact hq.adopting o period

theorem ChecksRun.refreshAhead (h : ChecksRun l s t) (hs : Checking now period dir s) (hp : 0 < period) {g : Fin 16}
    (hg : Check.fire g ∈ l) : (t.standing g).RefreshAhead now := by
  refine h.reach (P := Checking now period dir) (Q := fun s => (s.standing g).RefreshAhead now) hg
    (fun s n hs => hs.withPicks n) (fun s c _ hs => hs.runCheck c) hs (fun s hs => ?_) (fun _ _ h => h) fun s c _ hs hq => ?_
  · show ((s.fireIfDue g).standing g).RefreshAhead now
    rw [State.fireIfDue_standing, if_pos rfl, hs.now, hs.period]
    exact Standing.timed_ahead _ hp
  · obtain he | ⟨-, he⟩ | ⟨-, he⟩ | ⟨o, -, -, -, -, he⟩ := hs.standing c g <;> rw [he]
    · exact hq
    · exact hq.restored
    · exact Standing.timed_ahead _ hp
    · exact hq.adopting hp o

/-! ### Where no candidate is due (R120, R122) -/

theorem Checking.noneDue_runCheck (hs : Checking now period dir s) (hno : ∀ x ∈ s.orm.table, ¬DueForAdoption x now) (c : Check) :
    ∀ x ∈ (s.runCheck c).orm.table, ¬DueForAdoption x now := fun x hx hdue => by
  obtain ⟨o, ho, -, hodue, -⟩ := hs.due_of_runCheck hx hdue
  exact hno o ho hodue

/-- Without adoptions a restore that is due is made. -/
theorem ChecksRun.restores (h : ChecksRun l s t) (hs : Checking now period dir s)
    (hno : ∀ x ∈ s.orm.table, ¬DueForAdoption x now) {g : Fin 16} (hg : Check.restore g ∈ l) {v : RelayValue} {tag : Tag} {r : Nat}
    (hrel : (s.standing g).relay = some (v, tag)) (hr : (s.standing g).restoreUntil = some r) (hnow : r ≤ now) :
    (t.standing g).relay = some (.on, tag) ∧ (t.standing g).restoreUntil = none := by
  have hdone {x : Standing} (h : x.relay = some (.on, tag) ∧ x.restoreUntil = none) : x.RestoreAhead now := by
    unfold Standing.RestoreAhead
    rw [h.2]
    nofun
  refine h.reach
    (P := fun u => Checking now period dir u ∧ (∀ x ∈ u.orm.table, ¬DueForAdoption x now)
      ∧ (((u.standing g).relay = some (v, tag) ∧ (u.standing g).restoreUntil = some r)
        ∨ (u.standing g).relay = some (.on, tag) ∧ (u.standing g).restoreUntil = none))
    (Q := fun u => (u.standing g).relay = some (.on, tag) ∧ (u.standing g).restoreUntil = none) hg
    (fun s n hs => ⟨hs.1.withPicks n, hs.2⟩) (fun s c _ ⟨hs, hno, hst⟩ => ⟨hs.runCheck c, hs.noneDue_runCheck hno c, ?_⟩)
    ⟨hs, hno, .inl ⟨hrel, hr⟩⟩ (fun s ⟨hs, _, hst⟩ => ?_) (fun _ _ h => h) fun s c _ ⟨hs, hno, _⟩ hq => ?_
  · obtain he | ⟨-, he⟩ | ⟨-, he⟩ | ⟨o, ho, -, hdue, -⟩ := hs.standing c g
    · rwa [he]
    · rw [he]
      obtain ⟨hrel, hr⟩ | hst := hst
      · exact .inr (by rw [Standing.restored_due hrel hr hnow]; exact ⟨rfl, rfl⟩)
      · exact .inr (by rwa [Standing.restored_idle (hdone hst)])
    · obtain ⟨n, hn⟩ := (s.standing g).timed_parts now period
      rw [he, hn]
      exact hst
    · exact absurd hdue (hno o ho)
  · show ((s.restoreIfDue g).standing g).relay = _ ∧ ((s.restoreIfDue g).standing g).restoreUntil = _
    rw [State.restoreIfDue_standing, if_pos rfl, hs.now]
    obtain ⟨hrel, hr⟩ | hst := hst
    · rw [Standing.restored_due hrel hr hnow]
      exact ⟨rfl, rfl⟩
    · rwa [Standing.restored_idle (hdone hst)]
  · obtain he | ⟨-, he⟩ | ⟨-, he⟩ | ⟨o, ho, -, hdue, -⟩ := hs.standing c g
    · rwa [he]
    · rwa [he, Standing.restored_idle (hdone hq)]
    · obtain ⟨n, hn⟩ := (s.standing g).timed_parts now period
      rw [he, hn]
      exact hq
    · exact absurd hdue (hno o ho)

/-- A piece of work leaves a queue, or puts the group that fires at its end. -/
theorem State.runCheck_queue (s : State) (c : Check) (p : Phase) :
    (s.runCheck c).queue p = s.queue p ∨ ∃ g, c = .fire g ∧ (s.runCheck c).queue p = s.queue p ++ [⟨g, s.now⟩] := by
  cases c with
  | expire tag => exact .inl (congrArg (fun r : Rfs => r.queues.get p) (s.expireIfDue_rfs tag))
  | adopt tag => exact .inl (s.adoptIfDue_queue tag p)
  | restore g => exact .inl (s.restoreIfDue_queue g p)
  | fire g => exact (s.fireIfDue_queue g p).imp id fun h => ⟨g, rfl, h⟩

/-- Without adoptions a timer that is reached puts its group into the queue of each phase with a member. -/
theorem ChecksRun.fires (h : ChecksRun l s t) (hs : Checking now period dir s) (hdir : dir.Sound)
    (hno : ∀ x ∈ s.orm.table, ¬DueForAdoption x now) {g : Fin 16} (hg : Check.fire g ∈ l) {x : Nat}
    (hx : (s.standing g).nextRefresh = some x) (hnow : x ≤ now) {p : Phase} (hp : ∃ i, MemberAt s g p i) :
    ∃ e ∈ t.queue p, e.group = g := by
  have hkeep : ∀ (u : State) (c : Check), (∃ e ∈ u.queue p, e.group = g) → ∃ e ∈ (u.runCheck c).queue p, e.group = g := by
    rintro u c ⟨e, he, heg⟩
    obtain hq | ⟨g', -, hq⟩ := u.runCheck_queue c p <;> rw [hq]
    · exact ⟨e, he, heg⟩
    · exact ⟨e, List.mem_append_left _ he, heg⟩
  have hfired {u : State} (hu : Checking now period dir u) (hnext : (u.standing g).nextRefresh = some x) :
      ∃ e ∈ (u.fireIfDue g).queue p, e.group = g := by
    refine State.fireIfDue_queued (hu.dir ▸ hdir) hnext (hu.now ▸ hnow) ?_
    unfold MemberAt State.house at hp ⊢
    rwa [hu.dir, ← hs.dir]
  refine h.reach
    (P := fun u => Checking now period dir u ∧ (∀ x ∈ u.orm.table, ¬DueForAdoption x now)
      ∧ ((u.standing g).nextRefresh = some x ∨ ∃ e ∈ u.queue p, e.group = g))
    (Q := fun u => ∃ e ∈ u.queue p, e.group = g) hg
    (fun s n hs => ⟨hs.1.withPicks n, hs.2⟩) (fun s c _ ⟨hs, hno, hst⟩ => ⟨hs.runCheck c, hs.noneDue_runCheck hno c, ?_⟩)
    ⟨hs, hno, .inl hx⟩ (fun s ⟨hs, _, hst⟩ => ?_) (fun _ _ h => h) fun s c _ _ hq => hkeep s c hq
  · obtain hnext | hq := hst
    · obtain he | ⟨-, he⟩ | ⟨rfl, -⟩ | ⟨o, ho, -, hdue, -⟩ := hs.standing c g
      · exact .inl (by rwa [he])
      · exact .inl (by rwa [he, Standing.restored_nextRefresh])
      · exact .inr (hfired hs hnext)
      · exact absurd hdue (hno o ho)
    · exact .inr (hkeep s c hq)
  · obtain hnext | hq := hst
    · exact hfired hs hnext
    · exact hkeep s (.fire g) hq

/-- A group with nothing due keeps its standing record and its places in the queues. -/
theorem ChecksRun.quiet (h : ChecksRun l s t) (hs : Checking now period dir s) {g : Fin 16}
    (hno : ∀ x ∈ s.orm.table, x.body.group = some g → ¬DueForAdoption x now) (hrestore : (s.standing g).RestoreAhead now)
    (hnext : ∀ x ∈ (s.standing g).nextRefresh, now < x) :
    t.standing g = s.standing g
      ∧ ∀ p, (t.queue p).filter (fun e => e.group = g) = (s.queue p).filter fun e => e.group = g := by
  refine (h.induct
    (P := fun u => (Checking now period dir u ∧ ∀ x ∈ u.orm.table, x.body.group = some g → ¬DueForAdoption x now)
      ∧ u.standing g = s.standing g ∧ ∀ p, (u.queue p).filter (fun e => e.group = g) = (s.queue p).filter fun e => e.group = g)
    (fun u n hu => ⟨⟨hu.1.1.withPicks n, hu.1.2⟩, hu.2⟩) (fun u c _ ⟨⟨hu, hno⟩, hst, hq⟩ => ⟨⟨hu.runCheck c, fun x hx hxg hdue => ?_⟩,
      ?_, fun p => ?_⟩) ⟨⟨hs, hno⟩, rfl, fun _ => rfl⟩).2
  · obtain ⟨o, ho, ⟨-, hbody, -⟩, hodue, -⟩ := hu.due_of_runCheck hx hdue
    exact hno o ho (hbody ▸ hxg) hodue
  · obtain he | ⟨-, he⟩ | ⟨-, he⟩ | ⟨o, ho, -, hdue, hg, -⟩ := hu.standing c g
    · rw [he, hst]
    · rw [he, hst, Standing.restored_idle hrestore]
    · rw [he, hst, Standing.timed_idle hnext]
    · exact absurd hdue (hno o ho hg)
  · obtain he | ⟨g', rfl, he⟩ := u.runCheck_queue c p
    · rw [he, hq p]
    · by_cases hg : g' = g
      · subst hg
        have hidle : u.runCheck (.fire g') = u := by
          show u.fireIfDue g' = u
          cases hn : (u.standing g').nextRefresh with
          | none => exact State.fireIfDue_none hn
          | some n => exact State.fireIfDue_later hn (Nat.not_le.mpr (hu.now ▸ hnext n (hst ▸ hn)))
        rw [hidle, hq p]
      · have hother : ([⟨g', u.now⟩] : List QueueEntry).filter (fun e => e.group = g) = [] := by simp [hg]
        rw [he, List.filter_append, hq p, hother, List.append_nil]

end

end Sys2Proof.Machine
end

section
/-! PROOF. The candidate of a kind and group that alone is due at a clock reading (R118 to R120). -/

namespace Sys2Proof.Machine

/-! ### One standing part -/

/-- What the adoption of an order leaves of its standing part: its value and tag, or ON with its tag where its restore-until is
reached at once; and no restore due (R119, R120). -/
def PartAdopted (o : Order) (x : Standing) (now : Nat) : Prop :=
  match o.body with
  | .band _ b => x.band = some (b, o.tag)
  | .relay _ v restore => x.RestoreAhead now
      ∧ ((v = .on ∨ ∀ m ∈ restore, now < min (o.effective.getD now + m * 60) 4294967295) → x.relay = some (v, o.tag))
      ∧ ∀ m ∈ restore, min (o.effective.getD now + m * 60) 4294967295 ≤ now → x.relay = some (.on, o.tag)
  | .query _ => True

theorem PartAdopted.adoptedPart {o : Order} {x : Standing} {now : Nat} (h : PartAdopted o x now) (before : Standing) :
    AdoptedPart o before x now := by
  unfold PartAdopted at h
  unfold AdoptedPart
  cases hb : o.body with
  | band g b =>
    rw [hb] at h
    exact fun _ => h
  | relay g v restore =>
    rw [hb] at h
    exact fun _ => h.2
  | query i => trivial

theorem newerStands_iff (o : Order) (x : Standing) : x.newerStands o.body o.tag = true ↔ NewerStands o x := by
  unfold NewerStands
  cases o.body with
  | band g b => exact Standing.newerStands_band
  | relay g v restore => exact Standing.newerStands_relay
  | query i => exact ⟨nofun, nofun⟩

/-- Under a newer part nothing is said of what is adopted. -/
theorem NewerStands.adoptedPart {o : Order} {before : Standing} (h : NewerStands o before) (x : Standing) (now : Nat) :
    AdoptedPart o before x now := by
  unfold NewerStands at h
  unfold AdoptedPart
  cases hb : o.body with
  | band g b =>
    rw [hb] at h
    obtain ⟨y, hy, hn⟩ := h
    exact fun hno => absurd hn (hno y hy)
  | relay g v restore =>
    rw [hb] at h
    obtain ⟨y, hy, hn⟩ := h
    exact fun hno => absurd hn (hno y hy)
  | query i => trivial

/-- The part stands adopted after the adoption. -/
theorem partAdopted_adopting {o : Order} {x : Standing} (hn : ¬x.newerStands o.body o.tag = true) (now period : Nat) :
    PartAdopted o (x.adopting o now period) now := by
  unfold PartAdopted
  cases hb : o.body with
  | query i => trivial
  | band g b =>
    rw [Standing.adopting_band hb hn]
  | relay g v restore =>
    rw [Standing.adopting_relay hb hn]
    refine ⟨Standing.restored_ahead _ now, ?_⟩
    have huntil := restoreUntilOf_eq v restore o.effective now
    obtain ⟨hahead, he⟩ | ⟨r, w, tag, hrel, hr, hnow, he⟩ := Standing.restored_cases { x with
      relay := some (v, o.tag)
      restoreUntil := restoreUntilOf v restore o.effective now
      changeCount := x.changeCount + 1
      nextRefresh := some (capSeconds (now + period)) } now <;> rw [he]
    · refine ⟨fun _ => rfl, fun m hm hreached => ?_⟩
      cases v with
      | on => rfl
      | shed =>
        refine absurd hreached (Nat.not_le.mpr (hahead _ ?_ nofun))
        show restoreUntilOf .shed restore o.effective now = _
        rw [huntil, if_pos rfl, Option.mem_def.mp hm, Option.map_some]
    · obtain ⟨rfl, rfl⟩ := Prod.mk.inj (Option.some.inj hrel)
      refine ⟨fun h => ?_, fun _ _ _ => rfl⟩
      have hr' : restoreUntilOf v restore o.effective now = some r := hr
      rw [huntil] at hr'
      split at hr'
      next hshed =>
        obtain ⟨m, hm, rfl⟩ := Option.map_eq_some_iff.mp hr'
        obtain hon | hlater := h
        · rw [hshed] at hon
          cases hon
        · exact absurd hnow (Nat.not_le.mpr (hlater m hm))
      · cases hr'

/-- Two standing records have the same part of a kind, and the restore that goes with it. -/
def SamePart (b : OrderBody) (x y : Standing) : Prop :=
  match b with
  | .band .. => x.band = y.band
  | .relay .. => x.relay = y.relay ∧ x.restoreUntil = y.restoreUntil
  | .query _ => True

theorem SamePart.partTag {b : OrderBody} {x y : Standing} (h : SamePart b x y) : x.partTag b = y.partTag b := by
  cases b with
  | band g v => exact congrArg (Option.map Prod.snd) h
  | relay g v r => exact congrArg (Option.map Prod.snd) h.1
  | query i => rfl

theorem SamePart.partAdopted {o : Order} {x y : Standing} {now : Nat} (h : SamePart o.body x y) (hy : PartAdopted o y now) :
    PartAdopted o x now := by
  unfold PartAdopted at hy ⊢
  unfold SamePart at h
  cases hb : o.body with
  | band g b =>
    rw [hb] at h hy
    exact h.trans hy
  | relay g v restore =>
    rw [hb] at h hy
    obtain ⟨hrel, huntil⟩ := h
    obtain ⟨hahead, hpart⟩ := hy
    refine ⟨?_, hrel ▸ hpart⟩
    unfold Standing.RestoreAhead
    rw [hrel, huntil]
    exact hahead
  | query i => trivial

theorem SamePart.timed (b : OrderBody) (x : Standing) (now period : Nat) : SamePart b (x.timed now period) x := by
  obtain ⟨n, he⟩ := x.timed_parts now period
  rw [he]
  cases b with
  | band => exact rfl
  | relay => exact ⟨rfl, rfl⟩
  | query => trivial

/-- The adoption of an order of the other kind leaves the part. -/
theorem SamePart.adopting {b : OrderBody} {y : Order} (hkind : y.body.kindCode ≠ b.kindCode) (x : Standing) (now period : Nat) :
    SamePart b (x.adopting y now period) x := by
  have hrefl : SamePart b x x := by
    cases b with
    | band => exact rfl
    | relay => exact ⟨rfl, rfl⟩
    | query => trivial
  by_cases hn : x.newerStands y.body y.tag = true
  · rwa [Standing.adopting_newer hn]
  · cases hy : y.body with
    | band g v =>
      rw [Standing.adopting_band hy hn]
      cases b with
      | band => rw [hy] at hkind; exact absurd rfl hkind
      | relay => exact ⟨rfl, rfl⟩
      | query => trivial
    | relay g v restore =>
      rw [Standing.adopting_relay hy hn]
      cases b with
      | band => exact Standing.restored_band _ now
      | relay => rw [hy] at hkind; exact absurd rfl hkind
      | query => trivial
    | query i =>
      unfold Standing.adopting
      rw [if_neg hn, hy]
      simpa only [Standing.adopt, hy] using hrefl

/-- A restore that is not due leaves the part; any leaves its tag. -/
theorem PartAdopted.restored {o : Order} {x : Standing} {now : Nat} (h : PartAdopted o x now) : PartAdopted o (x.restored now) now := by
  cases hb : o.body with
  | band g b =>
    refine SamePart.partAdopted ?_ h
    rw [hb]
    exact x.restored_band now
  | relay g v restore =>
    have hahead : x.RestoreAhead now := by
      unfold PartAdopted at h
      rw [hb] at h
      exact h.1
    rwa [Standing.restored_idle hahead]
  | query i =>
    unfold PartAdopted
    rw [hb]
    trivial

theorem SameAsked.adopting {x o : Order} (h : SameAsked x o) (y : Standing) (now period : Nat) :
    y.adopting x now period = y.adopting o now period := by
  obtain ⟨htag, hbody, heff⟩ := h
  unfold Standing.adopting Standing.adopt
  rw [htag, hbody, heff]

/-! ### Through the checks -/

/-- The mark that a candidate of a group gets under a standing record. -/
def markUnder (o : Order) (x : Standing) : Mark := if x.newerStands o.body o.tag then .passed else .adopted

/-- No other order of the kind and group is due. -/
def AloneDue (o : Order) (now : Nat) (s : State) : Prop := ∀ x ∈ s.orm.table, x.tag ≠ o.tag → Alike x o → ¬DueForAdoption x now

/-- The candidate has not had its check: it is due, and the part of its kind has the tag it had. -/
def StillDue (o : Order) (g : Fin 16) (before : Standing) (now : Nat) (s : State) : Prop :=
  (∃ x ∈ s.orm.table, SameAsked x o ∧ DueForAdoption x now) ∧ (s.standing g).partTag o.body = before.partTag o.body

/-- The candidate has had its check: it has its mark, and unless it was passed its part stands adopted. -/
def CheckedOff (o : Order) (g : Fin 16) (m : Mark) (now : Nat) (s : State) : Prop :=
  (∀ x ∈ s.orm.table, x.tag = o.tag → x.mark = some m) ∧ (m = .adopted → PartAdopted o (s.standing g) now)

section
variable {now period : Nat} {dir : Dir} {l : List Check} {s t : State} {o : Order} {g : Fin 16}

theorem AloneDue.runCheck (h : AloneDue o now s) (hs : Checking now period dir s) (c : Check) : AloneDue o now (s.runCheck c) := by
  intro x hx hne halike hdue
  obtain ⟨y, hy, ⟨htag, hbody, -⟩, hydue, -⟩ := hs.due_of_runCheck hx hdue
  exact h y hy (htag ▸ hne) ⟨hbody ▸ halike.1, hbody ▸ halike.2⟩ hydue

/-- Another order of the group that is due is of the other kind. -/
theorem AloneDue.otherKind (h : AloneDue o now s) (hg : o.body.group = some g) {y : Order} (hy : y ∈ s.orm.table)
    (hne : y.tag ≠ o.tag) (hdue : DueForAdoption y now) (hyg : y.body.group = some g) : y.body.kindCode ≠ o.body.kindCode :=
  fun hk => h y hy hne ⟨hyg.trans hg.symm, hk⟩ hdue

theorem StillDue.runCheck {before : Standing} (h : StillDue o g before now s) (hs : Checking now period dir s)
    (halone : AloneDue o now s) (hg : o.body.group = some g) {c : Check} (hc : c ≠ .adopt o.tag) :
    StillDue o g before now (s.runCheck c) := by
  obtain ⟨⟨x, hx, hasked, hdue⟩, hpart⟩ := h
  obtain ⟨x', hx', hasked', hdue'⟩ := hs.due_runCheck hx hdue (c := c) (hasked.1 ▸ hc)
  refine ⟨⟨x', hx', hasked'.trans hasked, hdue'⟩, ?_⟩
  rw [← hpart]
  obtain he | ⟨-, he⟩ | ⟨-, he⟩ | ⟨y, hy, rfl, hydue, hyg, he⟩ := hs.standing c g <;> rw [he]
  · exact Standing.restored_partTag _ now _
  · exact (SamePart.timed o.body _ now period).partTag
  · exact (SamePart.adopting (halone.otherKind hg hy (fun ht => hc (by rw [ht])) hydue hyg) _ now period).partTag

/-- The candidate's own check. -/
theorem StillDue.adopt {before : Standing} (h : StillDue o g before now s) (hs : Checking now period dir s)
    (hg : o.body.group = some g) : CheckedOff o g (markUnder o before) now (s.runCheck (.adopt o.tag)) := by
  obtain ⟨⟨x, hx, hasked, hdue⟩, hpart⟩ := h
  have ⟨htag, hbody, _⟩ := hasked
  have hnewer : (s.standing g).newerStands x.body x.tag = before.newerStands o.body o.tag := by
    rw [htag, hbody]
    exact Standing.newerStands_congr hpart o.tag
  have hadopt : s.runCheck (.adopt o.tag) = s.adoptOrder x := by
    rw [← htag]
    exact State.adoptIfDue_due hs.tags hx (hs.now ▸ hdue)
  rw [hadopt]
  refine ⟨fun y hy hyt => ?_, fun hm => ?_⟩
  · rw [s.adoptOrder_mark (hbody ▸ hg), hnewer] at hy
    obtain ⟨z, -, rfl⟩ := List.mem_map.mp hy
    split at hyt
    next hz =>
      rw [if_pos hz]
      rfl
    next hz => exact absurd (hyt.trans htag.symm) hz
  · have hno : ¬before.newerStands o.body o.tag = true := fun hn => by
      rw [markUnder, if_pos hn] at hm
      cases hm
    rw [State.adoptOrder_standing s (hbody ▸ hg), if_pos rfl, hs.now, hs.period, SameAsked.adopting hasked]
    refine partAdopted_adopting ?_ now period
    rwa [← htag, ← hbody, hnewer]

theorem CheckedOff.runCheck {m : Mark} (h : CheckedOff o g m now s) (hm : m ≠ .pending) (hs : Checking now period dir s)
    (halone : AloneDue o now s) (hg : o.body.group = some g) (c : Check) : CheckedOff o g m now (s.runCheck c) := by
  obtain ⟨hmark, hpart⟩ := h
  have hnot : ∀ x ∈ s.orm.table, x.tag = o.tag → ¬DueForAdoption x now := fun x hx hxt hdue =>
    hm (Option.some.inj ((hmark x hx hxt).symm.trans hdue.1))
  refine ⟨fun x hx hxt => ?_, fun hadopted => ?_⟩
  · obtain ⟨f, htable, hf⟩ := hs.table c
    rw [htable] at hx
    obtain ⟨y, hy, rfl⟩ := List.mem_map.mp hx
    obtain ⟨⟨htag, -⟩, -, hkept | ⟨hdue, -⟩⟩ := hf y hy
    · rw [hkept]
      exact hmark y hy (htag ▸ hxt)
    · exact absurd hdue (hnot y hy (htag ▸ hxt))
  · have hpart := hpart hadopted
    obtain he | ⟨-, he⟩ | ⟨-, he⟩ | ⟨y, hy, -, hydue, hyg, he⟩ := hs.standing c g <;> rw [he]
    · exact hpart
    · exact hpart.restored
    · exact (SamePart.timed o.body _ now period).partAdopted hpart
    · exact (SamePart.adopting (halone.otherKind hg hy (fun ht => hnot y hy ht hydue) hydue hyg) _ now period).partAdopted hpart

theorem markUnder_ne_pending (o : Order) (x : Standing) : markUnder o x ≠ .pending := by
  unfold markUnder
  split <;> nofun

/-- A candidate that is due, alone of its kind and group, is adopted or passed. -/
theorem ChecksRun.adopts (h : ChecksRun l s t) (hs : Checking now period dir s) (ho : o ∈ s.orm.table) (hdue : DueForAdoption o now)
    (hg : o.body.group = some g) (halone : AloneDue o now s) (hl : Check.adopt o.tag ∈ l) :
    CheckedOff o g (markUnder o (s.standing g)) now t := by
  have hm := markUnder_ne_pending o (s.standing g)
  refine h.reach
    (P := fun u => (Checking now period dir u ∧ AloneDue o now u)
      ∧ (StillDue o g (s.standing g) now u ∨ CheckedOff o g (markUnder o (s.standing g)) now u))
    (Q := CheckedOff o g (markUnder o (s.standing g)) now) hl
    (fun u n hu => ⟨⟨hu.1.1.withPicks n, hu.1.2⟩, hu.2⟩)
    (fun u c _ ⟨⟨hu, halone⟩, hst⟩ => ⟨⟨hu.runCheck c, halone.runCheck hu c⟩, ?_⟩)
    ⟨⟨hs, halone⟩, .inl ⟨⟨o, ho, .refl o, hdue⟩, rfl⟩⟩
    (fun u ⟨⟨hu, halone⟩, hst⟩ => hst.elim (fun hst => hst.adopt hu hg) fun hst => hst.runCheck hm hu halone hg _)
    (fun _ _ h => h) fun u c _ ⟨⟨hu, halone⟩, _⟩ hst => hst.runCheck hm hu halone hg c
  obtain hst | hst := hst
  · by_cases hc : c = .adopt o.tag
    · rw [hc]
      exact .inr (hst.adopt hu hg)
    · exact .inl (hst.runCheck hu halone hg hc)
  · exact .inr (hst.runCheck hm hu halone hg c)

end

end Sys2Proof.Machine
end

section
/-! PROOF. The checks of a clock reading, at an increment and at a SET_TIME (R137, R138). -/

namespace Sys2Proof.Machine

/-! ### The merged list of a reading -/

theorem filter_checkKind {l : List Check} {j : Nat} (h : ∀ c ∈ l, checkKind c = j) (k : Nat) :
    l.filter (fun c => checkKind c = k) = if j = k then l else [] := by
  split
  next hjk => exact List.filter_eq_self.mpr fun c hc => decide_eq_true ((h c hc).trans hjk)
  next hjk => exact List.filter_eq_nil_iff.mpr fun c hc hk => hjk ((h c hc).symm.trans (of_decide_eq_true hk))

/-- A list of pieces that holds those of ORM, of the restores and of the timers, each in their order. -/
structure HoldsChecks (table : List Order) (checks : List Check) : Prop where
  orders : checks.filter (fun c => checkKind c = 0)
    = (table.map fun o => Check.expire o.tag) ++ (table.map fun o => Check.adopt o.tag)
  restores : checks.filter (fun c => checkKind c = 1) = (List.finRange 16).map Check.restore
  timers : checks.filter (fun c => checkKind c = 2) = (List.finRange 16).map Check.fire

theorem State.clockChecks_run (s : State) : ∃ checks, ChecksRun checks s s.clockChecks ∧ HoldsChecks s.orm.table checks := by
  have hfuel : s.checkLists.flatten.length ≤ 2 * s.orm.table.length + 32 := by
    simp only [State.checkLists, allGroups, List.flatten_cons, List.flatten_nil, List.length_append, List.length_map,
      List.length_finRange, List.length_nil]
    omega
  obtain ⟨checks, hrun, hfilter⟩ := State.runChecks_run _ s hfuel s.checkLists_separate
  have horders : ∀ c ∈ (s.orm.table.map fun o => Check.expire o.tag) ++ (s.orm.table.map fun o => Check.adopt o.tag),
      checkKind c = 0 := by
    rintro c hc
    obtain hc | hc := List.mem_append.mp hc <;> obtain ⟨o, -, rfl⟩ := List.mem_map.mp hc <;> rfl
  have hrestores : ∀ c ∈ (List.finRange 16).map Check.restore, checkKind c = 1 := fun c hc => by
    obtain ⟨g, -, rfl⟩ := List.mem_map.mp hc
    rfl
  have htimers : ∀ c ∈ (List.finRange 16).map Check.fire, checkKind c = 2 := fun c hc => by
    obtain ⟨g, -, rfl⟩ := List.mem_map.mp hc
    rfl
  have hflatten : ∀ k, checks.filter (fun c => checkKind c = k)
      = (if 0 = k then (s.orm.table.map fun o => Check.expire o.tag) ++ (s.orm.table.map fun o => Check.adopt o.tag) else [])
        ++ ((if 1 = k then (List.finRange 16).map Check.restore else []) ++ if 2 = k then (List.finRange 16).map Check.fire else []) := by
    intro k
    rw [hfilter k, ← filter_checkKind horders, ← filter_checkKind hrestores, ← filter_checkKind htimers]
    simp only [State.checkLists, allGroups, List.flatten_cons, List.flatten_nil, List.filter_append, List.append_nil]
  exact ⟨checks, hrun, ⟨(hflatten 0).trans (List.append_nil _), hflatten 1, hflatten 2⟩⟩

section
variable {table : List Order} {checks : List Check} (h : HoldsChecks table checks)
include h

theorem HoldsChecks.expire {o : Order} (ho : o ∈ table) : Check.expire o.tag ∈ checks := by
  refine List.mem_of_mem_filter (p := fun c => checkKind c = 0) ?_
  rw [h.orders]
  exact List.mem_append_left _ (List.mem_map_of_mem (f := fun o : Order => Check.expire o.tag) ho)

theorem HoldsChecks.adopt {o : Order} (ho : o ∈ table) : Check.adopt o.tag ∈ checks := by
  refine List.mem_of_mem_filter (p := fun c => checkKind c = 0) ?_
  rw [h.orders]
  exact List.mem_append_right _ (List.mem_map_of_mem (f := fun o : Order => Check.adopt o.tag) ho)

theorem HoldsChecks.restore (g : Fin 16) : Check.restore g ∈ checks := by
  refine List.mem_of_mem_filter (p := fun c => checkKind c = 1) ?_
  rw [h.restores]
  exact List.mem_map_of_mem (List.mem_finRange g)

theorem HoldsChecks.fire (g : Fin 16) : Check.fire g ∈ checks := by
  refine List.mem_of_mem_filter (p := fun c => checkKind c = 2) ?_
  rw [h.timers]
  exact List.mem_map_of_mem (List.mem_finRange g)

theorem HoldsChecks.expiriesNamed {s : State} (hs : s.orm.table = table) : ExpiriesNamed s checks := fun tag htag => by
  have hmem : Check.expire tag ∈ checks.filter fun c => checkKind c = 0 := List.mem_filter.mpr ⟨htag, rfl⟩
  rw [h.orders] at hmem
  obtain hmem | hmem := List.mem_append.mp hmem
  · obtain ⟨o, ho, he⟩ := List.mem_map.mp hmem
    exact ⟨o, hs ▸ ho, Check.expire.inj he⟩
  · obtain ⟨o, -, he⟩ := List.mem_map.mp hmem
    cases he

end

theorem ChecksRun.outside {l : List Check} {s t : State} (h : ChecksRun l s t) : OutsideChecks s t :=
  h.induct (P := OutsideChecks s) (fun u n hu => hu.trans (.withPicks u n)) (fun u c _ hu => hu.trans (u.runCheck_outside c)) (.refl s)

/-! ### A reading -/

/-- The state at a clock reading, with its orders noting it. -/
theorem Checking.noteTimes {s : State} {now period : Nat} {dir : Dir} (h : Checking now period dir s) :
    Checking now period dir s.noteTimes := by
  refine ⟨h.now, h.period, h.dir, h.tags.of_tags s.noteTimes_tags, fun o ho => ?_⟩
  obtain ⟨x, hx, rfl⟩ := List.mem_map.mp ho
  exact h.queries x hx

theorem checksLeave {s : State} (hs : Checking s.now s.params.refreshPeriod s.dir s) (hdir : s.dir.Sound)
    (hperiod : 0 < s.params.refreshPeriod) {checks : List Check} {t : State} (hrun : ChecksRun checks s.noteTimes t)
    (hl : HoldsChecks s.noteTimes.orm.table checks) : ChecksLeave s t := by
  have hs0 := hs.noteTimes
  have htable : s.noteTimes.orm.table = s.orm.table.map fun o => noted o s.now := by rw [noteTimes_eq]; rfl
  have hmem : ∀ {o}, o ∈ s.orm.table → noted o s.now ∈ s.noteTimes.orm.table := fun ho => htable ▸ List.mem_map_of_mem ho
  have hnone (hno : ∀ o ∈ s.orm.table, ¬DueForAdoption o s.now) : ∀ x ∈ s.noteTimes.orm.table, ¬DueForAdoption x s.now := by
    intro x hx
    rw [htable] at hx
    obtain ⟨o, ho, rfl⟩ := List.mem_map.mp hx
    exact hno o ho
  refine ⟨?_, fun x hx => ?_, fun g => hrun.restoreAhead hs0 (hl.restore g), fun g => hrun.refreshAhead hs0 hperiod (hl.fire g),
    fun o ho g hdue hg halone => ?_, fun hno => ⟨fun g v tag r hrel hr hnow => ?_, fun g x p hx hnow hp => ?_⟩,
    fun g hno hrestore hnext => ?_⟩
  · rw [hrun.unmarked hs0, htable, List.map_map]
    exact List.map_congr_left fun o ho => congrArg unmarked (Order.expiringAll_eq (noted o s.now) (hl.expire (hmem ho)) s.now)
  · have htag : x.tag ∈ s.noteTimes.orm.table.map (·.tag) := hrun.outside.tags ▸ List.mem_map_of_mem (f := (·.tag)) hx
    obtain ⟨o, ho, hot⟩ := List.mem_map.mp htag
    exact hrun.none_due hs0 (hl.adopt ho) x hx hot.symm
  · have halone' : AloneDue (noted o s.now) s.now s.noteTimes := fun x hx hne halike => by
      rw [htable] at hx
      obtain ⟨y, hy, rfl⟩ := List.mem_map.mp hx
      exact halone y hy hne halike
    obtain ⟨hmark, hpart⟩ := hrun.adopts hs0 (hmem ho) hdue hg halone' (hl.adopt (hmem ho))
    have hnewer : (s.standing g).newerStands o.body o.tag = true ↔ NewerStands o (s.standing g) := newerStands_iff o _
    by_cases hn : (s.standing g).newerStands o.body o.tag = true
    · have hm : markUnder (noted o s.now) (s.standing g) = .passed := if_pos hn
      exact ⟨(hnewer.mp hn).adoptedPart _ _, fun x hx hxt => ⟨fun h => absurd (hnewer.mp hn) h, fun _ => hm ▸ hmark x hx hxt⟩⟩
    · have hm : markUnder (noted o s.now) (s.standing g) = .adopted := if_neg hn
      exact ⟨(hpart hm).adoptedPart _, fun x hx hxt => ⟨fun _ => hm ▸ hmark x hx hxt, fun h => absurd (hnewer.mpr h) hn⟩⟩
  · exact hrun.restores hs0 (hnone hno) (hl.restore g) hrel hr hnow
  · exact hrun.fires hs0 hdir (hnone hno) (hl.fire g) hx hnow hp
  · refine hrun.quiet hs0 (fun x hx hg => ?_) (fun r hr hrel => hrestore.elim (fun h => absurd h hrel) fun h => h r hr) hnext
    rw [htable] at hx
    obtain ⟨o, ho, rfl⟩ := List.mem_map.mp hx
    exact hno o ho hg

theorem State.noteTimes_outsideChecks (s : State) : OutsideChecks s s.noteTimes :=
  ⟨fun _ => .inl rfl, rfl, rfl, rfl, rfl, rfl, rfl, rfl, rfl, rfl, s.noteTimes_tags⟩

/-- The checks of a reading are made, and leave what they should. -/
theorem clockChecks_made {s : State} (hsound : s.orm.Sound) (hdist : s.orm.Distinct) (hparams : s.params.Sound)
    (hdir : s.dir.Sound) :
    ChecksMade s s.noteTimes.clockChecks ∧ ChecksLeave s s.noteTimes.clockChecks ∧ OutsideChecks s s.noteTimes.clockChecks := by
  have hs : Checking s.now s.params.refreshPeriod s.dir s := ⟨rfl, rfl, rfl, hdist.tags, hsound.queriesUnmarked⟩
  have hperiod : 0 < s.params.refreshPeriod := by
    obtain ⟨-, -, ⟨hlow, -⟩, -⟩ := hparams
    omega
  obtain ⟨checks, hrun, hl⟩ := s.noteTimes.clockChecks_run
  refine ⟨⟨checks, ?_, ?_, hl.restores, hl.timers⟩, checksLeave hs hdir hperiod hrun hl, s.noteTimes_outsideChecks.trans hrun.outside⟩
  · rw [← noteTimes_eq]
    exact hrun.done hs.noteTimes.tags hdir (hl.expiriesNamed rfl)
  · rw [hl.orders, noteTimes_eq]
    simp only [withTable, List.map_map]
    rfl

end Sys2Proof.Machine
end

section
/-! PROOF. The running clock and SET_TIME (R137, R138, R123). -/

namespace Sys2Proof.Machine

/-! ### The running clock (R137) -/

theorem Clock.runs_iff (c : Clock) : c.runs = true ↔ c.isSet = true ∧ c.seconds < 4294967295 := by
  rw [Clock.runs, Bool.and_eq_true, decide_eq_true_iff]
  rfl

theorem Clock.not_runs {c : Clock} (h : c.isSet = false ∨ 4294967295 ≤ c.seconds) : ¬c.runs = true := by
  rw [Clock.runs_iff]
  rintro ⟨hset, hlt⟩
  rcases h with h | h
  · rw [hset] at h
    cases h
  · omega

theorem Line.SameButStaged.staged {l k : Line} (h : l.SameButStaged k) :
    k = { l with staged := k.staged } ∧ (k.staged = l.staged ∨ k.staged = none) := by
  obtain rfl | rfl := h
  · exact ⟨rfl, .inl rfl⟩
  · exact ⟨rfl, .inr rfl⟩

/-- Settles O32, by the merged checks of the reading. -/
theorem clockRuns : Obligations.ClockRuns := by
  rintro s c rfl
  refine ⟨fun hset hsec hsub => ?_, fun h => ?_, fun h => ?_, fun s1 roll hset hsec hroll hs1 hsound hdist hparams hdir => ?_⟩
  · show Host.Outcome.next s.advanceSubcount.pump = _
    have hruns : (s.mtb.clock.runs && decide (s.mtb.clock.subcount < 999)) = true := by
      rw [Bool.and_eq_true, Clock.runs_iff, decide_eq_true_iff]
      exact ⟨⟨hset, hsec⟩, hsub⟩
    rw [State.advanceSubcount, if_pos hruns]
    rfl
  · show Host.Outcome.next s.advanceSubcount.pump = _
    have hstopped : ¬(s.mtb.clock.runs && decide (s.mtb.clock.subcount < 999)) = true := by
      rw [Bool.and_eq_true, decide_eq_true_iff]
      rintro ⟨hruns, hsub⟩
      obtain h | h | h := h
      · exact Clock.not_runs (.inl h) hruns
      · exact Clock.not_runs (.inr h) hruns
      · omega
    rw [State.advanceSubcount, if_neg hstopped]
  · show Host.Outcome.next s.incrementClock.pump = _
    rw [State.incrementClock, if_neg (Clock.not_runs h)]
  · have hincrement : s.incrementClock = s1.noteTimes.clockChecks := by
      rw [State.incrementClock, if_pos ((Clock.runs_iff _).mpr ⟨hset, hsec⟩), hs1, hroll, ← hset]
      rfl
    have horm : s1.orm = s.orm := by rw [hs1]
    have hline : ∀ p, s1.line p = s.line p := fun p => by rw [hs1]; rfl
    have hdir1 : s1.dir = s.dir := by rw [hs1]
    have hparams1 : s1.params = s.params := by rw [hs1]
    obtain ⟨hmade, hleave, hout⟩ := clockChecks_made (s := s1) (horm ▸ hsound) (horm ▸ hdist) (hparams1 ▸ hparams) (hdir1 ▸ hdir)
    refine ⟨s1.noteTimes.clockChecks, hmade, hleave, ?_, hout.mtb, fun p => ?_, hout.dir.trans hdir1,
      hout.scs.trans (by rw [hs1]), hout.params.trans hparams1, hout.pending.trans (by rw [hs1]),
      hout.tagCounter.trans (congrArg Orm.tagCounter horm), hout.seqCounter.trans (congrArg Orm.seqCounter horm),
      hout.floor.trans (congrArg Orm.floor horm)⟩
    · show Host.Outcome.next s.incrementClock.pump = _
      rw [hincrement]
    · rw [← hline p]
      exact (hout.lines p).staged

/-! ### SET_TIME (R138, R123) -/

theorem Standing.pullBack_eq (x : Standing) (now period : Nat) :
    x.pullBack now period = { x with nextRefresh := x.nextRefresh.map fun n => min n (now + period) } := by
  obtain ⟨band, relay, til, next, count⟩ := x
  cases next with
  | none => rfl
  | some n =>
    simp only [Standing.pullBack, Option.map_some]
    split
    next h => rw [Nat.min_eq_right (Nat.le_of_lt h)]
    next h => rw [Nat.min_eq_left (Nat.le_of_not_lt h)]

/-- Settles O16, by the merged checks of the reading that is set. -/
theorem setTimeSets : Obligations.SetTimeSets := by
  intro s s1 v hp hsound hdist hparams hdir hs1
  have horm : s1.orm = s.orm := by rw [hs1]
  have hdir1 : s1.dir = s.dir := by rw [hs1]
  have hparams1 : s1.params = s.params := by rw [hs1]
  have hscs : s1.scs = s.scs := by rw [hs1]
  have hpending : s1.pending = s.pending := by rw [hs1]
  have hnow : s1.now = v.toNat := by rw [hs1]; rfl
  have hstaged : ∀ p, (s1.line p).staged = none := fun p => by
    rw [hs1, State.line, Tri.get_map]
  obtain ⟨hmade, hleave, hout⟩ := clockChecks_made (s := s1) (horm ▸ hsound) (horm ▸ hdist) (hparams1 ▸ hparams) (hdir1 ▸ hdir)
  have hlines : s1.noteTimes.clockChecks.lines = s1.lines := Tri.ext_get fun p => by
    have hsame := (hout.lines p).staged
    rw [hstaged p, or_self] at hsame
    obtain ⟨hrest, hnone⟩ := hsame
    rw [hnone, ← hstaged p] at hrest
    exact hrest
  have hmtb : s1.noteTimes.clockChecks.mtb = s1.mtb := hout.mtb
  have hadjust : s1.noteTimes.clockChecks.adjustRefresh = { s1.noteTimes.clockChecks with
      rfs := { s1.noteTimes.clockChecks.rfs with standing := s1.noteTimes.clockChecks.rfs.standing.map fun (x : Standing) =>
        { x with nextRefresh := x.nextRefresh.map fun n => min n (v.toNat + s.params.refreshPeriod) } } } := by
    have hreading : s1.noteTimes.clockChecks.now = v.toNat := (congrArg (fun m : Mtb => m.clock.seconds) hmtb).trans hnow
    have hperiod : s1.noteTimes.clockChecks.params = s.params := hout.params.trans hparams1
    unfold State.adjustRefresh
    simp only [hreading, hperiod, Standing.pullBack_eq]
  have hhandle : (handleSetTime v s).1 = s1.noteTimes.clockChecks.adjustRefresh := by
    rw [hs1]
    rfl
  refine ⟨s1.noteTimes.clockChecks, _, hmade, hleave, rfl, ?_, hmtb, hlines, hout.dir.trans hdir1, hout.scs.trans hscs,
    hout.params.trans hparams1, hout.pending.trans hpending, hout.tagCounter.trans (congrArg Orm.tagCounter horm),
    hout.seqCounter.trans (congrArg Orm.seqCounter horm), hout.floor.trans (congrArg Orm.floor horm), fun g x hx => ?_⟩
  · have hexec : exec (.setTime v) s = .next ((handleSetTime v s).1.replied (.setTime v) .ok
        (bytes32 v ++ num32 s.mtb.clock.seconds ++ num16 s.mtb.clock.subcount ++ [flagByte s.mtb.clock.isSet])) :=
      exec_of_answered (r := .setTime v) hp rfl
    rw [hexec, hhandle, hadjust]
    rfl
  · have hget := Vector.getElem_map (xs := s1.noteTimes.clockChecks.rfs.standing) (i := g.val) (hi := g.isLt) fun x : Standing =>
      { x with nextRefresh := x.nextRefresh.map fun n => min n (v.toNat + s.params.refreshPeriod) }
    have hx' := (congrArg (fun y : Standing => x ∈ y.nextRefresh) hget).mp hx
    obtain ⟨n, -, rfl⟩ := Option.map_eq_some_iff.mp hx'
    exact Nat.min_le_right _ _

end Sys2Proof.Machine
end
